-- ==== Sys2Proof/Word.lean ====
section
/-! DEFINITION. The plain data types of the CL9512: words, bytes and binary32 bit patterns. -/

namespace Sys2Proof

/-- A 32-bit register word (R314: every register is 32 bits wide). -/
abbrev Word := BitVec 32

/-- One byte of a table window, a memory or a frame. -/
abbrev Byte := BitVec 8

/-- The bits of an IEEE 754 binary32 value (R3). -/
abbrev F32 := BitVec 32

/-- A sparse map in one canonical form: keys strictly rising, no entry equal to the default. -/
abbrev NMap (α : Type) := List (Nat × α)

end Sys2Proof
end

