-- ==== Sys2Proof/Syntax.lean ====
section
/-! DEFINITION. The commands of the CL9512: one constructor of `Instr` per row of spec/opcode_table.json.
A command is an access by a crossbar master, a frame or clock event at a port, a physical event, or a step of one of the
device's own engines; its operands are what the outside world (or an engine's free choice) brings to it. -/

namespace Sys2Proof

/-- A crossbar master (R305). A few carry whether the access is secure, where R305 makes that the master's own matter. -/
inductive Master where
  | pcie                        -- master 0, a PCIe access
  | spi                         -- master 0, an SPI access
  | steward (machine : Bool)    -- master 1; secure when executing in machine mode
  | warden (w : Nat)            -- masters 2–9; never secure
  | dma (secure : Bool)         -- master 10; as the master that started the transfer
  | debug                       -- master 11
  | icx                         -- master 12; always secure
  | ledger                      -- master 13; always secure
  | loader                      -- the image loader, a secure master (R28)
  deriving DecidableEq, Repr

/-- One thing a Warden's program does that its own map or its hart answers (R62, R63). -/
inductive WardenAct where
  | load (addr n : Nat)
  | store (addr : Nat) (data : List Byte)
  | counter (k : Nat)           -- 0 cycle, 1 time, 2 instructions retired
  deriving DecidableEq, Repr

/-- The PDM bits of a capture tick: per data ball, its level at rising edge p of PDM_CLK and at the falling edge that follows, for the
1,024 PDM samples p of the tick (R226). -/
abbrev PdmBits := List (Nat × List (Bool × Bool))

/-- What one boundary brings from outside: the PDM bits of the capture tick just closed (R226), the power die's
temperature and the output power that each Drive channel measured over the tick (R242). -/
structure BoundaryIn where
  pdm       : PdmBits
  /-- power-die temperature, signed, 0.125 °C -/
  driveTemp : Int
  /-- in mW, channels 0 to 11 -/
  drivePwr  : List Nat
  deriving DecidableEq, Repr

/-- A serial frame at the balls (R175, R176). -/
structure SerialFrame where
  /-- WS and SDI at the rising BCLK edges, from the edge before the frame start to the end of the last slot or the next frame
  start, whichever is later -/
  edges    : List (Bool × Bool)
  /-- frame-start edge less the instant at which local time reaches a sample index, in ns: the index that the port's mapping gives the frame,
  and while there is none the nearest (R179, R180) -/
  errNs    : Int
  /-- from this frame start to the next, in ns (R183) -/
  periodNs : Nat
  deriving DecidableEq, Repr

/-- One subframe of a received AES3 frame (R188 to R190). -/
structure AesSub where
  /-- the 24 bits of aux and audio, and the validity, user, channel-status and parity bits -/
  audio  : Nat
  vBit   : Bool
  uBit   : Bool
  cBit   : Bool
  pBit   : Bool
  /-- every bit has its biphase-mark transition, and the preamble is one of the three -/
  biphaseOk  : Bool
  preambleOk : Bool
  deriving DecidableEq, Repr

/-- A received UDP/IPv4 packet with its RTP header read out (R197). -/
structure RtpPacket where
  port    : Nat
  /-- its 802.1Q VID, if it is tagged; and whether it is one unfragmented packet without IP options (R192) -/
  vlan    : Option Nat
  whole   : Bool
  srcIp   : Nat
  dstIp   : Nat
  udpPort : Nat
  version : Nat
  pt      : Nat
  timestamp : Nat
  payload : List Byte
  deriving DecidableEq, Repr

/-- A packet that matches no stream (R206). -/
inductive StewPacket where
  | arpRequest (senderIp senderMac targetIp : Nat)
  | arpReply (ip mac : Nat)
  | icmpEcho (srcIp srcMac dstIp : Nat) (payload : List Byte)
  | igmpQuery (group : Nat)
  | other
  deriving DecidableEq, Repr

/-- The header of a PTP message (R211 to R213): domainNumber, the sender's port identity, sequenceId, correctionField in units of
2⁻¹⁶ ns, and logMessageInterval. -/
structure PtpHead where
  number : Nat
  source : Nat
  seq    : Nat
  corr   : Int
  logInt : Int
  deriving DecidableEq, Repr

/-- A PTP message; times are in units of 2⁻¹⁶ ns. -/
inductive PtpMsg where
  | sync (twoStep : Bool) (t1 : Int)         -- two-step: t1 comes with the Follow_Up
  | followUp (t1 : Int)
  | delayResp (t4 : Int)
  | announce (gmHi gmLo : Nat) (best : Bool) -- `best`: the outcome of the best-master algorithm
  | other                                    -- Management, Signaling and the rest
  deriving DecidableEq, Repr

/-- A request at an SDRAM channel (R292, R293). -/
inductive DmcOp where
  | read (flow : Option Nat)                 -- the flow of the job whose kernel reads, if one does
  | write (bytes : List (Option Byte))       -- byte strobes: `none` leaves the byte
  deriving DecidableEq, Repr

/-- What the decoder found in one 8-byte beat of a read (R301). -/
inductive EccBeat where
  | clean | corrected | fatal
  deriving DecidableEq, Repr

/-- A host TLP: an access of master 0 at a BAR0 offset (R312). -/
inductive Tlp where
  | memRead (off len : Nat)
  | memWrite (off : Nat) (data : List Byte)
  deriving DecidableEq, Repr

/-- A burst that a master brings to the crossbar (R309). -/
structure BurstIn where
  master : Master
  /-- 40-bit address -/
  addr   : Nat
  len    : Nat
  /-- the bytes of a write; none: a read -/
  write  : Option (List Byte)
  /-- what host memory returns to a read through target T5 -/
  ret    : List Byte
  deriving DecidableEq, Repr

/-- The straps and sensed values of a reset release (R335, R336, R371, R325). -/
structure Straps where
  bootSel : Nat
  twinB   : Bool
  bank33  : Nat
  deriving DecidableEq, Repr

/-- The commands, in the order of the table. -/
inductive Instr where
  | tickBoundary (b : BoundaryIn)
  | egressLost
  | egressRestored
  | renderDeadline
  | renderEnSet (m : Master)
  | renderEnClear (m : Master)
  | softReset (m : Master)
  | remap (m : Master) (v : Bool)
  | registerWrite (m : Master) (off size : Nat) (v : Word)
  | tableWindowWrite (m : Master) (off : Nat) (data : List Byte)
  | readClear (m : Master) (off : Nat)
  | loReadLatch (m : Master) (off : Nat)
  | load (m : Master) (src : Option (List Byte))
  | check (m : Master)
  | discard (m : Master) (index : Nat)
  | divApply (m : Master) (index : Nat)
  | divCancel (m : Master) (index : Nat)
  | detourArm (m : Master) (v : Bool)
  | kazeoUdpFrame (port : Nat) (vlan : Option Nat) (dstIp udpPort : Nat) (payload : List Byte)
  | mboxPost (m : Master) (slot : Nat)
  /-- `acts`: what the Warden's program does up to this, in order; the same below -/
  | commit (w len : Nat) (acts : List WardenAct)
  | wardenWfi (w : Nat) (acts : List WardenAct)
  | wardenOverrun (w : Nat) (acts : List WardenAct)
  | wardenFault (w cause : Nat) (acts : List WardenAct)
  | wdnMemAccess (m : Master) (write : Option Word)
  | kerbPrefetch (sq part : Nat)
  /-- `twin`: another Square whose DONE for the same job arrives in the same cycle, and its run time in ns (R158) -/
  | completionReport (sq status : Nat) (ue : Bool) (runNs : Nat) (twin : Option (Nat × Nat))
  | writeBackEnd (flow tick sub first : Nat)
  | zcTimeout (x : Nat)
  | cancel (m : Master) (template : Nat) (race : Bool)
  | migrate (m : Master) (template quarter : Nat)
  | fenceSquare (m : Master) (sq : Nat)
  | clearSquare (m : Master) (sq : Nat)
  | fenceQuarter (m : Master) (q : Nat)
  | clearQuarter (m : Master) (q : Nat)
  | squareUe (sq : Nat)
  | squareWatchdog (sq : Nat)
  | fenceWriteBlock (sq : Nat)
  | swap (m : Master) (f : Nat) (v : Word)
  | bankSwapEnd (f : Nat)
  | bqSelect (m : Master) (v : Word)
  | bqCommit (m : Master)
  | move (m : Master)
  | asrcLock (c : Nat) (ratio : Nat)
  | asrcUnlock (g cause : Nat)
  | portConfigWrite (m : Master) (p : Nat) (v : Word)
  | serialFrame (p : Nat) (f : SerialFrame)
  | portUnmuteStart (p : Nat)
  | unmuteTimeout (p : Nat)
  | portClockFault (p cause : Nat)
  /-- `edges`: for each house sample since the last of these two commands, FCLK's edge less its instant in ns, or none; the same below -/
  | fclkLost (edges : List (Option Int))
  | fclkRestored (edges : List (Option Int))
  | smaskCommit (m : Master) (p : Nat)
  | smaskApply (p : Nat)
  | linkTestDone (p : Nat)
  | aes3Frame (r : Nat) (zPreamble : Bool) (a b : AesSub)
  | aes3Lock (r rate : Nat)
  /-- `absent`: the frame periods that have passed without a frame -/
  | aes3Unlock (r absent : Nat)
  | aes3CsBlock (r sub : Nat)
  | csGo (m : Master) (t : Nat)
  | aesTxCsLoad (t : Nat)
  | streamConfigWrite (m : Master) (tx : Bool) (s : Nat) (v : Word)
  /-- `twin`: another packet accepted in the same cycle (R201) -/
  | streamPacketRx (p : RtpPacket) (twin : Option RtpPacket)
  | streamPathLost (s net : Nat)
  | streamPacketTx (s q : Nat)
  | stewardPacket (port : Nat) (vlan : Option Nat) (p : StewPacket)
  | arpRefresh
  | netLink (port : Nat) (up : Bool)
  | noticeSend
  /-- `dev`: the hardware timestamp less local time, in units of 2⁻¹⁶ ns; the same below -/
  | ptpMessage (d port : Nat) (vlan : Option Nat) (dev : Int) (head : PtpHead) (msg : PtpMsg)
  | delayReqSend (d port : Nat) (dev : Int)
  | masterLost (d : Nat)
  | domainRevert
  | slewEnd
  /-- `pdm`: of the capture tick that boundary N closes -/
  | timeStep (pdm : PdmBits)
  /-- `phase`: local time at the last WCLK_IN edge less the nearest sample instant, in units of 2⁻¹⁶ ns; `periods`: how far the periods of
  WCLK_IN since the last of these two commands lay from the house sample period, in ppb -/
  | wclkLock (phase : Int) (periods : List Int)
  | wclkUnlock (periods : List Int)
  | ptpTimeWrite (m : Master) (word : Nat) (v : Word)
  | decSyncEdge
  | lpoSyncGo (m : Master)
  | settlingEnd (c : Nat)
  | lpoSwap (m : Master) (c : Nat) (v : Word)
  | lpoSwapEnd (c : Nat)
  | measReset (m : Master) (e : Nat)
  | measIr (m : Master) (e : Nat)
  | vinMeasure (mv : Nat)
  | channelStart (c : Nat)
  | cmRampDone (c : Nat)
  /-- `peaks`: the highest current of the two halves in successive PWM periods, the last of these commands' following, in mA; `dc`: a DC
  trip falls in the same cycle (R250) -/
  | driveShort (c : Nat) (peaks : List (Nat × Nat)) (dc : Bool)
  | driveDc (c : Nat)
  | driveRetry (c : Nat)
  | retryCountReset (c : Nat)
  | latched (m : Master) (c : Nat)
  | driveThermalSd
  | driveThermalRestart
  | driveSupply (ovp : Bool)
  | driveSupplyRestart (ovp : Bool)
  | drvCtlEnClear (m : Master)
  | twnEn (m : Master) (v : Bool)
  | bellWordTx
  | bellWordRx (w : BitVec 64)
  | partnerFailed
  | pathAlarm (courier lost : Bool)
  | partnerReturned
  | courierRx (frame : List Byte)
  | gateBlockRx (frame : List Byte)
  | sharedInputRx (frame : List Byte)
  | ledgerEntryRx (frame : List Byte)
  | snapshotChunkRx (frame : List Byte)
  | commitRx (frame : List Byte)
  | compareRx (frame : List Byte)
  | twinLane (lane : Nat) (up : Bool)
  | inStepReached
  | holdoffEnd
  | ledgerSubmit (m : Master)
  | ledgerRelayLost
  | epochTransfer
  | rstateTransfer
  | imageTransfer
  | firmwareTransfer
  | districtFrameRx (frame : List Byte)
  | districtMember (m : Nat)
  | dmcEnable (m : Master) (c : Nat) (v : Word)
  | sdramRequest (c granule requester : Nat) (op : DmcOp)
  | dmcIssue (c : Nat) (beats : List EccBeat)
  | readDataReturn (c : Nat) (beats : List EccBeat)
  | refresh (c rank : Nat)
  | mr4Poll (c rank : Nat) (mr4 : Nat)
  | rhWindowEnd (c : Nat)
  | dqsTracking (c : Nat)
  | scrubRead (c : Nat)
  | rankPowerDown (c rank : Nat)
  | timingSetChange (m : Master) (setB : Bool)
  | pcieTlp (t : Tlp)
  | spiTransaction (bytes : List Byte) (readWords : Nat)
  | crossbarGrant (target : Nat) (arrive : List BurstIn)
  | perstN
  | parityScan (bad : List Nat)
  | parityClear (m : Master)
  | otpProgram (m : Master) (target : Nat)
  | secRevoke (m : Master) (bits : Nat)
  | newChallenge (m : Master)
  | submit (m : Master) (level : Nat)
  | relock (m : Master)
  | por
  | brownout
  | resetN
  | railFault (rail : Nat)
  | thermalReset
  | thermalRelease
  | thermalWarn (temp : Int)
  | refclkLoss
  | failingHoldbackEnd
  | resetRelease (st : Straps)
  | firmwareResidenceFill (src : Option (List Byte))
  | wdogKick (m : Master) (v : Word)
  | watchdog
  | lockstepMismatch
  | oscFallback
  | oscRestored
  | rtcWrite (m : Master) (v : Word)
  | pwrReqNap (m : Master)
  | pwrReqHibernate (m : Master)
  | wake
  | rtcAlarm
  | napTimer
  | napWakeResume (good : Bool)
  | quarterGate (q : Nat)
  | quarterWake (q : Nat) (late : Bool)
  | evtRecordWrite
  | evtTailWrite (m : Master) (v : Word)
  | evtEnable (m : Master) (irq0 : Bool)
  | abortJob (m : Master) (id : Word) (race : Bool)
  | abortWarden (m : Master) (id : Word)
  | abortStream (m : Master) (id : Word)
  | abortFlow (m : Master) (id : Word)
  | abortQuarter (m : Master) (id : Word)
  | abortSdramFlow (m : Master) (id : Word)
  | closure (m : Master)
  | loadDone
  | epochEstablished
  | needFirmwareCourier
  | wclkTimeAdopt
  | lowPowerEntryDone
  | jtagAccess (off : Nat) (write : Option Word)
  deriving DecidableEq, Repr

end Sys2Proof
end

