-- ==== Sys2Proof/Decode.lean ====
section
/-! DEFINITION. The command that a word spells. The command table gives no command any bits: the device has no instruction
decoder, and what comes to it from outside comes as an access, a frame or an event. -/

namespace Sys2Proof

/-- No word spells a command. -/
def decodeTableWord (_nbits _w : Nat) : Option Instr := none

end Sys2Proof
end

