-- ==== Sys2Proof/Config.lean ====
section
/-! DEFINITION. What an implementation fixes, and the values the spec leaves open. The constants without a body are free:
nothing in Lean can evaluate them, so a statement that holds holds whatever they are. -/

namespace Sys2Proof.Config

/-- Sign and payload bits of a NaN result (IEEE 754 leaves them open; R3 names no choice). Log entry 1. -/
opaque nanBits : F32 → F32 → F32 → F32

/-- A sample of the ASRC Bridge's output (R172 bounds its quality and gives no arithmetic): free in the input samples assigned to
its house index and before, the input samples that have arrived since, the ratio estimate and the output phase. Log entry 2. -/
opaque asrcSample : List F32 → List F32 → Nat → Nat → F32

/-- A 384 kHz sample of the H→D Bridge (R170 gives no arithmetic): free in the house samples around the instant it stands for, and
in its place between two of them. Log entry 2. -/
opaque driveSample : List F32 → Nat → F32

/-- The 9-bit duty that the noise-shaped quantiser of a Drive channel sets for D sample i and a value m (R239 gives its order and no
coefficients). Log entry 185. -/
opaque duty : Nat → Nat → F32 → BitVec 9

/-- The 32-byte nonce of the n-th debug challenge (R322, the device's random source). Log entry 3. -/
opaque nonce : Nat → BitVec 256

/-- COMMIT_RESULT of a duplicate frame: R62 gives no code for it. Log entry 7. -/
opaque commitDup : Nat → BitVec 2

/-- A Warden's cycle, time or instruction counter read while its DET bit is 0 (R63 says only what it reads under DET): free in the
Warden, the counter and the number of the read. Log entry 172. -/
opaque wardenCounter : Nat → Nat → Nat → Word

/-- The width of the PCIe link, as the exponent of 1, 2 or 4 lanes (R312): what the link partner offers settles it. Log entry 205. -/
opaque pcieWidth : Fin 3

/-- A byte of the boot ROM (the spec gives what the ROM does and not its contents). Log entry 8. -/
opaque romByte : Nat → Byte

/-- The silicon revision code of SYS_ID (R355, Fixed). Log entry 4. -/
def revision : Nat := 0

end Sys2Proof.Config
end

