-- ==== Sys2Proof/Machine/NMap.lean ====
section
/-! DEFINITION. Sparse maps from numbers: lists of key and value pairs with keys strictly rising and no entry equal to what
an unlisted key reads as. Every register file, table window and memory of the model is one. -/

namespace Sys2Proof.Machine

/-- What key `k` reads as; `d` gives what an unlisted key reads as. -/
def mget {α : Type} (d : Nat → α) : NMap α → Nat → α
  | [], k => d k
  | (j, v) :: m, k => if k = j then v else if k < j then d k else mget d m k

/-- The map with key `k` reading `v`. Writing what the unlisted key reads as removes the entry. -/
def mset {α : Type} [DecidableEq α] (d : Nat → α) : NMap α → Nat → α → NMap α
  | [], k, v => if v = d k then [] else [(k, v)]
  | (j, w) :: m, k, v =>
    if k = j then (if v = d k then m else (j, v) :: m)
    else if k < j then (if v = d k then (j, w) :: m else (k, v) :: (j, w) :: m)
    else (j, w) :: mset d m k v

/-- Every key of the map is greater than `k`. -/
def keysAbove {α : Type} (k : Nat) (m : NMap α) : Bool := m.all (fun p => decide (k < p.1))

/-- The canonical form: keys strictly rising, no entry equal to what the unlisted key reads as. -/
def mwf {α : Type} [DecidableEq α] (d : Nat → α) : NMap α → Bool
  | [] => true
  | (k, v) :: m => keysAbove k m && decide (v ≠ d k) && mwf d m

/-- The map without the keys for which `p` does not hold. -/
def mkeep {α : Type} (p : Nat → Bool) (m : NMap α) : NMap α := m.filter (fun e => p e.1)

/-- The first `n` keys from `k` on, written in turn. -/
def msetList {α : Type} [DecidableEq α] (d : Nat → α) (m : NMap α) (k : Nat) : List α → NMap α
  | [] => m
  | v :: vs => msetList d (mset d m k v) (k + 1) vs

/-- `n` keys from `k` on. -/
def mgetList {α : Type} (d : Nat → α) (m : NMap α) (k n : Nat) : List α :=
  (List.range n).map (fun i => mget d m (k + i))

/-- Bytes, unlisted reads 0. -/
def bget (m : NMap Byte) (k : Nat) : Byte := mget (fun _ => 0) m k
def bset (m : NMap Byte) (k : Nat) (v : Byte) : NMap Byte := mset (fun _ => 0) m k v

/-- A little-endian value of `n` bytes. -/
def leNat : List Byte → Nat
  | [] => 0
  | b :: bs => b.toNat + 256 * leNat bs

/-- The `n` little-endian bytes of a value. -/
def leBytes : Nat → Nat → List Byte
  | 0, _ => []
  | n + 1, v => BitVec.ofNat 8 v :: leBytes n (v / 256)

/-- A big-endian value. -/
def beNat (bs : List Byte) : Nat := bs.foldl (fun a b => 256 * a + b.toNat) 0

def beBytes (n v : Nat) : List Byte := (leBytes n v).reverse

/-- Bits lo to hi of a number. -/
def bitsOf (v hi lo : Nat) : Nat := v / 2 ^ lo % 2 ^ (hi + 1 - lo)

/-- Two's complement reading of an n-bit value. -/
def signedOf (n v : Nat) : Int :=
  let u := v % 2 ^ n
  if u < 2 ^ (n - 1) then (u : Int) else (u : Int) - (2 ^ n : Nat)

/-- The n-bit two's complement of an integer. -/
def toSigned (n : Nat) (v : Int) : Nat := (v % ((2 ^ n : Nat) : Int)).toNat

/-- A field placed in a word: bits lo to hi of `w` become the low bits of `v`. -/
def putBits (w : Word) (hi lo v : Nat) : Word :=
  let m : Word := BitVec.ofNat 32 (2 ^ (hi + 1) - 2 ^ lo)
  (w &&& ~~~ m) ||| (BitVec.ofNat 32 (v * 2 ^ lo) &&& m)

/-- Bits lo to hi of a word. -/
def getBits (w : Word) (hi lo : Nat) : Nat := bitsOf w.toNat hi lo

end Sys2Proof.Machine
end

