-- ==== Sys2Proof/Machine/Float.lean ====
section
/-! DEFINITION. IEEE 754 binary32 with round-to-nearest-even and subnormals kept (R3), and the correctly rounded values of
real expressions that R393 asks for. A finite binary32 is an integer multiple of 2⁻¹⁴⁹, so every operation is done exactly on
integers and rounded once. -/

namespace Sys2Proof.Machine

def fzero : F32 := 0
def fone : F32 := 0x3F800000
def fhalf : F32 := 0x3F000000
def f2 : F32 := 0x40000000
def f16 : F32 := 0x41800000
def f90 : F32 := 0x42B40000
def f180 : F32 := 0x43340000
def f360 : F32 := 0x43B40000
def f4096 : F32 := 0x45800000
/-- The binary32 nearest 0.01 (R393). -/
def f001 : F32 := 0x3C23D70A
def finf (neg : Bool) : F32 := if neg then 0xFF800000 else 0x7F800000

def fneg (a : F32) : F32 := a ^^^ 0x80000000
def fabs (a : F32) : F32 := a &&& 0x7FFFFFFF
def fsign (a : F32) : Bool := a.msb
def fexp (a : F32) : Nat := a.toNat / 2 ^ 23 % 256
def ffrac (a : F32) : Nat := a.toNat % 2 ^ 23
def isNaN (a : F32) : Bool := fexp a == 255 && ffrac a != 0
def isInf (a : F32) : Bool := fexp a == 255 && ffrac a == 0
def isFin (a : F32) : Bool := fexp a != 255
def isZero (a : F32) : Bool := fabs a == 0

/-- A quiet NaN with free sign and payload (log entry 1). -/
def nanOf (a b c : F32) : F32 := 0x7FC00000 ||| (Config.nanBits a b c &&& 0x803FFFFF)

/-- The magnitude in units of 2⁻¹⁴⁹; infinity counts as 2¹²⁸. -/
def fmag (a : F32) : Nat :=
  let e := fexp a
  if e = 0 then ffrac a else if e = 255 then 2 ^ 277 else (2 ^ 23 + ffrac a) * 2 ^ (e - 1)

/-- The value in units of 2⁻¹⁴⁹. -/
def fval (a : F32) : Int := if fsign a then -(fmag a : Int) else fmag a

/-- The binary32 nearest to ±m·2^e, ties to even. -/
def roundMag (neg : Bool) (m : Nat) (e : Int) : F32 :=
  let s : F32 := if neg then 0x80000000 else 0
  if m = 0 then s
  else
    let top : Int := (m.log2 : Int) + 1 + e
    let q : Int := max (top - 24) (-149)
    let r : Nat :=
      if q ≤ e then m * 2 ^ (e - q).toNat
      else
        let sh := (q - e).toNat
        let t := m / 2 ^ sh
        let rem := m % 2 ^ sh
        let half := 2 ^ (sh - 1)
        if half < rem ∨ (rem = half ∧ t % 2 = 1) then t + 1 else t
    let bits : Int := if r < 2 ^ 23 then r else (q + 149) * 2 ^ 23 + r
    if 255 * 2 ^ 23 ≤ bits then finf neg else s ||| BitVec.ofNat 32 bits.toNat

/-- The binary32 nearest to v·2^e; an exact zero takes the sign given. -/
def roundInt (zeroNeg : Bool) (v : Int) (e : Int) : F32 :=
  if v = 0 then (if zeroNeg then 0x80000000 else 0) else roundMag (decide (v < 0)) v.natAbs e

/-- The binary32 nearest to n / d. -/
def roundRatio (n : Int) (d : Nat) : F32 :=
  let k := 400 + (d.log2 + 1)
  let a := n.natAbs * 2 ^ k
  roundMag (decide (n < 0)) (2 * (a / d) + (if a % d = 0 then 0 else 1)) (-(k : Int) - 1)

/-- The binary32 of an integer (conversions round to nearest even, R3). -/
def fofInt (v : Int) : F32 := roundInt false v 0
def fofNat (v : Nat) : F32 := roundInt false v 0

def fadd (a b : F32) : F32 :=
  if isNaN a || isNaN b then nanOf a b 0
  else if isInf a then (if isInf b && fsign a != fsign b then nanOf a b 0 else a)
  else if isInf b then b
  else roundInt (fsign a && fsign b) (fval a + fval b) (-149)

def fsub (a b : F32) : F32 := fadd a (fneg b)

def fmul (a b : F32) : F32 :=
  let s := fsign a != fsign b
  if isNaN a || isNaN b then nanOf a b 0
  else if isInf a || isInf b then (if isZero a || isZero b then nanOf a b 0 else finf s)
  else roundInt s (fval a * fval b) (-298)

/-- One fused operation with a single rounding (R3). -/
def ffma (a b c : F32) : F32 :=
  let s := fsign a != fsign b
  if isNaN a || isNaN b || isNaN c then nanOf a b c
  else if isInf a || isInf b then
    (if isZero a || isZero b then nanOf a b c
     else if isInf c && fsign c != s then nanOf a b c else finf s)
  else if isInf c then c
  else roundInt (s && fsign c) (fval a * fval b + fval c * 2 ^ 149) (-298)

def fdiv (a b : F32) : F32 :=
  let s := fsign a != fsign b
  if isNaN a || isNaN b then nanOf a b 0
  else if isInf a then (if isInf b then nanOf a b 0 else finf s)
  else if isInf b then (if s then 0x80000000 else 0)
  else if isZero b then (if isZero a then nanOf a b 0 else finf s)
  else if isZero a then (if s then 0x80000000 else 0)
  else
    let n := fmag a * 2 ^ 400
    let d := fmag b
    roundMag s (2 * (n / d) + (if n % d = 0 then 0 else 1)) (-401)

/-- The integer square root, one bit at a time. -/
def isqrtGo (n : Nat) : Nat → Nat → Nat
  | 0, r => r
  | i + 1, r => let t := r + 2 ^ i; isqrtGo n i (if t * t ≤ n then t else r)

def isqrt (n : Nat) : Nat := isqrtGo n (n.log2 / 2 + 1) 0

def fsqrt (a : F32) : F32 :=
  if isNaN a then nanOf a 0 0
  else if isZero a then a
  else if fsign a then nanOf a 0 0
  else if isInf a then a
  else
    let n := fmag a * 2 ^ 301
    let r := isqrt n
    roundMag false (2 * r + (if r * r = n then 0 else 1)) (-226)

/-- Comparisons: false when an operand is NaN. -/
def flt (a b : F32) : Bool := !isNaN a && !isNaN b && decide (fval a < fval b)
def fle (a b : F32) : Bool := !isNaN a && !isNaN b && decide (fval a ≤ fval b)
def fgt (a b : F32) : Bool := flt b a
def fge (a b : F32) : Bool := fle b a
def feq (a b : F32) : Bool := !isNaN a && !isNaN b && decide (fval a = fval b)
/-- Negative as R393 has it: compares less than 0.0. -/
def fnegative (a : F32) : Bool := flt a 0
def fmaxv (a b : F32) : F32 := if flt a b then b else a
def fminv (a b : F32) : F32 := if flt b a then b else a

/-- The largest integer not above a finite value. -/
def ffloor (a : F32) : Int := fval a / (2 ^ 149 : Int)

/-- π in units of 2⁻⁶⁰⁰, rounded down. -/
def piFix : Nat := 13036087627152999135228793149325883706411451860641517059512692589349356927284956232122985947124868324260373329126004229970251138265841936145774751301626362401504686637351871636910347

/-- Terms of the sine series of y (units of 2⁻⁶⁰⁰, 0 ≤ y ≤ π/2) from the k-th on, with alternating signs. -/
def sinSeries (y2 : Nat) : Nat → Nat → Nat → Int
  | 0, _, _ => 0
  | f + 1, k, t => (t : Int) - sinSeries y2 f (k + 1) (t * y2 / 2 ^ 600 / ((2 * k + 2) * (2 * k + 3)))

/-- sin of n/d degrees for 0 ≤ n/d ≤ 90, in units of 2⁻⁶⁰⁰. -/
def sinFix (n d : Nat) : Nat :=
  let y := piFix * n / (180 * d)
  (sinSeries (y * y / 2 ^ 600) 80 0 y).toNat

/-- sin of n/d degrees as sign and magnitude in units of 2⁻⁶⁰⁰; exact where the sine is rational. -/
def sinDeg (n : Int) (d : Nat) : Bool × Nat :=
  let m := (n % (360 * d : Nat)).toNat
  let neg := decide (180 * d < m)
  let m1 := if 180 * d ≤ m then m - 180 * d else m
  let m2 := if 90 * d < m1 then 180 * d - m1 else m1
  let v := if m2 = 0 then 0 else if m2 = 30 * d then 2 ^ 599 else if m2 = 90 * d then 2 ^ 600 else sinFix m2 d
  (neg, v)

/-- sin and cos of a rational number of degrees, in units of 2⁻⁶⁰⁰. -/
def sinQ (n : Int) (d : Nat) : Int := let r := sinDeg n d; if r.1 then -(r.2 : Int) else r.2
def cosQ (n : Int) (d : Nat) : Int := sinQ (n + 90 * d) d

/-- The binary32 nearest to a value in units of 2⁻⁶⁰⁰. -/
def roundFix (v : Int) : F32 := roundInt false v (-600)

/-- sind(a) and cosd(a) of R49. sind(±0.0) is ±0.0; every other exact zero is +0.0 (log entry 5). -/
def sind (a : F32) : F32 :=
  if isFin a then (if isZero a then a else roundFix (sinQ (fval a) (2 ^ 149))) else nanOf a 0 0
def cosd (a : F32) : F32 :=
  if isFin a then roundFix (cosQ (fval a) (2 ^ 149)) else nanOf a 0 0

/-- Terms of the exponential series of y (units of 2⁻⁶⁰⁰) from the k-th on. -/
def expSeries (y : Nat) : Nat → Nat → Nat → Nat
  | 0, _, _ => 0
  | f + 1, k, t => t + expSeries y f (k + 1) (t * y / 2 ^ 600 / (k + 1))

/-- n squarings in units of 2⁻⁶⁰⁰. -/
def sqN : Nat → Nat → Nat
  | 0, v => v
  | n + 1, v => sqN n (v * v / 2 ^ 600)

/-- exp(−n/d) in units of 2⁻⁶⁰⁰, through 1 / exp(n/(d·2^s)) squared s times. -/
def expNegFix (n d : Nat) : Nat :=
  let s := (n / d + 1).log2 + 1
  let y := n * 2 ^ 600 / (d * 2 ^ s)
  sqN s (2 ^ 1200 / expSeries y 120 0 (2 ^ 600))

end Sys2Proof.Machine
end

