-- ==== Sys2Proof/Machine/Regs.lean ====
section
/-! DEFINITION. The register map of the CL9512 (R355, file 21): every register's BAR0 offset by name, and one row per
register with its fields' access codes (R6), its reset word (R356, R357) and when a write takes effect. -/

namespace Sys2Proof.Machine

/-- The access code of a field (R6). `wos` is a write-only self-clearing field that secure masters alone write (SOFT_RESET,
SEC_PROG_CMD.GO). -/
inductive Acc where
  | rw | ro | wo | wos | w1c | rc | rws | ros
  deriving DecidableEq, Repr

/-- One field of a register: its access code and its bits. -/
structure RField where
  acc : Acc
  hi  : Nat
  lo  : Nat
  deriving DecidableEq, Repr

/-- One register, or one array of registers: word (i, j) stands at base + s1·i + s2·j. `late`: a write takes effect at
the next tick boundary (R11). -/
structure RegRow where
  base   : Nat
  n1     : Nat
  s1     : Nat
  n2     : Nat
  s2     : Nat
  fields : List RField
  reset  : Nat
  late   : Bool
  deriving DecidableEq, Repr

namespace Off

def SYS_ID : Nat := 0x000000 -- file 21 R355
def SYS_CAPS : Nat := 0x000004 -- file 21 R355
def SYS_CTL : Nat := 0x000010 -- file 18 R307 R334 R16
def SYS_STAT : Nat := 0x000014 -- file 21 R376 (Sampled)
def SYS_RESET_CAUSE : Nat := 0x000018 -- file 19 R333 (Kept)
def SYS_PWR_REQ : Nat := 0x000020 -- file 19 R331
def SYS_PWR_STATE : Nat := 0x000024 -- file 19 R329
def SYS_HOST_TRUST : Nat := 0x000028 -- file 18 R319
def SYS_UNIT_HEALTH : Nat := 0x000030 -- file 01 R21 R22
def SYS_DISTRICT_HEALTH : Nat := 0x000034 -- file 01 R21 R22
def SYS_TICK_LO : Nat := 0x000040 -- file 01 R8
def SYS_TICK_HI : Nat := 0x000044 -- file 01 R8
def SYS_TICK_PHASE : Nat := 0x000048 -- file 01 R8
def SYS_TICK_SKIP : Nat := 0x00004C -- file 01 R8
def SYS_ABORT_CMD : Nat := 0x000060 -- file 20 R352
def SYS_ABORT_ID : Nat := 0x000064 -- file 20 R352
def SYS_ABORT_STAT : Nat := 0x000068 -- file 20 R352
def SYS_PARITY_STAT : Nat := 0x000080 -- file 18 R317
def SYS_PARITY_ADDR : Nat := 0x000084 -- file 18 R317
def SYS_PARITY_ACT : Nat := 0x000088 -- file 18 R318
def LMP_RTC_SEC_LO : Nat := 0x010000 -- file 19 R327 (Kept)
def LMP_RTC_SEC_HI : Nat := 0x010004 -- file 19 R327 (Kept)
def LMP_RTC_FRAC : Nat := 0x010008 -- file 19 R327 (Kept)
def LMP_RTC_ALARM_LO : Nat := 0x010010 -- file 19 R330 (Kept)
def LMP_RTC_ALARM_HI : Nat := 0x010014 -- file 19 R330 (Kept)
def LMP_NAP_TIMER : Nat := 0x010018 -- file 19 R330 (Kept)
def LMP_WAKE_STAT : Nat := 0x010024 -- file 19 R330 (Kept)
def LMP_WDOG_CFG : Nat := 0x010030 -- file 19 R328
def LMP_WDOG_KICK : Nat := 0x010034 -- file 19 R328
def LMP_OSC : Nat := 0x010040 -- file 19 R326 (Kept)
def SEC_STAT : Nat := 0x020000 -- file 18 R320 (OTP)
def SEC_REVOKE_R : Nat := 0x020004 -- file 18 R320 (OTP)
def SEC_PROG_CMD : Nat := 0x020008 -- file 18 R320
def SEC_UID (i : Nat) : Nat := 0x020010 + 0x4 * i -- file 18 R320 (OTP)
def SEC_DENIED_CNT : Nat := 0x020020 -- file 18 R319
def SEC_KEYHASH (i j : Nat) : Nat := 0x020100 + 0x40 * i + 0x4 * j -- file 18 R320 (OTP)
def SEC_PROG_DATA (i : Nat) : Nat := 0x020200 + 0x4 * i -- file 18 R320
def XBR_ERR_INFO : Nat := 0x030000 -- file 18 R308
def XBR_ERR_ADDR_LO : Nat := 0x030004 -- file 18 R308
def XBR_ERR_ADDR_HI : Nat := 0x030008 -- file 18 R308
def XBR_DECODE_CNT : Nat := 0x030010 -- file 18 R308
def XBR_ACCESS_CNT : Nat := 0x030014 -- file 18 R314
def XBR_ABANDON_CNT : Nat := 0x030018 -- file 18 R310
def XBR_OB_BASE_LO : Nat := 0x030020 -- file 18 R306
def XBR_OB_BASE_HI : Nat := 0x030024 -- file 18 R306
def ICX_CTL : Nat := 0x040000 -- file 09 R144
def ICX_STAT : Nat := 0x040004 -- file 09 R136
def ICX_LOAD : Nat := 0x040008 -- file 09 R144
def ICX_CANCEL : Nat := 0x040010 -- file 09 R156
def ICX_MIGRATE : Nat := 0x040014 -- file 09 R157
def ICX_SPARE_MAP : Nat := 0x040018 -- file 09 R155
def ICX_FENCE : Nat := 0x04001C -- file 09 R150 R154
def ICX_DUP_CNT : Nat := 0x040020 -- file 09 R145
def ICX_LATE_CNT : Nat := 0x040024 -- file 09 R148
def ICX_FENCED : Nat := 0x040028 -- file 09 R151
def ICX_SPARE_USE : Nat := 0x04002C -- file 09 R151
def ICX_FINISH : Nat := 0x040030 -- file 09 R146
def ICX_FINISH_MAX : Nat := 0x040034 -- file 09 R146
def ICX_QHEALTH (i : Nat) : Nat := 0x040040 + 0x4 * i -- file 01 R22
def ICX_FLOW (i : Nat) : Nat := 0x040800 + 0x4 * i -- file 09 R149
def SQ_HEALTH (i : Nat) : Nat := 0x050000 + 0x400 * i -- file 01 R21
def SQ_WDOG (i : Nat) : Nat := 0x050004 + 0x400 * i -- file 09 R150
def SQ_JOB (i : Nat) : Nat := 0x050008 + 0x400 * i -- file 09 R142
def SQ_BUSY (i : Nat) : Nat := 0x05000C + 0x400 * i -- file 09 R142
def OBJ_CTL : Nat := 0x060000 -- file 03 R53
def OBJ_UDP_CFG : Nat := 0x060004 -- file 03 R53
def OBJ_MBOX_POST : Nat := 0x060010 -- file 03 R54
def OBJ_MBOX_STAT : Nat := 0x060014 -- file 03 R54
def OBJ_PENDING : Nat := 0x060018 -- file 03 R56
def OBJ_LATE_CNT : Nat := 0x060020 -- file 03 R58
def OBJ_DROP_CNT : Nat := 0x060024 -- file 03 R56
def OBJ_DUP_CNT : Nat := 0x060028 -- file 03 R56
def GEO_VS_TOTAL : Nat := 0x080000 -- file 04 R78
def GEO_FALLBACK_CNT : Nat := 0x080010 -- file 04 R73
def GEO_SNAP_CNT : Nat := 0x080014 -- file 04 R74
def GEO_NOSTREET_CNT : Nat := 0x080018 -- file 04 R80
def GEO_WAVE_LOW_CNT : Nat := 0x08001C -- file 05 R88
def GEO_WAVE_HIGH_CNT : Nat := 0x080020 -- file 05 R88
def GEO_WAVE_NONE_CNT : Nat := 0x080024 -- file 05 R89
def GEO_HULL_PAIRS : Nat := 0x080028 -- file 05 R85
def STR_STAT : Nat := 0x090000 -- file 06 R99
def STR_LANES : Nat := 0x090004 -- file 06 R102
def STR_REACH_CNT : Nat := 0x090010 -- file 06 R104
def STR_XFADE_CNT : Nat := 0x090014 -- file 06 R107
def STR_SLEW_CNT : Nat := 0x090018 -- file 06 R106
def STR_LANE_ERR_CNT : Nat := 0x09001C -- file 06 R102
def RCF_STAT : Nat := 0x0A0000 -- file 07 R122
def RCF_POOL : Nat := 0x0A0004 -- file 07 R109
def RCF_NEAR_USED : Nat := 0x0A0008 -- file 07 R113
def RCF_REFUSE_CNT : Nat := 0x0A0010 -- file 07 R124
def RCF_TRUNC_CNT : Nat := 0x0A0014 -- file 07 R114
def RCF_F_CTL (i : Nat) : Nat := 0x0A1000 + 0x20 * i -- file 07 R122
def RCF_F_LEN_A (i : Nat) : Nat := 0x0A1004 + 0x20 * i -- file 07 R109
def RCF_F_NEAR_A (i : Nat) : Nat := 0x0A1008 + 0x20 * i -- file 07 R113
def RCF_F_FAR_A (i : Nat) : Nat := 0x0A100C + 0x20 * i -- file 07 R113
def RCF_F_LEN_B (i : Nat) : Nat := 0x0A1010 + 0x20 * i -- file 07 R109
def RCF_F_NEAR_B (i : Nat) : Nat := 0x0A1014 + 0x20 * i -- file 07 R113
def RCF_F_FAR_B (i : Nat) : Nat := 0x0A1018 + 0x20 * i -- file 07 R113
def RCF_F_XHIST (i : Nat) : Nat := 0x0A101C + 0x20 * i -- file 07 R114
def RCF_H_NEAR (i : Nat) : Nat := 0x0A5000 + 0x10 * i -- file 07 R125
def RCF_H_FAR (i : Nat) : Nat := 0x0A5004 + 0x10 * i -- file 07 R125
def RCF_H_CAP (i : Nat) : Nat := 0x0A5008 + 0x10 * i -- file 07 R125
def RCF_T_XHIST (i : Nat) : Nat := 0x0A5100 + 0x4 * i -- file 07 R125
def OUT_BQ_SEL : Nat := 0x0B0010 -- file 08 R130
def OUT_BQ_B0 : Nat := 0x0B0014 -- file 08 R130
def OUT_BQ_B1 : Nat := 0x0B0018 -- file 08 R130
def OUT_BQ_B2 : Nat := 0x0B001C -- file 08 R130
def OUT_BQ_A1 : Nat := 0x0B0020 -- file 08 R130
def OUT_BQ_A2 : Nat := 0x0B0024 -- file 08 R130
def OUT_BQ_CMT : Nat := 0x0B0028 -- file 08 R130
def OUT_CLIP_CNT : Nat := 0x0B0030 -- file 08 R133
def OUT_XO (i j : Nat) : Nat := 0x0B0100 + 0x40 * i + 0x4 * j -- file 08 R127
def OUT_F_CTL (i : Nat) : Nat := 0x0B4000 + 0x20 * i -- file 08 R127
def OUT_F_BQ_EN (i : Nat) : Nat := 0x0B4004 + 0x20 * i -- file 08 R129
def OUT_F_DELAY (i : Nat) : Nat := 0x0B4008 + 0x20 * i -- file 08 R131
def OUT_F_DBASE (i : Nat) : Nat := 0x0B400C + 0x20 * i -- file 08 R131
def OUT_F_TRIM (i : Nat) : Nat := 0x0B4010 + 0x20 * i -- file 08 R132
def OUT_F_SUBGAIN (i : Nat) : Nat := 0x0B4014 + 0x20 * i -- file 08 R127
def OUT_F_LIM_THR (i : Nat) : Nat := 0x0B4018 + 0x20 * i -- file 08 R133
def OUT_F_LIM_TIME (i : Nat) : Nat := 0x0B401C + 0x20 * i -- file 08 R133
def OUT_F_GR (i : Nat) : Nat := 0x0B8000 + 0x4 * i -- file 08 R133
def RBT_CTL : Nat := 0x0C0000 -- file 10 R165
def RBT_STAT : Nat := 0x0C0004 -- file 10 R164
def RBT_ZC_TMO_CNT : Nat := 0x0C0010 -- file 10 R165
def RBT_REFUSE_CNT : Nat := 0x0C0014 -- file 10 R166
def RBT_CONFLICT_CNT : Nat := 0x0C0018 -- file 10 R161
def RBT_MOVE_OLD : Nat := 0x0C0020 -- file 10 R167
def RBT_MOVE_NEW : Nat := 0x0C0024 -- file 10 R167
def RBT_MOVE_GAIN : Nat := 0x0C0028 -- file 10 R167
def RBT_MOVE_CMD : Nat := 0x0C002C -- file 10 R167
def RBT_ASRC_CFG (i : Nat) : Nat := 0x0C1000 + 0x8 * i -- file 10 R171
def RBT_ASRC_STAT (i : Nat) : Nat := 0x0C1004 + 0x8 * i -- file 10 R172
def RBT_ASRC_RATIO (i : Nat) : Nat := 0x0C1200 + 0x4 * i -- file 10 R171
def RBT_HB_COEF (i : Nat) : Nat := 0x0C1300 + 0x4 * i -- file 10 R169 (Fixed)
def PRT_CFG (i : Nat) : Nat := 0x0D0000 + 0x400 * i -- file 11 R177
def PRT_SMASK_PEND (i : Nat) : Nat := 0x0D0004 + 0x400 * i -- file 11 R182
def PRT_SMASK_COMMIT (i : Nat) : Nat := 0x0D0008 + 0x400 * i -- file 11 R182
def PRT_SMASK_AT (i : Nat) : Nat := 0x0D000C + 0x400 * i -- file 11 R182
def PRT_STAT (i : Nat) : Nat := 0x0D0010 + 0x400 * i -- file 11 R183
def PRT_SLIP_CNT (i : Nat) : Nat := 0x0D0014 + 0x400 * i -- file 11 R181
def PRT_LT_ERR (i : Nat) : Nat := 0x0D0018 + 0x400 * i -- file 11 R187
def PRT_FCLK_CTL : Nat := 0x0D4000 -- file 11 R179
def PRT_FCLK_STAT : Nat := 0x0D4004 -- file 11 R179
def PRT_GRP (i : Nat) : Nat := 0x0D4100 + 0x4 * i -- file 11 R186
def AES_RX_CFG (i : Nat) : Nat := 0x0D8000 + 0x100 * i -- file 11 R190
def AES_RX_STAT (i : Nat) : Nat := 0x0D8004 + 0x100 * i -- file 11 R188
def AES_RX_RATE (i : Nat) : Nat := 0x0D8008 + 0x100 * i -- file 11 R188
def AES_RX_ERR (i : Nat) : Nat := 0x0D800C + 0x100 * i -- file 11 R188
def AES_RX_CS_A (i j : Nat) : Nat := 0x0D8020 + 0x100 * i + 0x4 * j -- file 11 R189
def AES_RX_CS_B (i j : Nat) : Nat := 0x0D8038 + 0x100 * i + 0x4 * j -- file 11 R189
def AES_RX_U_A (i j : Nat) : Nat := 0x0D8060 + 0x100 * i + 0x4 * j -- file 11 R189
def AES_RX_U_B (i j : Nat) : Nat := 0x0D8078 + 0x100 * i + 0x4 * j -- file 11 R189
def AES_TX_CFG (i : Nat) : Nat := 0x0D8800 + 0x100 * i -- file 11 R191
def AES_TX_CS (i j : Nat) : Nat := 0x0D8820 + 0x100 * i + 0x4 * j -- file 11 R191
def LPO_CTL : Nat := 0x0E0000 -- file 14 R230
def LPO_SYNC : Nat := 0x0E0004 -- file 14 R230
def LPO_STAT : Nat := 0x0E0008 -- file 14 R230
def LPO_MEAS_BASE : Nat := 0x0E0010 -- file 14 R237
def LPO_MEAS_CMD : Nat := 0x0E0014 -- file 14 R238
def LPO_HB1_COEF (i : Nat) : Nat := 0x0E0100 + 0x4 * i -- file 14 R228 (Fixed)
def LPO_HB2_COEF (i : Nat) : Nat := 0x0E0140 + 0x4 * i -- file 14 R228 (Fixed)
def LPO_CH_CTL (i : Nat) : Nat := 0x0E1000 + 0x200 * i -- file 14 R231
def LPO_CH_LVL (i : Nat) : Nat := 0x0E1004 + 0x200 * i -- file 14 R232
def LPO_CH_HIGH (i : Nat) : Nat := 0x0E1008 + 0x200 * i -- file 14 R233
def LPO_CH_CLEAR (i : Nat) : Nat := 0x0E100C + 0x200 * i -- file 14 R233
def LPO_CH_LEVEL (i : Nat) : Nat := 0x0E1010 + 0x200 * i -- file 14 R232
def LPO_CH_TAP_A (i j : Nat) : Nat := 0x0E1040 + 0x200 * i + 0x4 * j -- file 14 R231 (tap 16 resets to 0x3F800000)
def LPO_CH_TAP_B (i j : Nat) : Nat := 0x0E1100 + 0x200 * i + 0x4 * j -- file 14 R231 (tap 16 resets to 0x3F800000)
def LPO_EST_CFG (i : Nat) : Nat := 0x0E3000 + 0x10 * i -- file 14 R234
def LPO_EST_FRAMES (i : Nat) : Nat := 0x0E3004 + 0x10 * i -- file 14 R235
def LPO_EST_SKIP (i : Nat) : Nat := 0x0E3008 + 0x10 * i -- file 14 R236
def NET_PORT_CFG (i : Nat) : Nat := 0x0F0000 + 0x40 * i -- file 12 R192
def NET_PORT_STAT (i : Nat) : Nat := 0x0F0004 + 0x40 * i -- file 12 R193
def NET_PORT_IP (i : Nat) : Nat := 0x0F0008 + 0x40 * i -- file 12 R193
def NET_PORT_PFX (i : Nat) : Nat := 0x0F000C + 0x40 * i -- file 12 R205
def NET_PORT_GW (i : Nat) : Nat := 0x0F0010 + 0x40 * i -- file 12 R205
def NET_PORT_MAC_LO (i : Nat) : Nat := 0x0F0014 + 0x40 * i -- file 12 R193 (OTP)
def NET_PORT_MAC_HI (i : Nat) : Nat := 0x0F0018 + 0x40 * i -- file 12 R193 (OTP)
def NET_CTL : Nat := 0x0F0200 -- file 12 R208
def NET_NOTICE_IP : Nat := 0x0F0210 -- file 12 R207
def NET_NOTICE_CFG : Nat := 0x0F0214 -- file 12 R207
def NET_NOTICE_STAT : Nat := 0x0F0218 -- file 12 R207
def NET_RX_CTL (i : Nat) : Nat := 0x0F1000 + 0x20 * i -- file 12 R195
def NET_RX_GROUP_IP (i : Nat) : Nat := 0x0F1004 + 0x20 * i -- file 12 R197
def NET_RX_PORT_PT (i : Nat) : Nat := 0x0F1008 + 0x20 * i -- file 12 R197
def NET_RX_SRC_IP (i : Nat) : Nat := 0x0F100C + 0x20 * i -- file 12 R197
def NET_RX_LOFS (i : Nat) : Nat := 0x0F1010 + 0x20 * i -- file 12 R198
def NET_RX_STAT (i : Nat) : Nat := 0x0F1014 + 0x20 * i -- file 12 R200
def NET_RX_LATE_CNT (i : Nat) : Nat := 0x0F1018 + 0x20 * i -- file 12 R198
def NET_TX_CTL (i : Nat) : Nat := 0x0F2000 + 0x20 * i -- file 12 R195
def NET_TX_DST_IP (i : Nat) : Nat := 0x0F2004 + 0x20 * i -- file 12 R203
def NET_TX_PORT_PT (i : Nat) : Nat := 0x0F2008 + 0x20 * i -- file 12 R203
def NET_TX_SSRC (i : Nat) : Nat := 0x0F200C + 0x20 * i -- file 12 R203
def NET_TX_QOS (i : Nat) : Nat := 0x0F2010 + 0x20 * i -- file 12 R203
def NET_TX_STAT (i : Nat) : Nat := 0x0F2014 + 0x20 * i -- file 12 R205
def NET_TX_PKTS (i : Nat) : Nat := 0x0F2018 + 0x20 * i -- file 12 R202
def PTP_TIME_SEC_LO : Nat := 0x100000 -- file 13 R210 (RW while VALID = 0)
def PTP_TIME_SEC_HI : Nat := 0x100004 -- file 13 R210
def PTP_TIME_NS : Nat := 0x100008 -- file 13 R210
def PTP_TIME_FRAC : Nat := 0x10000C -- file 13 R210
def PTP_SEL : Nat := 0x100010 -- file 13 R215
def PTP_STAT : Nat := 0x100014 -- file 13 R209
def PTP_SLEW_REM : Nat := 0x100018 -- file 13 R219
def PTP_MCLK_CFG : Nat := 0x10001C -- file 13 R224
def PTP_DOM_CFG (i : Nat) : Nat := 0x100020 + 0x20 * i -- file 13 R212
def PTP_DOM_SERVO (i : Nat) : Nat := 0x100024 + 0x20 * i -- file 13 R214
def PTP_DOM_OFFSET (i : Nat) : Nat := 0x100028 + 0x20 * i -- file 13 R213
def PTP_DOM_STAT (i : Nat) : Nat := 0x10002C + 0x20 * i -- file 13 R214
def PTP_DOM_GM_LO (i : Nat) : Nat := 0x100030 + 0x20 * i -- file 13 R212
def PTP_DOM_GM_HI (i : Nat) : Nat := 0x100034 + 0x20 * i -- file 13 R212
def PTP_STEP_THRESH : Nat := 0x100060 -- file 13 R218
def PTP_SLEW_MAX : Nat := 0x100064 -- file 13 R219
def PTP_ASYM_IN (i : Nat) : Nat := 0x100100 + 0x10 * i -- file 13 R211
def PTP_ASYM_EG (i : Nat) : Nat := 0x100104 + 0x10 * i -- file 13 R211
def TWN_CTL : Nat := 0x110000 -- file 16 R251
def TWN_CLAIM : Nat := 0x110004 -- file 16 R252
def TWN_HOLDOFF : Nat := 0x110008 -- file 16 R255
def TWN_BELL_TMO : Nat := 0x11000C -- file 16 R262
def TWN_COURIER_TMO : Nat := 0x110010 -- file 16 R262
def TWN_STAT : Nat := 0x110014 -- file 16 R254
def TWN_HEALTH_LO : Nat := 0x110018 -- file 16 R285
def TWN_HEALTH_HI : Nat := 0x11001C -- file 16 R285
def TWN_PARTNER_LO : Nat := 0x110020 -- file 16 R285
def TWN_PARTNER_HI : Nat := 0x110024 -- file 16 R285
def TWN_LEDGER_SEQ_LO : Nat := 0x110028 -- file 16 R279
def TWN_LEDGER_SEQ_HI : Nat := 0x11002C -- file 16 R279
def TWN_CMP_MISMATCH : Nat := 0x110030 -- file 16 R284
def TWN_CMP_TICK_LO : Nat := 0x110034 -- file 16 R284
def TWN_CMP_TICK_HI : Nat := 0x110038 -- file 16 R284
def TWN_LINK_ERR : Nat := 0x11003C -- file 16 R264
def TWN_LDG_TICK_LO : Nat := 0x110040 -- file 16 R276
def TWN_LDG_TICK_HI : Nat := 0x110044 -- file 16 R276
def TWN_LDG_CMD : Nat := 0x110048 -- file 16 R276
def TWN_LDG_ASSIGNED_LO : Nat := 0x11004C -- file 16 R276
def TWN_LDG_ASSIGNED_HI : Nat := 0x110050 -- file 16 R276
def TWN_OWN_PRT : Nat := 0x110060 -- file 16 R273
def TWN_OWN_ASRC_LO : Nat := 0x110064 -- file 16 R273
def TWN_OWN_ASRC_HI : Nat := 0x110068 -- file 16 R273
def TWN_OWN_LP : Nat := 0x11006C -- file 16 R273
def TWN_DST_CFG : Nat := 0x110080 -- file 16 R286
def TWN_DST_NET : Nat := 0x110084 -- file 16 R288
def TWN_DST_EXCLUDE : Nat := 0x110088 -- file 16 R289
def TWN_DST_LATE_CNT : Nat := 0x110090 -- file 16 R287
def TWN_DST_IP_A (i : Nat) : Nat := 0x1100C0 + 0x8 * i -- file 16 R288
def TWN_DST_IP_B (i : Nat) : Nat := 0x1100C4 + 0x8 * i -- file 16 R288
def TWN_DST_HOME (i : Nat) : Nat := 0x111000 + 0x4 * i -- file 16 R286
def TWN_LDG_WIN (i : Nat) : Nat := 0x112000 + 0x4 * i -- file 16 R276
def DRV_CTL : Nat := 0x120000 -- file 15 R247 R250
def DRV_STAT : Nat := 0x120004 -- file 15 R242 R249
def DRV_VIN : Nat := 0x120008 -- file 15 R240
def DRV_TEMP : Nat := 0x12000C -- file 15 R242
def DRV_SAG_CFG : Nat := 0x120010 -- file 15 R241
def DRV_RETRY : Nat := 0x120014 -- file 15 R248
def DRV_PWR : Nat := 0x120018 -- file 15 R242
def DRV_CH_CFG (i : Nat) : Nat := 0x120100 + 0x10 * i -- file 15 R244
def DRV_CH_STAT (i : Nat) : Nat := 0x120104 + 0x10 * i -- file 15 R248
def DRV_CH_CLIP (i : Nat) : Nat := 0x120108 + 0x10 * i -- file 15 R239
def DMC_CTL (i : Nat) : Nat := 0x130000 + 0x4000 * i -- file 17 R300
def DMC_PWR (i : Nat) : Nat := 0x130004 + 0x4000 * i -- file 17 R303
def DMC_WQ_WM (i : Nat) : Nat := 0x130008 + 0x4000 * i -- file 17 R294
def DMC_RH_TH (i : Nat) : Nat := 0x13000C + 0x4000 * i -- file 17 R297
def DMC_RH_DELAY (i : Nat) : Nat := 0x130010 + 0x4000 * i -- file 17 R298
def DMC_ECC_STAT (i : Nat) : Nat := 0x130014 + 0x4000 * i -- file 17 R301
def DMC_ECC_ADDR (i : Nat) : Nat := 0x130018 + 0x4000 * i -- file 17 R301
def DMC_SCRUB (i : Nat) : Nat := 0x13001C + 0x4000 * i -- file 17 R302
def DMC_STAT (i : Nat) : Nat := 0x130020 + 0x4000 * i -- file 17 R294
def DMC_THR (i : Nat) : Nat := 0x130024 + 0x4000 * i -- file 17 R297
def DMC_SIZE (i : Nat) : Nat := 0x130028 + 0x4000 * i -- file 17 R290
def DMC_TSET_A (i j : Nat) : Nat := 0x130100 + 0x4000 * i + 0x4 * j -- file 17 R300
def DMC_TSET_B (i j : Nat) : Nat := 0x130180 + 0x4000 * i + 0x4 * j -- file 17 R300
def WDN_CTL : Nat := 0x140000 -- file 03 R62
def WDN_STAT : Nat := 0x140004 -- file 03 R63
def WDN_MEM_ADDR : Nat := 0x140010 -- file 03 R62
def WDN_MEM_DATA : Nat := 0x140014 -- file 03 R62
def PWR_RAIL_STAT : Nat := 0x150000 -- file 19 R325 (Sensed)
def PWR_QGATE : Nat := 0x150010 -- file 19 R332
def PWR_TEMP : Nat := 0x150020 -- file 19 R333
def PWR_TEMP_CFG : Nat := 0x150024 -- file 19 R333
def DBG_CHAL (i : Nat) : Nat := 0x160000 + 0x4 * i -- file 18 R322
def DBG_CMD : Nat := 0x1600A0 -- file 18 R322
def DBG_STAT : Nat := 0x1600A4 -- file 18 R322
def DBG_RESP (i : Nat) : Nat := 0x160100 + 0x4 * i -- file 18 R322
def EVT_BASE_LO : Nat := 0x170000 -- file 20 R346
def EVT_BASE_HI : Nat := 0x170004 -- file 20 R346
def EVT_SIZE : Nat := 0x170008 -- file 20 R346
def EVT_HEAD : Nat := 0x17000C -- file 20 R346
def EVT_TAIL : Nat := 0x170010 -- file 20 R347
def EVT_CTL : Nat := 0x170014 -- file 20 R346
def EVT_STAT : Nat := 0x170018 -- file 20 R349
def EVT_LOST : Nat := 0x17001C -- file 20 R347
def EVT_MASK (i : Nat) : Nat := 0x170040 + 0x4 * i -- file 20 R348
def EVT_URG (i : Nat) : Nat := 0x170080 + 0x4 * i -- file 20 R349
def EVT_VEC (i : Nat) : Nat := 0x1700C0 + 0x4 * i -- file 20 R350
def DIV_APPLY_R : Nat := 0x180000 -- file 02 R40
def DIV_APPLY_TICK_LO : Nat := 0x180004 -- file 02 R40
def DIV_APPLY_TICK_HI : Nat := 0x180008 -- file 02 R40
def DIV_STAT : Nat := 0x18000C -- file 02 R40
def DIV_DETOUR_CFG : Nat := 0x180020 -- file 02 R43
def DIV_IMG_ADDR_LO : Nat := 0x180040 -- file 02 R31
def DIV_IMG_ADDR_HI : Nat := 0x180044 -- file 02 R31
def DIV_IMG_LEN : Nat := 0x180048 -- file 02 R31
def DIV_IMG_CMD : Nat := 0x18004C -- file 02 R31
def DIV_IMG_STAT : Nat := 0x180050 -- file 02 R31
def DIV_BUDGET : Nat := 0x180054 -- file 02 R35
def DIV_PLAN_ID_LO : Nat := 0x180060 -- file 02 R31
def DIV_PLAN_ID_HI : Nat := 0x180064 -- file 02 R31
def DIV_SDRAM_APER : Nat := 0x180070 -- file 02 R32

end Off

/-- The rows of the SYS block. -/
def rowsSys : List RegRow := [
  ⟨0x000000, 1, 0x100000, 1, 0x4, [⟨.ro, 31, 0⟩], 0x95120100, false⟩,
  ⟨0x000004, 1, 0x100000, 1, 0x4, [⟨.ro, 31, 0⟩], 0x20440C20, false⟩,
  ⟨0x000010, 1, 0x100000, 1, 0x4, [⟨.wos, 31, 31⟩, ⟨.rws, 1, 1⟩, ⟨.rws, 0, 0⟩], 0x0, false⟩,
  ⟨0x000014, 1, 0x100000, 1, 0x4, [⟨.ro, 2, 0⟩], 0x0, false⟩,
  ⟨0x000018, 1, 0x100000, 1, 0x4, [⟨.ro, 31, 28⟩, ⟨.ro, 27, 24⟩, ⟨.w1c, 10, 1⟩], 0x0, false⟩,
  ⟨0x000020, 1, 0x100000, 1, 0x4, [⟨.wo, 31, 31⟩, ⟨.ro, 30, 28⟩, ⟨.rws, 1, 0⟩], 0x0, false⟩,
  ⟨0x000024, 1, 0x100000, 1, 0x4, [⟨.ro, 31, 29⟩], 0x60000000, false⟩,
  ⟨0x000028, 1, 0x100000, 1, 0x4, [⟨.ro, 31, 31⟩, ⟨.rws, 2, 2⟩, ⟨.rws, 1, 1⟩, ⟨.rws, 0, 0⟩], 0x0, false⟩,
  ⟨0x000030, 1, 0x100000, 1, 0x4, [⟨.ro, 31, 0⟩], 0xFF, false⟩,
  ⟨0x000034, 1, 0x100000, 1, 0x4, [⟨.ro, 31, 0⟩], 0xFF, false⟩,
  ⟨0x000040, 1, 0x100000, 1, 0x4, [⟨.ro, 31, 0⟩], 0x0, false⟩,
  ⟨0x000044, 1, 0x100000, 1, 0x4, [⟨.ro, 31, 0⟩], 0x0, false⟩,
  ⟨0x000048, 1, 0x100000, 1, 0x4, [⟨.ro, 31, 24⟩, ⟨.ro, 19, 19⟩, ⟨.ro, 18, 0⟩], 0x0, false⟩,
  ⟨0x00004C, 1, 0x100000, 1, 0x4, [⟨.ro, 31, 0⟩], 0x0, false⟩,
  ⟨0x000060, 1, 0x100000, 1, 0x4, [⟨.wo, 31, 31⟩, ⟨.rw, 2, 0⟩], 0x0, false⟩,
  ⟨0x000064, 1, 0x100000, 1, 0x4, [⟨.rw, 31, 0⟩], 0x0, false⟩,
  ⟨0x000068, 1, 0x100000, 1, 0x4, [⟨.ro, 31, 31⟩, ⟨.ro, 30, 28⟩, ⟨.ro, 27, 24⟩, ⟨.ro, 23, 0⟩], 0x0, false⟩,
  ⟨0x000080, 1, 0x100000, 1, 0x4, [⟨.w1c, 31, 31⟩, ⟨.ro, 30, 30⟩, ⟨.ro, 15, 0⟩], 0x0, false⟩,
  ⟨0x000084, 1, 0x100000, 1, 0x4, [⟨.ro, 23, 0⟩], 0x0, false⟩,
  ⟨0x000088, 1, 0x100000, 1, 0x4, [⟨.rws, 1, 0⟩], 0x1, false⟩]

/-- The rows of the LMP block. -/
def rowsLmp : List RegRow := [
  ⟨0x010000, 1, 0x100000, 1, 0x4, [⟨.rws, 31, 0⟩], 0x0, false⟩,
  ⟨0x010004, 1, 0x100000, 1, 0x4, [⟨.rws, 31, 0⟩], 0x0, false⟩,
  ⟨0x010008, 1, 0x100000, 1, 0x4, [⟨.rws, 14, 0⟩], 0x0, false⟩,
  ⟨0x010010, 1, 0x100000, 1, 0x4, [⟨.rws, 31, 0⟩], 0x0, false⟩,
  ⟨0x010014, 1, 0x100000, 1, 0x4, [⟨.rws, 31, 0⟩], 0x0, false⟩,
  ⟨0x010018, 1, 0x100000, 1, 0x4, [⟨.rws, 31, 0⟩], 0x0, false⟩,
  ⟨0x010024, 1, 0x100000, 1, 0x4, [⟨.ro, 2, 0⟩], 0x0, false⟩,
  ⟨0x010030, 1, 0x100000, 1, 0x4, [⟨.rws, 31, 31⟩, ⟨.rws, 30, 30⟩, ⟨.rws, 15, 0⟩], 0xC00007D0, false⟩,
  ⟨0x010034, 1, 0x100000, 1, 0x4, [⟨.wo, 15, 0⟩], 0x0, false⟩,
  ⟨0x010040, 1, 0x100000, 1, 0x4, [⟨.ro, 31, 31⟩], 0x0, false⟩]

/-- The rows of the SEC block. -/
def rowsSec : List RegRow := [
  ⟨0x020000, 1, 0x100000, 1, 0x4, [⟨.ro, 31, 28⟩, ⟨.ro, 7, 0⟩], 0x0, false⟩,
  ⟨0x020004, 1, 0x100000, 1, 0x4, [⟨.rws, 3, 0⟩], 0x0, false⟩,
  ⟨0x020008, 1, 0x100000, 1, 0x4, [⟨.wos, 31, 31⟩, ⟨.ro, 30, 28⟩, ⟨.rws, 2, 0⟩], 0x0, false⟩,
  ⟨0x020010, 4, 0x4, 1, 0x4, [⟨.ro, 31, 0⟩], 0x0, false⟩,
  ⟨0x020020, 1, 0x100000, 1, 0x4, [⟨.rc, 31, 0⟩], 0x0, false⟩,
  ⟨0x020100, 4, 0x40, 12, 0x4, [⟨.ros, 31, 0⟩], 0x0, false⟩,
  ⟨0x020200, 12, 0x4, 1, 0x4, [⟨.rws, 31, 0⟩], 0x0, false⟩]

/-- The rows of the XBR block. -/
def rowsXbr : List RegRow := [
  ⟨0x030000, 1, 0x100000, 1, 0x4, [⟨.w1c, 31, 31⟩, ⟨.ro, 30, 30⟩, ⟨.ro, 19, 16⟩, ⟨.ro, 3, 0⟩], 0x0, false⟩,
  ⟨0x030004, 1, 0x100000, 1, 0x4, [⟨.ro, 31, 0⟩], 0x0, false⟩,
  ⟨0x030008, 1, 0x100000, 1, 0x4, [⟨.ro, 7, 0⟩], 0x0, false⟩,
  ⟨0x030010, 1, 0x100000, 1, 0x4, [⟨.rc, 31, 0⟩], 0x0, false⟩,
  ⟨0x030014, 1, 0x100000, 1, 0x4, [⟨.rc, 31, 0⟩], 0x0, false⟩,
  ⟨0x030018, 1, 0x100000, 1, 0x4, [⟨.rc, 31, 0⟩], 0x0, false⟩,
  ⟨0x030020, 1, 0x100000, 1, 0x4, [⟨.rws, 31, 0⟩], 0x0, false⟩,
  ⟨0x030024, 1, 0x100000, 1, 0x4, [⟨.rws, 31, 0⟩], 0x0, false⟩]

/-- The rows of the ICX block. -/
def rowsIcx : List RegRow := [
  ⟨0x040000, 1, 0x100000, 1, 0x4, [⟨.rw, 0, 0⟩], 0x0, false⟩,
  ⟨0x040004, 1, 0x100000, 1, 0x4, [⟨.ro, 31, 28⟩, ⟨.ro, 27, 22⟩, ⟨.ro, 21, 19⟩, ⟨.ro, 9, 0⟩], 0x0, false⟩,
  ⟨0x040008, 1, 0x100000, 1, 0x4, [⟨.ro, 25, 16⟩, ⟨.ro, 9, 0⟩], 0x0, false⟩,
  ⟨0x040010, 1, 0x100000, 1, 0x4, [⟨.wo, 31, 31⟩, ⟨.ro, 30, 28⟩, ⟨.rw, 11, 0⟩], 0x0, false⟩,
  ⟨0x040014, 1, 0x100000, 1, 0x4, [⟨.wo, 31, 31⟩, ⟨.rw, 17, 16⟩, ⟨.rw, 11, 0⟩], 0x0, false⟩,
  ⟨0x040018, 1, 0x100000, 1, 0x4, [⟨.rw, 31, 0⟩], 0x0, true⟩,
  ⟨0x04001C, 1, 0x100000, 1, 0x4, [⟨.wo, 31, 31⟩, ⟨.rw, 30, 29⟩, ⟨.rw, 4, 0⟩], 0x0, false⟩,
  ⟨0x040020, 1, 0x100000, 1, 0x4, [⟨.rc, 31, 0⟩], 0x0, false⟩,
  ⟨0x040024, 1, 0x100000, 1, 0x4, [⟨.rc, 31, 0⟩], 0x0, false⟩,
  ⟨0x040028, 1, 0x100000, 1, 0x4, [⟨.ro, 31, 0⟩], 0x0, false⟩,
  ⟨0x04002C, 1, 0x100000, 1, 0x4, [⟨.ro, 31, 0⟩], 0x0, false⟩,
  ⟨0x040030, 1, 0x100000, 1, 0x4, [⟨.ro, 18, 0⟩], 0x0, false⟩,
  ⟨0x040034, 1, 0x100000, 1, 0x4, [⟨.rc, 18, 0⟩], 0x0, false⟩,
  ⟨0x040040, 4, 0x4, 1, 0x4, [⟨.ro, 31, 0⟩], 0xFF, false⟩,
  ⟨0x040800, 256, 0x4, 1, 0x4, [⟨.rw, 31, 31⟩, ⟨.ro, 30, 30⟩, ⟨.ro, 6, 0⟩], 0x0, false⟩]

/-- The rows of the SQ block. -/
def rowsSq : List RegRow := [
  ⟨0x050000, 32, 0x400, 1, 0x4, [⟨.ro, 31, 0⟩], 0xFF, false⟩,
  ⟨0x050004, 32, 0x400, 1, 0x4, [⟨.rw, 3, 0⟩], 0x2, false⟩,
  ⟨0x050008, 32, 0x400, 1, 0x4, [⟨.ro, 31, 20⟩, ⟨.ro, 17, 0⟩], 0x0, false⟩,
  ⟨0x05000C, 32, 0x400, 1, 0x4, [⟨.ro, 18, 0⟩], 0x0, false⟩]

/-- The rows of the OBJ block. -/
def rowsObj : List RegRow := [
  ⟨0x060000, 1, 0x100000, 1, 0x4, [⟨.rw, 2, 0⟩], 0x0, false⟩,
  ⟨0x060004, 1, 0x100000, 1, 0x4, [⟨.rw, 19, 16⟩, ⟨.rw, 15, 0⟩], 0x0, false⟩,
  ⟨0x060010, 1, 0x100000, 1, 0x4, [⟨.wo, 31, 31⟩, ⟨.rw, 2, 0⟩], 0x0, false⟩,
  ⟨0x060014, 1, 0x100000, 1, 0x4, [⟨.ro, 31, 28⟩, ⟨.ro, 7, 0⟩], 0xFF, false⟩,
  ⟨0x060018, 1, 0x100000, 1, 0x4, [⟨.ro, 14, 0⟩], 0x0, false⟩,
  ⟨0x060020, 1, 0x100000, 1, 0x4, [⟨.rc, 31, 0⟩], 0x0, false⟩,
  ⟨0x060024, 1, 0x100000, 1, 0x4, [⟨.rc, 31, 0⟩], 0x0, false⟩,
  ⟨0x060028, 1, 0x100000, 1, 0x4, [⟨.rc, 31, 0⟩], 0x0, false⟩]

/-- The rows of the GEO block. -/
def rowsGeo : List RegRow := [
  ⟨0x080000, 1, 0x100000, 1, 0x4, [⟨.ro, 12, 0⟩], 0x0, false⟩,
  ⟨0x080010, 1, 0x100000, 1, 0x4, [⟨.rc, 31, 0⟩], 0x0, false⟩,
  ⟨0x080014, 1, 0x100000, 1, 0x4, [⟨.rc, 31, 0⟩], 0x0, false⟩,
  ⟨0x080018, 1, 0x100000, 1, 0x4, [⟨.rc, 31, 0⟩], 0x0, false⟩,
  ⟨0x08001C, 1, 0x100000, 1, 0x4, [⟨.rc, 31, 0⟩], 0x0, false⟩,
  ⟨0x080020, 1, 0x100000, 1, 0x4, [⟨.rc, 31, 0⟩], 0x0, false⟩,
  ⟨0x080024, 1, 0x100000, 1, 0x4, [⟨.rc, 31, 0⟩], 0x0, false⟩,
  ⟨0x080028, 1, 0x100000, 1, 0x4, [⟨.ro, 14, 0⟩], 0x0, false⟩]

/-- The rows of the STR block. -/
def rowsStr : List RegRow := [
  ⟨0x090000, 1, 0x100000, 1, 0x4, [⟨.ro, 17, 0⟩], 0x0, false⟩,
  ⟨0x090004, 1, 0x100000, 1, 0x4, [⟨.ro, 11, 0⟩], 0x0, false⟩,
  ⟨0x090010, 1, 0x100000, 1, 0x4, [⟨.rc, 31, 0⟩], 0x0, false⟩,
  ⟨0x090014, 1, 0x100000, 1, 0x4, [⟨.rc, 31, 0⟩], 0x0, false⟩,
  ⟨0x090018, 1, 0x100000, 1, 0x4, [⟨.rc, 31, 0⟩], 0x0, false⟩,
  ⟨0x09001C, 1, 0x100000, 1, 0x4, [⟨.rc, 31, 0⟩], 0x0, false⟩]

/-- The rows of the RCF block. -/
def rowsRcf : List RegRow := [
  ⟨0x0A0000, 1, 0x100000, 1, 0x4, [⟨.ro, 9, 0⟩], 0x0, false⟩,
  ⟨0x0A0004, 1, 0x100000, 1, 0x4, [⟨.ro, 22, 0⟩], 0x0, false⟩,
  ⟨0x0A0008, 1, 0x100000, 1, 0x4, [⟨.ro, 15, 0⟩], 0x0, false⟩,
  ⟨0x0A0010, 1, 0x100000, 1, 0x4, [⟨.rc, 31, 0⟩], 0x0, false⟩,
  ⟨0x0A0014, 1, 0x100000, 1, 0x4, [⟨.rc, 31, 0⟩], 0x0, false⟩,
  ⟨0x0A1000, 512, 0x20, 1, 0x4, [⟨.wo, 31, 31⟩, ⟨.ro, 30, 30⟩, ⟨.ro, 29, 29⟩, ⟨.rw, 21, 16⟩, ⟨.rw, 15, 0⟩], 0x0, true⟩,
  ⟨0x0A1004, 512, 0x20, 1, 0x4, [⟨.rw, 15, 0⟩], 0x0, true⟩,
  ⟨0x0A1008, 512, 0x20, 1, 0x4, [⟨.rw, 14, 0⟩], 0x0, true⟩,
  ⟨0x0A100C, 512, 0x20, 1, 0x4, [⟨.rw, 28, 0⟩], 0x0, true⟩,
  ⟨0x0A1010, 512, 0x20, 1, 0x4, [⟨.rw, 15, 0⟩], 0x0, true⟩,
  ⟨0x0A1014, 512, 0x20, 1, 0x4, [⟨.rw, 14, 0⟩], 0x0, true⟩,
  ⟨0x0A1018, 512, 0x20, 1, 0x4, [⟨.rw, 28, 0⟩], 0x0, true⟩,
  ⟨0x0A101C, 512, 0x20, 1, 0x4, [⟨.rw, 28, 0⟩], 0x0, true⟩,
  ⟨0x0A5000, 16, 0x10, 1, 0x4, [⟨.rw, 14, 0⟩], 0x0, true⟩,
  ⟨0x0A5004, 16, 0x10, 1, 0x4, [⟨.rw, 28, 0⟩], 0x0, true⟩,
  ⟨0x0A5008, 16, 0x10, 1, 0x4, [⟨.rw, 10, 0⟩], 0x0, true⟩,
  ⟨0x0A5100, 8, 0x4, 1, 0x4, [⟨.rw, 28, 0⟩], 0x0, true⟩]

/-- The rows of the OUT block. -/
def rowsOut : List RegRow := [
  ⟨0x0B0010, 1, 0x100000, 1, 0x4, [⟨.rw, 24, 16⟩, ⟨.rw, 3, 0⟩], 0x0, false⟩,
  ⟨0x0B0014, 1, 0x100000, 1, 0x4, [⟨.rw, 31, 0⟩], 0x3F800000, false⟩,
  ⟨0x0B0018, 1, 0x100000, 1, 0x4, [⟨.rw, 31, 0⟩], 0x0, false⟩,
  ⟨0x0B001C, 1, 0x100000, 1, 0x4, [⟨.rw, 31, 0⟩], 0x0, false⟩,
  ⟨0x0B0020, 1, 0x100000, 1, 0x4, [⟨.rw, 31, 0⟩], 0x0, false⟩,
  ⟨0x0B0024, 1, 0x100000, 1, 0x4, [⟨.rw, 31, 0⟩], 0x0, false⟩,
  ⟨0x0B0028, 1, 0x100000, 1, 0x4, [⟨.wo, 31, 31⟩], 0x0, false⟩,
  ⟨0x0B0030, 1, 0x100000, 1, 0x4, [⟨.rc, 31, 0⟩], 0x0, false⟩,
  ⟨0x0B0100, 8, 0x40, 10, 0x4, [⟨.rw, 31, 0⟩], 0x0, true⟩,
  ⟨0x0B4000, 512, 0x20, 1, 0x4, [⟨.rw, 19, 16⟩, ⟨.rw, 10, 4⟩, ⟨.rw, 1, 0⟩], 0x0, true⟩,
  ⟨0x0B4004, 512, 0x20, 1, 0x4, [⟨.rw, 15, 0⟩], 0x0, true⟩,
  ⟨0x0B4008, 512, 0x20, 1, 0x4, [⟨.rw, 20, 16⟩, ⟨.rw, 15, 0⟩], 0x0, true⟩,
  ⟨0x0B400C, 512, 0x20, 1, 0x4, [⟨.rw, 28, 0⟩], 0x0, true⟩,
  ⟨0x0B4010, 512, 0x20, 1, 0x4, [⟨.rw, 31, 0⟩], 0x3F800000, true⟩,
  ⟨0x0B4014, 512, 0x20, 1, 0x4, [⟨.rw, 31, 0⟩], 0x3F800000, true⟩,
  ⟨0x0B4018, 512, 0x20, 1, 0x4, [⟨.rw, 31, 0⟩], 0x3F800000, true⟩,
  ⟨0x0B401C, 512, 0x20, 1, 0x4, [⟨.rw, 31, 16⟩, ⟨.rw, 15, 0⟩], 0x64000A, true⟩,
  ⟨0x0B8000, 512, 0x4, 1, 0x4, [⟨.ro, 31, 0⟩], 0x3F800000, false⟩]

/-- The rows of the RBT block. -/
def rowsRbt : List RegRow := [
  ⟨0x0C0000, 1, 0x100000, 1, 0x4, [⟨.rw, 6, 0⟩], 0xA, true⟩,
  ⟨0x0C0004, 1, 0x100000, 1, 0x4, [⟨.ro, 29, 15⟩, ⟨.ro, 14, 0⟩], 0x0, false⟩,
  ⟨0x0C0010, 1, 0x100000, 1, 0x4, [⟨.rc, 31, 0⟩], 0x0, false⟩,
  ⟨0x0C0014, 1, 0x100000, 1, 0x4, [⟨.rc, 31, 0⟩], 0x0, false⟩,
  ⟨0x0C0018, 1, 0x100000, 1, 0x4, [⟨.rc, 31, 0⟩], 0x0, false⟩,
  ⟨0x0C0020, 1, 0x100000, 1, 0x4, [⟨.rw, 13, 0⟩], 0x0, false⟩,
  ⟨0x0C0024, 1, 0x100000, 1, 0x4, [⟨.rw, 13, 0⟩], 0x0, false⟩,
  ⟨0x0C0028, 1, 0x100000, 1, 0x4, [⟨.rw, 31, 0⟩], 0x0, false⟩,
  ⟨0x0C002C, 1, 0x100000, 1, 0x4, [⟨.wo, 31, 31⟩, ⟨.ro, 30, 28⟩], 0x0, false⟩,
  ⟨0x0C1000, 64, 0x8, 1, 0x4, [⟨.rw, 31, 31⟩, ⟨.rw, 27, 24⟩, ⟨.rw, 17, 16⟩, ⟨.rw, 10, 0⟩], 0x0, true⟩,
  ⟨0x0C1004, 64, 0x8, 1, 0x4, [⟨.ro, 31, 31⟩], 0x0, false⟩,
  ⟨0x0C1200, 16, 0x4, 1, 0x4, [⟨.ro, 31, 0⟩], 0x0, false⟩,
  ⟨0x0C1300, 17, 0x4, 1, 0x4, [⟨.ro, 31, 0⟩], 0x0, false⟩]

/-- The rows of the PRT block. -/
def rowsPrt : List RegRow := [
  ⟨0x0D0000, 16, 0x400, 1, 0x4, [⟨.rw, 31, 4⟩], 0x1FE000, true⟩,
  ⟨0x0D0004, 16, 0x400, 1, 0x4, [⟨.rw, 31, 0⟩], 0x3, false⟩,
  ⟨0x0D0008, 16, 0x400, 1, 0x4, [⟨.wo, 31, 31⟩, ⟨.ro, 30, 30⟩], 0x0, false⟩,
  ⟨0x0D000C, 16, 0x400, 1, 0x4, [⟨.ro, 31, 0⟩], 0x0, false⟩,
  ⟨0x0D0010, 16, 0x400, 1, 0x4, [⟨.ro, 31, 26⟩, ⟨.ro, 15, 0⟩], 0x0, false⟩,
  ⟨0x0D0014, 16, 0x400, 1, 0x4, [⟨.rc, 31, 0⟩], 0x0, false⟩,
  ⟨0x0D0018, 16, 0x400, 1, 0x4, [⟨.rc, 31, 0⟩], 0x0, false⟩,
  ⟨0x0D4000, 1, 0x100000, 1, 0x4, [⟨.rw, 15, 8⟩, ⟨.rw, 0, 0⟩], 0x1400, false⟩,
  ⟨0x0D4004, 1, 0x100000, 1, 0x4, [⟨.ro, 31, 30⟩, ⟨.ro, 15, 0⟩], 0x0, false⟩,
  ⟨0x0D4100, 32, 0x4, 1, 0x4, [⟨.rw, 0, 0⟩], 0x0, false⟩]

/-- The rows of the AES block. -/
def rowsAes : List RegRow := [
  ⟨0x0D8000, 8, 0x100, 1, 0x4, [⟨.rw, 31, 31⟩, ⟨.rw, 0, 0⟩], 0x0, false⟩,
  ⟨0x0D8004, 8, 0x100, 1, 0x4, [⟨.ro, 31, 29⟩, ⟨.ro, 15, 0⟩], 0x0, false⟩,
  ⟨0x0D8008, 8, 0x100, 1, 0x4, [⟨.ro, 17, 0⟩], 0x0, false⟩,
  ⟨0x0D800C, 8, 0x100, 1, 0x4, [⟨.rc, 31, 0⟩], 0x0, false⟩,
  ⟨0x0D8020, 8, 0x100, 6, 0x4, [⟨.ro, 31, 0⟩], 0x0, false⟩,
  ⟨0x0D8038, 8, 0x100, 6, 0x4, [⟨.ro, 31, 0⟩], 0x0, false⟩,
  ⟨0x0D8060, 8, 0x100, 6, 0x4, [⟨.ro, 31, 0⟩], 0x0, false⟩,
  ⟨0x0D8078, 8, 0x100, 6, 0x4, [⟨.ro, 31, 0⟩], 0x0, false⟩,
  ⟨0x0D8800, 8, 0x100, 1, 0x4, [⟨.rw, 31, 31⟩, ⟨.wo, 30, 30⟩, ⟨.rw, 29, 16⟩, ⟨.rw, 10, 0⟩], 0x20000000, false⟩,
  ⟨0x0D8820, 8, 0x100, 6, 0x4, [⟨.rw, 31, 0⟩], 0x0, false⟩]

/-- The rows of the LPO block. -/
def rowsLpo : List RegRow := [
  ⟨0x0E0000, 1, 0x100000, 1, 0x4, [⟨.rw, 31, 28⟩, ⟨.rw, 15, 0⟩], 0x10000000, true⟩,
  ⟨0x0E0004, 1, 0x100000, 1, 0x4, [⟨.wo, 31, 31⟩, ⟨.rw, 30, 30⟩], 0x40000000, false⟩,
  ⟨0x0E0008, 1, 0x100000, 1, 0x4, [⟨.ro, 31, 31⟩, ⟨.ro, 15, 0⟩], 0x0, false⟩,
  ⟨0x0E0010, 1, 0x100000, 1, 0x4, [⟨.rw, 28, 0⟩], 0x0, true⟩,
  ⟨0x0E0014, 1, 0x100000, 1, 0x4, [⟨.wo, 31, 31⟩, ⟨.rw, 30, 28⟩, ⟨.rw, 3, 0⟩], 0x0, false⟩,
  ⟨0x0E0100, 8, 0x4, 1, 0x4, [⟨.ro, 31, 0⟩], 0x0, false⟩,
  ⟨0x0E0140, 16, 0x4, 1, 0x4, [⟨.ro, 31, 0⟩], 0x0, false⟩,
  ⟨0x0E1000, 16, 0x200, 1, 0x4, [⟨.wo, 31, 31⟩, ⟨.ro, 30, 30⟩, ⟨.ro, 29, 29⟩, ⟨.rw, 28, 28⟩, ⟨.ro, 27, 27⟩, ⟨.rw, 21, 16⟩], 0x0, true⟩,
  ⟨0x0E1004, 16, 0x200, 1, 0x4, [⟨.rw, 31, 31⟩, ⟨.rw, 29, 16⟩, ⟨.rw, 7, 0⟩], 0x640000, true⟩,
  ⟨0x0E1008, 16, 0x200, 1, 0x4, [⟨.rw, 31, 0⟩], 0x3F800000, true⟩,
  ⟨0x0E100C, 16, 0x200, 1, 0x4, [⟨.rw, 31, 0⟩], 0x3F000000, true⟩,
  ⟨0x0E1010, 16, 0x200, 1, 0x4, [⟨.ro, 31, 0⟩], 0x0, false⟩,
  ⟨0x0E1040, 16, 0x200, 33, 0x4, [⟨.rw, 31, 0⟩], 0x0, true⟩,
  ⟨0x0E1100, 16, 0x200, 33, 0x4, [⟨.rw, 31, 0⟩], 0x0, true⟩,
  ⟨0x0E3000, 16, 0x10, 1, 0x4, [⟨.rw, 31, 20⟩, ⟨.rw, 12, 0⟩], 0x30000000, true⟩,
  ⟨0x0E3004, 16, 0x10, 1, 0x4, [⟨.ro, 31, 0⟩], 0x0, false⟩,
  ⟨0x0E3008, 16, 0x10, 1, 0x4, [⟨.rc, 31, 0⟩], 0x0, false⟩]

/-- The rows of the NET block. -/
def rowsNet : List RegRow := [
  ⟨0x0F0000, 4, 0x40, 1, 0x4, [⟨.rw, 31, 23⟩, ⟨.rw, 11, 0⟩], 0x42000000, false⟩,
  ⟨0x0F0004, 4, 0x40, 1, 0x4, [⟨.ro, 31, 31⟩], 0x0, false⟩,
  ⟨0x0F0008, 4, 0x40, 1, 0x4, [⟨.rw, 31, 0⟩], 0x0, false⟩,
  ⟨0x0F000C, 4, 0x40, 1, 0x4, [⟨.rw, 5, 0⟩], 0x18, false⟩,
  ⟨0x0F0010, 4, 0x40, 1, 0x4, [⟨.rw, 31, 0⟩], 0x0, false⟩,
  ⟨0x0F0014, 4, 0x40, 1, 0x4, [⟨.rw, 31, 0⟩], 0x0, false⟩,
  ⟨0x0F0018, 4, 0x40, 1, 0x4, [⟨.rw, 15, 0⟩], 0x0, false⟩,
  ⟨0x0F0200, 1, 0x100000, 1, 0x4, [⟨.rw, 7, 0⟩], 0x3, false⟩,
  ⟨0x0F0210, 1, 0x100000, 1, 0x4, [⟨.rw, 31, 0⟩], 0x0, false⟩,
  ⟨0x0F0214, 1, 0x100000, 1, 0x4, [⟨.rw, 31, 31⟩, ⟨.rw, 19, 16⟩, ⟨.rw, 15, 0⟩], 0xF0000, false⟩,
  ⟨0x0F0218, 1, 0x100000, 1, 0x4, [⟨.rc, 31, 0⟩], 0x0, false⟩,
  ⟨0x0F1000, 128, 0x20, 1, 0x4, [⟨.rw, 31, 0⟩], 0x1C008000, false⟩,
  ⟨0x0F1004, 128, 0x20, 1, 0x4, [⟨.rw, 31, 0⟩], 0x0, false⟩,
  ⟨0x0F1008, 128, 0x20, 1, 0x4, [⟨.rw, 31, 16⟩, ⟨.rw, 6, 0⟩], 0x61, false⟩,
  ⟨0x0F100C, 128, 0x20, 1, 0x4, [⟨.rw, 31, 0⟩], 0x0, false⟩,
  ⟨0x0F1010, 128, 0x20, 1, 0x4, [⟨.rw, 8, 0⟩], 0x30, false⟩,
  ⟨0x0F1014, 128, 0x20, 1, 0x4, [⟨.ro, 31, 0⟩], 0x0, false⟩,
  ⟨0x0F1018, 128, 0x20, 1, 0x4, [⟨.rc, 31, 0⟩], 0x0, false⟩,
  ⟨0x0F2000, 128, 0x20, 1, 0x4, [⟨.rw, 31, 30⟩, ⟨.rw, 28, 26⟩, ⟨.rw, 20, 0⟩], 0x1C008000, false⟩,
  ⟨0x0F2004, 128, 0x20, 1, 0x4, [⟨.rw, 31, 0⟩], 0x0, false⟩,
  ⟨0x0F2008, 128, 0x20, 1, 0x4, [⟨.rw, 31, 16⟩, ⟨.rw, 6, 0⟩], 0x61, false⟩,
  ⟨0x0F200C, 128, 0x20, 1, 0x4, [⟨.rw, 31, 0⟩], 0x0, false⟩,
  ⟨0x0F2010, 128, 0x20, 1, 0x4, [⟨.rw, 13, 0⟩], 0x2240, false⟩,
  ⟨0x0F2014, 128, 0x20, 1, 0x4, [⟨.ro, 31, 30⟩], 0x0, false⟩,
  ⟨0x0F2018, 128, 0x20, 1, 0x4, [⟨.ro, 31, 0⟩], 0x0, false⟩]

/-- The rows of the PTP block. -/
def rowsPtp : List RegRow := [
  ⟨0x100000, 1, 0x100000, 1, 0x4, [⟨.rw, 31, 0⟩], 0x0, false⟩,
  ⟨0x100004, 1, 0x100000, 1, 0x4, [⟨.rw, 31, 0⟩], 0x0, false⟩,
  ⟨0x100008, 1, 0x100000, 1, 0x4, [⟨.rw, 31, 0⟩], 0x0, false⟩,
  ⟨0x10000C, 1, 0x100000, 1, 0x4, [⟨.rw, 15, 0⟩], 0x0, false⟩,
  ⟨0x100010, 1, 0x100000, 1, 0x4, [⟨.rw, 4, 0⟩], 0x10, false⟩,
  ⟨0x100014, 1, 0x100000, 1, 0x4, [⟨.ro, 31, 24⟩], 0x0, false⟩,
  ⟨0x100018, 1, 0x100000, 1, 0x4, [⟨.ro, 31, 0⟩], 0x0, false⟩,
  ⟨0x10001C, 1, 0x100000, 1, 0x4, [⟨.rw, 31, 28⟩], 0x0, false⟩,
  ⟨0x100020, 2, 0x20, 1, 0x4, [⟨.rw, 31, 29⟩, ⟨.rw, 27, 24⟩, ⟨.rw, 7, 0⟩], 0x300007F, false⟩,
  ⟨0x100024, 2, 0x20, 1, 0x4, [⟨.rw, 31, 0⟩], 0x266403E8, false⟩,
  ⟨0x100028, 2, 0x20, 1, 0x4, [⟨.ro, 31, 0⟩], 0x0, false⟩,
  ⟨0x10002C, 2, 0x20, 1, 0x4, [⟨.ro, 31, 30⟩, ⟨.ro, 27, 0⟩], 0x0, false⟩,
  ⟨0x100030, 2, 0x20, 1, 0x4, [⟨.ro, 31, 0⟩], 0x0, false⟩,
  ⟨0x100034, 2, 0x20, 1, 0x4, [⟨.ro, 31, 0⟩], 0x0, false⟩,
  ⟨0x100060, 1, 0x100000, 1, 0x4, [⟨.rw, 23, 0⟩], 0x7D0, false⟩,
  ⟨0x100064, 1, 0x100000, 1, 0x4, [⟨.rw, 8, 0⟩], 0x14, false⟩,
  ⟨0x100100, 4, 0x10, 1, 0x4, [⟨.rw, 31, 0⟩], 0x0, false⟩,
  ⟨0x100104, 4, 0x10, 1, 0x4, [⟨.rw, 31, 0⟩], 0x0, false⟩]

/-- The rows of the TWN block. -/
def rowsTwn : List RegRow := [
  ⟨0x110000, 1, 0x100000, 1, 0x4, [⟨.rw, 31, 28⟩], 0x0, true⟩,
  ⟨0x110004, 1, 0x100000, 1, 0x4, [⟨.ro, 15, 8⟩, ⟨.rws, 7, 0⟩], 0x0, false⟩,
  ⟨0x110008, 1, 0x100000, 1, 0x4, [⟨.rw, 9, 0⟩], 0xA, false⟩,
  ⟨0x11000C, 1, 0x100000, 1, 0x4, [⟨.rw, 16, 0⟩], 0x3E8, false⟩,
  ⟨0x110010, 1, 0x100000, 1, 0x4, [⟨.rw, 16, 0⟩], 0x3E8, false⟩,
  ⟨0x110014, 1, 0x100000, 1, 0x4, [⟨.ro, 31, 18⟩, ⟨.ro, 9, 0⟩], 0x0, false⟩,
  ⟨0x110018, 1, 0x100000, 1, 0x4, [⟨.ro, 31, 0⟩], 0x0, false⟩,
  ⟨0x11001C, 1, 0x100000, 1, 0x4, [⟨.ro, 31, 0⟩], 0x0, false⟩,
  ⟨0x110020, 1, 0x100000, 1, 0x4, [⟨.ro, 31, 0⟩], 0x0, false⟩,
  ⟨0x110024, 1, 0x100000, 1, 0x4, [⟨.ro, 31, 0⟩], 0x0, false⟩,
  ⟨0x110028, 1, 0x100000, 1, 0x4, [⟨.ro, 31, 0⟩], 0x0, false⟩,
  ⟨0x11002C, 1, 0x100000, 1, 0x4, [⟨.ro, 31, 0⟩], 0x0, false⟩,
  ⟨0x110030, 1, 0x100000, 1, 0x4, [⟨.rc, 31, 16⟩, ⟨.ro, 10, 0⟩], 0x0, false⟩,
  ⟨0x110034, 1, 0x100000, 1, 0x4, [⟨.ro, 31, 0⟩], 0x0, false⟩,
  ⟨0x110038, 1, 0x100000, 1, 0x4, [⟨.ro, 31, 0⟩], 0x0, false⟩,
  ⟨0x11003C, 1, 0x100000, 1, 0x4, [⟨.rc, 31, 0⟩], 0x0, false⟩,
  ⟨0x110040, 1, 0x100000, 1, 0x4, [⟨.rw, 31, 0⟩], 0x0, false⟩,
  ⟨0x110044, 1, 0x100000, 1, 0x4, [⟨.rw, 31, 0⟩], 0x0, false⟩,
  ⟨0x110048, 1, 0x100000, 1, 0x4, [⟨.wo, 31, 31⟩, ⟨.rw, 30, 29⟩, ⟨.ro, 28, 28⟩, ⟨.ro, 27, 24⟩, ⟨.rw, 13, 0⟩], 0x20000000, false⟩,
  ⟨0x11004C, 1, 0x100000, 1, 0x4, [⟨.ro, 31, 0⟩], 0x0, false⟩,
  ⟨0x110050, 1, 0x100000, 1, 0x4, [⟨.ro, 31, 0⟩], 0x0, false⟩,
  ⟨0x110060, 1, 0x100000, 1, 0x4, [⟨.rw, 15, 0⟩], 0x0, false⟩,
  ⟨0x110064, 1, 0x100000, 1, 0x4, [⟨.rw, 31, 0⟩], 0x0, false⟩,
  ⟨0x110068, 1, 0x100000, 1, 0x4, [⟨.rw, 31, 0⟩], 0x0, false⟩,
  ⟨0x11006C, 1, 0x100000, 1, 0x4, [⟨.rw, 15, 0⟩], 0x0, false⟩,
  ⟨0x110080, 1, 0x100000, 1, 0x4, [⟨.rw, 31, 31⟩, ⟨.rw, 18, 0⟩], 0x0, false⟩,
  ⟨0x110084, 1, 0x100000, 1, 0x4, [⟨.rw, 19, 0⟩], 0x50000, false⟩,
  ⟨0x110088, 1, 0x100000, 1, 0x4, [⟨.rw, 7, 0⟩], 0x0, false⟩,
  ⟨0x110090, 1, 0x100000, 1, 0x4, [⟨.rc, 31, 0⟩], 0x0, false⟩,
  ⟨0x1100C0, 8, 0x8, 1, 0x4, [⟨.rw, 31, 0⟩], 0x0, false⟩,
  ⟨0x1100C4, 8, 0x8, 1, 0x4, [⟨.rw, 31, 0⟩], 0x0, false⟩,
  ⟨0x111000, 512, 0x4, 1, 0x4, [⟨.rw, 31, 31⟩, ⟨.rw, 2, 0⟩], 0x0, false⟩,
  ⟨0x112000, 2048, 0x4, 1, 0x4, [⟨.rw, 31, 0⟩], 0x0, false⟩]

/-- The rows of the DRV block. -/
def rowsDrv : List RegRow := [
  ⟨0x120000, 1, 0x100000, 1, 0x4, [⟨.rws, 31, 31⟩, ⟨.rws, 30, 30⟩], 0x40000000, false⟩,
  ⟨0x120004, 1, 0x100000, 1, 0x4, [⟨.ro, 31, 27⟩, ⟨.ro, 19, 8⟩, ⟨.ro, 6, 0⟩], 0x0, false⟩,
  ⟨0x120008, 1, 0x100000, 1, 0x4, [⟨.rc, 31, 16⟩, ⟨.ro, 15, 0⟩], 0xFFFF0000, false⟩,
  ⟨0x12000C, 1, 0x100000, 1, 0x4, [⟨.rc, 31, 16⟩, ⟨.ro, 15, 0⟩], 0x80000000, false⟩,
  ⟨0x120010, 1, 0x100000, 1, 0x4, [⟨.rw, 31, 24⟩, ⟨.rw, 23, 12⟩, ⟨.rw, 6, 0⟩], 0xF21F400A, false⟩,
  ⟨0x120014, 1, 0x100000, 1, 0x4, [⟨.rw, 11, 8⟩, ⟨.rw, 7, 0⟩], 0x805, false⟩,
  ⟨0x120018, 1, 0x100000, 1, 0x4, [⟨.ro, 15, 0⟩], 0x0, false⟩,
  ⟨0x120100, 12, 0x10, 1, 0x4, [⟨.rw, 31, 30⟩, ⟨.rw, 25, 22⟩, ⟨.rw, 7, 0⟩], 0x1800040, true⟩,
  ⟨0x120104, 12, 0x10, 1, 0x4, [⟨.ro, 31, 31⟩, ⟨.ro, 30, 30⟩, ⟨.w1c, 29, 29⟩, ⟨.ro, 28, 23⟩], 0x0, false⟩,
  ⟨0x120108, 12, 0x10, 1, 0x4, [⟨.rc, 31, 0⟩], 0x0, false⟩]

/-- The rows of the DMC block. -/
def rowsDmc : List RegRow := [
  ⟨0x130000, 2, 0x4000, 1, 0x4, [⟨.rws, 31, 31⟩, ⟨.ro, 30, 30⟩, ⟨.rws, 29, 28⟩, ⟨.rws, 25, 23⟩, ⟨.rws, 5, 0⟩], 0x1000000A, false⟩,
  ⟨0x130004, 2, 0x4000, 1, 0x4, [⟨.ro, 31, 29⟩, ⟨.rws, 15, 8⟩, ⟨.rws, 1, 0⟩], 0xA00, false⟩,
  ⟨0x130008, 2, 0x4000, 1, 0x4, [⟨.rws, 13, 8⟩, ⟨.rws, 5, 0⟩], 0x1808, false⟩,
  ⟨0x13000C, 2, 0x4000, 1, 0x4, [⟨.rws, 15, 0⟩], 0x4000, false⟩,
  ⟨0x130010, 2, 0x4000, 1, 0x4, [⟨.rws, 15, 0⟩], 0x7D0, false⟩,
  ⟨0x130014, 2, 0x4000, 1, 0x4, [⟨.rc, 31, 16⟩, ⟨.rc, 15, 0⟩], 0x0, false⟩,
  ⟨0x130018, 2, 0x4000, 1, 0x4, [⟨.w1c, 31, 31⟩, ⟨.ro, 28, 0⟩], 0x0, false⟩,
  ⟨0x13001C, 2, 0x4000, 1, 0x4, [⟨.rws, 7, 0⟩], 0x18, false⟩,
  ⟨0x130020, 2, 0x4000, 1, 0x4, [⟨.ro, 31, 18⟩], 0x0, false⟩,
  ⟨0x130024, 2, 0x4000, 1, 0x4, [⟨.ro, 15, 0⟩], 0x0, false⟩,
  ⟨0x130028, 2, 0x4000, 1, 0x4, [⟨.ro, 16, 0⟩], 0x0, false⟩,
  ⟨0x130100, 2, 0x4000, 16, 0x4, [⟨.rws, 15, 0⟩], 0x0, false⟩,
  ⟨0x130180, 2, 0x4000, 16, 0x4, [⟨.rws, 15, 0⟩], 0x0, false⟩]

/-- The rows of the WDN block. -/
def rowsWdn : List RegRow := [
  ⟨0x140000, 1, 0x100000, 1, 0x4, [⟨.rw, 15, 8⟩, ⟨.rw, 7, 0⟩], 0xFF00, false⟩,
  ⟨0x140004, 1, 0x100000, 1, 0x4, [⟨.w1c, 15, 8⟩, ⟨.ro, 7, 0⟩], 0x0, false⟩,
  ⟨0x140010, 1, 0x100000, 1, 0x4, [⟨.rw, 31, 28⟩, ⟨.rw, 15, 0⟩], 0x0, false⟩,
  ⟨0x140014, 1, 0x100000, 1, 0x4, [⟨.rw, 31, 0⟩], 0x0, false⟩]

/-- The rows of the PWR block. -/
def rowsPwr : List RegRow := [
  ⟨0x150000, 1, 0x100000, 1, 0x4, [⟨.ro, 31, 26⟩, ⟨.ro, 11, 8⟩], 0xFC000000, false⟩,
  ⟨0x150010, 1, 0x100000, 1, 0x4, [⟨.ro, 7, 4⟩, ⟨.rw, 3, 0⟩], 0x0, false⟩,
  ⟨0x150020, 1, 0x100000, 1, 0x4, [⟨.rc, 31, 16⟩, ⟨.ro, 15, 0⟩], 0x80000000, false⟩,
  ⟨0x150024, 1, 0x100000, 1, 0x4, [⟨.rw, 15, 0⟩], 0x320, false⟩]

/-- The rows of the DBG block. -/
def rowsDbg : List RegRow := [
  ⟨0x160000, 8, 0x4, 1, 0x4, [⟨.ro, 31, 0⟩], 0x0, false⟩,
  ⟨0x1600A0, 1, 0x100000, 1, 0x4, [⟨.wo, 31, 31⟩, ⟨.rw, 30, 28⟩, ⟨.rw, 1, 0⟩], 0x0, false⟩,
  ⟨0x1600A4, 1, 0x100000, 1, 0x4, [⟨.ro, 31, 27⟩, ⟨.ro, 1, 0⟩], 0x0, false⟩,
  ⟨0x160100, 49, 0x4, 1, 0x4, [⟨.rw, 31, 0⟩], 0x0, false⟩]

/-- The rows of the EVT block. -/
def rowsEvt : List RegRow := [
  ⟨0x170000, 1, 0x100000, 1, 0x4, [⟨.rw, 31, 0⟩], 0x0, false⟩,
  ⟨0x170004, 1, 0x100000, 1, 0x4, [⟨.rw, 7, 0⟩], 0x0, false⟩,
  ⟨0x170008, 1, 0x100000, 1, 0x4, [⟨.rw, 12, 0⟩], 0x40, false⟩,
  ⟨0x17000C, 1, 0x100000, 1, 0x4, [⟨.ro, 11, 0⟩], 0x0, false⟩,
  ⟨0x170010, 1, 0x100000, 1, 0x4, [⟨.rw, 11, 0⟩], 0x0, false⟩,
  ⟨0x170014, 1, 0x100000, 1, 0x4, [⟨.rw, 31, 30⟩], 0x0, false⟩,
  ⟨0x170018, 1, 0x100000, 1, 0x4, [⟨.w1c, 31, 31⟩], 0x0, false⟩,
  ⟨0x17001C, 1, 0x100000, 1, 0x4, [⟨.rc, 31, 0⟩], 0x0, false⟩,
  ⟨0x170040, 16, 0x4, 1, 0x4, [⟨.rw, 31, 0⟩], 0x0, false⟩,
  ⟨0x170080, 16, 0x4, 1, 0x4, [⟨.rw, 31, 0⟩], 0x0, false⟩,
  ⟨0x1700C0, 4, 0x4, 1, 0x4, [⟨.rw, 29, 24⟩, ⟨.rw, 21, 16⟩, ⟨.rw, 13, 8⟩, ⟨.rw, 5, 0⟩], 0x0, false⟩]

/-- The rows of the DIV block. -/
def rowsDiv : List RegRow := [
  ⟨0x180000, 1, 0x100000, 1, 0x4, [⟨.wo, 31, 31⟩, ⟨.rw, 30, 29⟩, ⟨.rw, 3, 0⟩], 0x0, false⟩,
  ⟨0x180004, 1, 0x100000, 1, 0x4, [⟨.rw, 31, 0⟩], 0x0, false⟩,
  ⟨0x180008, 1, 0x100000, 1, 0x4, [⟨.rw, 31, 0⟩], 0x0, false⟩,
  ⟨0x18000C, 1, 0x100000, 1, 0x4, [⟨.ro, 31, 20⟩, ⟨.ro, 15, 0⟩], 0x0, false⟩,
  ⟨0x180020, 1, 0x100000, 1, 0x4, [⟨.w1c, 31, 31⟩, ⟨.rw, 0, 0⟩], 0x0, false⟩,
  ⟨0x180040, 1, 0x100000, 1, 0x4, [⟨.rw, 31, 0⟩], 0x0, false⟩,
  ⟨0x180044, 1, 0x100000, 1, 0x4, [⟨.rw, 31, 0⟩], 0x0, false⟩,
  ⟨0x180048, 1, 0x100000, 1, 0x4, [⟨.rw, 31, 0⟩], 0x0, false⟩,
  ⟨0x18004C, 1, 0x100000, 1, 0x4, [⟨.wo, 31, 31⟩, ⟨.rw, 7, 4⟩, ⟨.rw, 2, 0⟩], 0x0, false⟩,
  ⟨0x180050, 1, 0x100000, 1, 0x4, [⟨.ro, 31, 8⟩, ⟨.ro, 1, 0⟩], 0x0, false⟩,
  ⟨0x180054, 1, 0x100000, 1, 0x4, [⟨.ro, 31, 0⟩], 0x0, false⟩,
  ⟨0x180060, 1, 0x100000, 1, 0x4, [⟨.rw, 31, 0⟩], 0x0, false⟩,
  ⟨0x180064, 1, 0x100000, 1, 0x4, [⟨.rw, 31, 0⟩], 0x0, false⟩,
  ⟨0x180070, 1, 0x100000, 1, 0x4, [⟨.rw, 11, 0⟩], 0x0, false⟩]

/-- The blocks in ascending order: the first offset, the offset past the last, and the rows. -/
def regBlocks : List (Nat × Nat × List RegRow) := [
  (0x000000, 0x010000, rowsSys),
  (0x010000, 0x020000, rowsLmp),
  (0x020000, 0x030000, rowsSec),
  (0x030000, 0x040000, rowsXbr),
  (0x040000, 0x050000, rowsIcx),
  (0x050000, 0x060000, rowsSq),
  (0x060000, 0x080000, rowsObj),
  (0x080000, 0x090000, rowsGeo),
  (0x090000, 0x0A0000, rowsStr),
  (0x0A0000, 0x0B0000, rowsRcf),
  (0x0B0000, 0x0C0000, rowsOut),
  (0x0C0000, 0x0D0000, rowsRbt),
  (0x0D0000, 0x0D8000, rowsPrt),
  (0x0D8000, 0x0E0000, rowsAes),
  (0x0E0000, 0x0F0000, rowsLpo),
  (0x0F0000, 0x100000, rowsNet),
  (0x100000, 0x110000, rowsPtp),
  (0x110000, 0x120000, rowsTwn),
  (0x120000, 0x130000, rowsDrv),
  (0x130000, 0x140000, rowsDmc),
  (0x140000, 0x150000, rowsWdn),
  (0x150000, 0x160000, rowsPwr),
  (0x160000, 0x170000, rowsDbg),
  (0x170000, 0x180000, rowsEvt),
  (0x180000, 0x188000, rowsDiv)]

/-- Does the row hold the register at this offset? -/
def RegRow.covers (r : RegRow) (off : Nat) : Bool :=
  decide (r.base ≤ off) &&
    (let o := off - r.base
     decide (o / r.s1 < r.n1) && decide (o % r.s1 % r.s2 = 0) && decide (o % r.s1 / r.s2 < r.n2))

/-- The row of the register at a word-aligned BAR0 offset; none where no register is listed (R355). -/
def regRow (off : Nat) : Option RegRow :=
  match regBlocks.find? (fun b => decide (b.1 ≤ off) && decide (off < b.2.1)) with
  | some b => b.2.2.find? (fun r => r.covers off)
  | none => none

/-- The reset words that one row cannot say (file 21): the second half of the Ethernet ports, PTP domain B, the event
vectors and the middle taps of the compensation banks. -/
def resetOverride (off : Nat) : Option Nat :=
  if off = Off.NET_PORT_CFG 2 ∨ off = Off.NET_PORT_CFG 3 then some 0x62000000
  else if off = Off.PTP_DOM_CFG 1 then some 0x0C00007F
  else if off = Off.EVT_VEC 0 then some 0x04030201
  else if off = Off.EVT_VEC 1 then some 0x08070605
  else if off = Off.EVT_VEC 2 then some 0x0C0B0A09
  else if off = Off.EVT_VEC 3 then some 0x100F0E0D
  else if Off.LPO_CH_TAP_A 0 0 ≤ off ∧ off < Off.LPO_CH_TAP_A 16 0 ∧
      ((off - Off.LPO_CH_TAP_A 0 0) % 0x200 = 0x40 ∨ (off - Off.LPO_CH_TAP_A 0 0) % 0x200 = 0x100) then some 0x3F800000
  else none

/-- The word a register reads after reset (R356, R357); 0 at every location no chapter defines (R316). -/
def regReset (off : Nat) : Word :=
  match resetOverride off with
  | some v => BitVec.ofNat 32 v
  | none =>
    match regRow off with
    | some r => BitVec.ofNat 32 r.reset
    | none => 0

/-- The bits lo to hi of a word. -/
def fieldMask (hi lo : Nat) : Word := BitVec.ofNat 32 (2 ^ (hi + 1) - 2 ^ lo)

/-- The bits of a row whose fields carry one of the given access codes. -/
def RegRow.bits (r : RegRow) (p : Acc → Bool) : Word :=
  (r.fields.filter (fun f => p f.acc)).foldl (fun m f => m ||| fieldMask f.hi f.lo) 0

/-- A configuration word holds at least one RW or RWS field (R317). -/
def RegRow.isConfig (r : RegRow) : Bool := r.fields.any (fun f => f.acc == .rw || f.acc == .rws)

/-- The word kept after a write of `v` over `old` (R6, R316): RW bits are taken, RWS bits only from a secure master,
W1C bits clear where a 1 is written, every other bit stays. -/
def RegRow.merge (r : RegRow) (secure : Bool) (old v : Word) : Word :=
  let w := r.bits (fun a => a == .rw || (secure && a == .rws))
  let c := r.bits (fun a => a == .w1c)
  ((old &&& ~~~ w) ||| (v &&& w)) &&& ~~~ (c &&& v)

/-- The bits a read returns (R6): WO bits read 0, and RWS and ROS bits read 0 to a non-secure master. -/
def RegRow.readable (r : RegRow) (secure : Bool) : Word :=
  r.bits (fun a => a == .rw || a == .ro || a == .w1c || a == .rc || (secure && (a == .rws || a == .ros)))

/-- The write-only bits of a write, which act and are not kept. -/
def RegRow.trigger (r : RegRow) (secure : Bool) (v : Word) : Word :=
  v &&& r.bits (fun a => a == .wo || (secure && a == .wos))

/-- Does a non-secure access of this register count as SEC_DENIED (R319)? -/
def RegRow.denies (r : RegRow) : Bool :=
  r.fields.any (fun f => f.acc == .rws || f.acc == .wos || f.acc == .ros)

end Sys2Proof.Machine
end

