-- ==== Sys2Proof/Machine/State.lean ====
section
/-! DEFINITION. The state of the CL9512, as plain data: every register, table, store, queue, counter and mode that the spec
gives the block, the commands waiting for it, and the reset values. -/

namespace Sys2Proof.Machine

/-- Reasons a command stops the model.
* `noSuchUnit`: a command whose operand names a unit, port, stream, channel or domain that the device does not have; raised by
  every command that names one; safe (the device has no such input). -/
inductive Fault where
  | noSuchUnit
  deriving DecidableEq, Repr

/-- Reasons a command has no meaning.
* `notModelled`: raised only by an arm of `exec` that has no meaning yet; safe. -/
inductive Refusal where
  | notModelled (mnemonic : String)
  deriving DecidableEq, Repr

/-- The answer to the last access of a master (R311): an error response, or the bytes read. The model's own record. -/
structure Resp where
  err  : Bool
  data : List Byte
  deriving DecidableEq, Repr

/-- An event record (R342): word 0 in parts, the parameter and the tick. -/
structure EvRec where
  code  : Nat
  inst  : Nat
  block : Nat
  param : Nat
  tick  : Nat
  deriving DecidableEq, Repr

/-- The event ring's engine (R346 to R350). -/
structure Evt where
  /-- events raised in the command being performed, not yet put in the order of R344 -/
  fresh    : List EvRec
  /-- events raised and not yet recorded, in the order of R344 -/
  raised   : List EvRec
  /-- the 64-entry buffer of R347, oldest first -/
  buf      : List EvRec
  /-- records lost and not yet reported by EVT_OVERFLOW -/
  lost     : Nat
  /-- vectors sent in tick `sentTick` -/
  sent     : List Nat
  sentTick : Nat
  /-- vectors masked in the MSI-X table, and their pending bits -/
  msixMask : List Nat
  msixPend : List Nat
  /-- records waiting for a Notice datagram (R207), oldest first -/
  notice   : List EvRec
  noticeSeq : Nat
  /-- first-of-each-master marks of R308, R314 and R319: kind·16 + master ↦ tick of the last event + 1 -/
  seen     : NMap Nat
  deriving DecidableEq, Repr

/-- A UDP datagram in one Ethernet frame, as sent (R193, R203). -/
structure Datagram where
  dstMac   : Nat
  srcMac   : Nat
  /-- 2¹⁶ + PCP·2¹² + VID; 0 untagged -/
  vlan     : Nat
  srcIp    : Nat
  dstIp    : Nat
  ident    : Nat
  df       : Bool
  dscp     : Nat
  ttl      : Nat
  srcPort  : Nat
  dstPort  : Nat
  checksum : Nat
  payload  : List Byte
  deriving DecidableEq, Repr

/-- What the device sends to the outside world; the model keeps every item in order. -/
inductive Out where
  | msix (vector : Nat)
  | udp (port : Nat) (g : Datagram)
  /-- SDO of a port in the frame of an index: the SLOTW bits of each slot; none: high-impedance -/
  | serial (port index : Nat) (slots : List (Option Nat))
  /-- an AES3 frame: its sample index, the house index at which its preamble starts (R173), whether it carries Z, and bits 4 to 31 of
  its two subframes, the first sent in bit 0 -/
  | aes (t index start : Nat) (z : Bool) (a b : Nat)
  /-- a frame of the Steward's: its kind, the MAC it goes to, its VLAN tag, and its content -/
  | net (port kind dstMac vlan : Nat) (data : List Nat)
  | bell (w : BitVec 64)
  | twin (frame : List Byte)
  | playout (gate : Nat) (tick : Nat) (block : List F32)
  | host (addr : Nat) (bytes : List Byte)
  | pin (name : Nat) (level : Nat)
  /-- a pin is driven low for so many ns -/
  | pulse (name ns : Nat)
  /-- rising edges of a clock output: 0 WCLK_OUT by sample index, 1 MCLK_OUT by period, 2 PPS_OUT by second (R224), 3 PDM_CLK by PDM sample
  (R226); after `before` up to `last` -/
  | edges (clock before last : Nat)
  /-- duties of a Drive channel's PWM periods, from the D sample index at which the terminals show the first; `bd`: BD modulation (R239) -/
  | drive (c start : Nat) (bd : Bool) (duty : List Nat)
  /-- the halves of a Drive channel that turn off for the rest of successive PWM periods (R246) -/
  | driveCut (c : Nat) (halves : List (Bool × Bool))
  deriving DecidableEq, Repr

/-- A change that is complete and waits for the next boundary (R11), in crossbar completion order. -/
inductive Pend where
  | reg (off : Nat) (v : Word)
  | tab (off : Nat) (bytes : List Byte)
  | migrate (template quarter : Nat)
  | fenceQuarter (q : Nat)
  | swap (f : Nat) (ctl : Word)
  | bqCommit (feed sect : Nat) (coefs : List F32)
  | move (old new : Nat) (gain : F32)
  | lpoSwap (c : Nat) (ctl : Word)
  | streamOff (tx : Bool) (s : Nat)
  deriving DecidableEq, Repr

/-- The states of a job (R140). -/
inductive JState where
  | waiting | held | ready | kerb | running | writing | faulted | released | retired
  deriving DecidableEq, Repr

/-- The identity of a job or part: (flow, sequence, FIRST) (R20). -/
structure JobKey where
  flow  : Nat
  tick  : Nat
  sub   : Nat
  first : Nat
  deriving DecidableEq, Repr

/-- A job or a part of one (R138, R143). -/
structure Job where
  key    : JobKey
  tmpl   : Nat
  kind   : Nat
  cls    : Nat
  split  : Bool
  fade   : Bool
  prefq  : Nat
  attempt : Nat
  count  : Nat
  params : List Nat
  succ   : List Nat
  /-- predecessors not yet released (R141) -/
  waits  : Nat
  st     : JState
  /-- the ready list it joined: 8·Quarter + class -/
  lst    : Nat
  /-- the Square that holds the grant (R145) -/
  grant  : Option Nat
  /-- a grant has been given for this job -/
  everGranted : Bool
  /-- the write-back has ended and the sequence waits at the Crossing (R146) -/
  written : Bool
  /-- the tick in which a Square started it -/
  started : Nat
  /-- its writes have been made, at its release, or lost, at its retirement -/
  ran    : Bool
  deriving DecidableEq, Repr

/-- Where the known-answer test of a Square stands (R21, R154). -/
inductive Kat where
  | none
  /-- issued, result not reported -/
  | running
  /-- passed after a clear: serves from the next boundary -/
  | passed
  deriving DecidableEq, Repr

/-- One Square (R142, R150 to R155). -/
structure Square where
  kerb    : Option JobKey
  run     : Option JobKey
  /-- boundaries the running job has crossed (R150) -/
  crossed : Nat
  fenced  : Bool
  /-- boundaries since the fence (R152) -/
  fenceAge : Nat
  blocked : Bool
  /-- the fence has been cleared and the test not yet passed -/
  cleared : Bool
  kat     : Kat
  katFail : Bool
  katAge  : Nat
  /-- ticks for which UE still reads 1 -/
  ueLeft  : Nat
  late    : Bool
  /-- reserved as a spare -/
  spare   : Bool
  /-- a spare that serves in place of this fenced Square -/
  inPlace : Option Nat
  /-- ns run in this compute tick, classes 0–6 and class 7 -/
  ns      : Nat
  ns7     : Nat
  deriving DecidableEq, Repr

def Square.init : Square :=
  ⟨none, none, 0, false, 0, false, false, .none, false, 255, 0, false, false, none, 0, 0⟩

/-- The Interchange (R135 to R159). -/
structure Icx where
  jobs    : List Job
  /-- ready lists: 8·Quarter + class ↦ keys, head first -/
  ready   : NMap (List JobKey)
  held    : List JobKey
  squares : NMap Square
  /-- flows that fade in at their next instantiation (R149) -/
  fadeIn  : List Nat
  /-- elapsed ns of the last class 0–6 release of this compute tick -/
  lastRel : Nat
  katNext : Nat
  /-- ticks since the last passing rotating known-answer test, at most 255, and whether the last one failed (R284, R285) -/
  rotAge  : Nat
  rotFail : Bool
  /-- destination conflicts of the current episode (R161): type·65536 + index -/
  conflicts : List Nat
  /-- the unit is fenced, by exclusion from its District or by a Closure: the Squares that have not passed a known-answer test since
  that ended (R21) -/
  unitFence : Option (List Nat)
  /-- running jobs that an abort stops and whose ABORTED report has not come (R352) -/
  stopping : List JobKey
  /-- the Square that fetched a descriptor last, and its job (R142, R311) -/
  fetched  : Option (Nat × JobKey)
  deriving DecidableEq, Repr

/-- A record of an accepted Kazeo frame in the pending store (R56 to R59). -/
structure PRec where
  apply : Nat
  /-- the capture tick it may first be established for: `apply`, or the journal's apply tick (R54) -/
  due   : Nat
  src   : Nat
  seq   : Nat
  pos   : Nat
  kind  : Nat
  /-- the 48 bytes, VALID already without the discarded fields -/
  bytes : List Byte
  /-- the number of the frame in acceptance order -/
  frame : Nat
  deriving DecidableEq, Repr

/-- A ramp in progress for one group (R60). -/
structure Ramp where
  start : Nat
  len   : Nat
  s     : List F32
  t     : List F32
  deriving DecidableEq, Repr

/-- The state region of an object (R45), and the ramps of its four groups: position, gain, spread, diffuse. -/
structure ObjDyn where
  pos     : List F32
  gain    : F32
  spread  : F32
  diffuse : F32
  lastApply : Nat
  lastSeq : Nat
  lastSrc : Nat
  rampLeft : Nat
  waveFb  : Nat
  zoneEmpty : Nat
  ramps   : NMap Ramp
  deriving DecidableEq, Repr

def ObjDyn.init : ObjDyn := ⟨[0, 0, 0], 0, 0, 0, 0, 0, 0, 0, 0, 0, []⟩

/-- The state region of a listener (R48), and the ramps of its two groups: position, orientation. -/
structure LisDyn where
  pos    : List F32
  ori    : List F32
  lastApply : Nat
  ramps  : NMap Ramp
  deriving DecidableEq, Repr

def LisDyn.init : LisDyn := ⟨[0, 0, 0], [0, 0, 0], 0, []⟩

/-- One Warden (R62). -/
structure Warden where
  imem   : NMap Byte
  dmem   : NMap Byte
  /-- staging buffers 0 and 1 -/
  stage0 : List Byte
  stage1 : List Byte
  /-- the buffer last written -/
  cur    : Nat
  /-- the buffer committed last in this activation: stores to it go to the other one -/
  sent   : Option Nat
  result : Nat
  /-- N of the current activation -/
  n      : Nat
  /-- counter reads made without DET (R63); picks the free value of the next -/
  counts : Nat
  deriving DecidableEq, Repr

def Warden.init : Warden := ⟨[], [], [], [], 0, none, 0, 0, 0⟩

/-- The object and listener tables as established at boundary N, which the Wardens of activation N read (R62). -/
structure Snap where
  tab : NMap Byte
  dyn : NMap ObjDyn
  lis : NMap LisDyn
  deriving DecidableEq, Repr

/-- Objects, listeners and metadata (file 03). -/
structure Obj where
  dyn     : NMap ObjDyn
  lis     : NMap LisDyn
  pending : List PRec
  /-- accepted frames: (SOURCE_ID, SEQUENCE, tick of acceptance) -/
  accepted : List (Nat × Nat × Nat)
  frames  : Nat
  /-- frames for which LATE_META has been raised -/
  lateSaid : List Nat
  mbox    : NMap Byte
  wardens : NMap Warden
  snap    : Snap
  deriving DecidableEq, Repr

/-- A queued activation (R40). -/
structure Act where
  index : Nat
  tick  : Nat
  detour : Bool
  deriving DecidableEq, Repr

/-- The result a LOAD or CHECK in progress will post (R31, R33). -/
structure LoadRes where
  status : Nat
  failRec : Nat
  source : Nat
  kind   : Nat
  deriving DecidableEq, Repr

/-- A plan load whose WAIT record is not yet met (R27): the source, the flash directory entry, the record's index, and the ns its
timeout has still to run. -/
structure LoadWait where
  source : Nat
  entry  : Nat
  idx    : Nat
  left   : Nat
  deriving DecidableEq, Repr

/-- The image loader's memories and the activation queue (file 02). -/
structure Div where
  /-- the plan in the staging area -/
  plan     : List Byte
  /-- resident Diversions by index -/
  resident : NMap (List Byte)
  /-- the firmware residence (R338) -/
  firmware : List Byte
  queue    : List Act
  loading  : Option LoadRes
  waiting  : Option LoadWait
  /-- the house rate is 96 kHz -/
  rate96   : Bool
  deriving DecidableEq, Repr

/-- The device-owned part of a crosspoint (R162 to R165). -/
structure Xp where
  cur     : F32
  target  : F32
  pending : Bool
  timedOut : Bool
  /-- candidates already examined -/
  cand    : Nat
  /-- the sample before the next candidate, the endpoint and the capture tick it came from -/
  prev    : F32
  prevSig : Nat
  prevTick : Nat
  /-- a forward step of local time passed while PENDING: step at position 0 of the next block (R165) -/
  force   : Bool
  deriving DecidableEq, Repr

def Xp.init : Xp := ⟨0, 0, false, false, 0, 0, 0, 0, false⟩

/-- A MOVE (R167): which crosspoints have still to step. -/
structure Move where
  old  : Nat
  new  : Nat
  oldDone : Bool
  newDone : Bool
  deriving DecidableEq, Repr

/-- One stretch of house indices in which an ASRC channel gives samples (R172). -/
structure AsrcSpan where
  /-- its first index, where the fade-in begins, and the index where the fade-out begins -/
  from_ : Nat
  off   : Option Nat
  /-- its group's ratio estimate, and the index from which the group's output phase counts (R171) -/
  ratio : Nat
  phase : Nat
  deriving DecidableEq, Repr

/-- One ASRC channel: locked or not, and its stretches, newest first. -/
structure Asrc where
  locked : Bool
  spans  : List AsrcSpan
  deriving DecidableEq, Repr

def Asrc.init : Asrc := ⟨false, []⟩

/-- The Roundabout (file 10). -/
structure Rbt where
  xp     : NMap Xp
  move   : Option Move
  asrc   : NMap Asrc
  /-- by group, the house index from which its output phase counts -/
  phase  : NMap Nat
  /-- by NET_RX index, the rate of the Foreign stream that brings it in the capture tick that the current jobs convert (R20) -/
  foreignRate : NMap Nat
  deriving DecidableEq, Repr

/-- What geometry keeps for one (object, layout) pair (R72, R75, R85, R86, R89). -/
structure GeoPair where
  dir    : Option (List F32)
  /-- hull state: 0 none, 1 WAVE, 2 PAN -/
  hull   : Nat
  /-- rendering in the previous compute tick: 0 none, 1 PAN, 2 WAVE -/
  method : Nat
  emptySaid : Bool
  limitSaid : Bool
  deriving DecidableEq, Repr

def GeoPair.init : GeoPair := ⟨none, 0, 0, false, false⟩

/-- The device-owned part of a Street (R98). -/
structure Str where
  cur    : F32
  delay  : Nat
  base   : Nat
  jump   : Bool
  xfade  : Bool
  clamped : Bool
  deriving DecidableEq, Repr

def Str.init : Str := ⟨0, 0, 0, false, false, false⟩

/-- Geometry and Streets (files 04 to 06). -/
structure Geo where
  /-- 16·object + layout ↦ pair -/
  pairs  : NMap GeoPair
  /-- compute tick in which geometry last cleared the targets (R101) -/
  cleared : Nat
  /-- objects that render with one virtual source this tick, and those reported so (R78) -/
  limited : List Nat
  limitSaid : List Nat
  hullPairs : Nat
  streets : NMap Str
  /-- lanes in conflict that have been reported (R102) -/
  laneSaid : List Nat
  /-- shelf state x1, x2, y1, y2 by feed (R90) -/
  shelf  : NMap (List F32)
  /-- layouts whose shelf states the boundary in progress makes zero (R90) -/
  shelfNew : List Nat
  /-- the first capture tick after reset (R97) -/
  firstCap : Option Nat
  /-- first house index of an object's history (R97) -/
  histFrom : NMap Nat
  /-- the capture tick after the last one taken into the histories, 0 before the first, and the stretches of house indices since the
  first that no capture tick brought (R97) -/
  capEnd : Nat
  gaps   : List (Nat × Nat)
  /-- by object: the tick of the last block its far ring took, and the samples that block displaced (R95) -/
  displaced : NMap (Nat × List F32)
  deriving DecidableEq, Repr

/-- One accumulator of R118: partitions still to be added, the sum so far and, once inverted, the output transform Z_p. -/
structure ConvAcc where
  begun : Bool
  rem   : Nat
  acc   : List F32
  done  : Bool
  z     : List F32
  /-- the block's overlap sum y_s (R118), formed with z -/
  y     : List F32
  deriving DecidableEq, Repr

def ConvAcc.init : ConvAcc := ⟨false, 0, [], false, [], []⟩

/-- The room-correction engine (R109 to R125). Keys: 4·feed + segment for spectra, 2·(4·feed + segment) + bank for sums. -/
structure Conv where
  /-- input spectra X_m of segment 1; of segments 2 and 3, which SDRAM holds, a mark that X_m has been formed, or X_m itself once a newer
  block has its slot (R114, R122) -/
  x     : NMap (NMap (List F32))
  /-- the first block whose spectrum no FFT_FWD job has formed -/
  xNext : NMap Nat
  acc   : NMap (NMap ConvAcc)
  /-- the first sample index a feed's engine does not read as 0.0 (R114) -/
  xFrom : NMap Nat
  /-- crossfade in progress: first capture tick A and length K in ticks; K = 0: none -/
  fade  : NMap (Nat × Nat)
  /-- by virtual-speaker bus 32·target + b: the newest blocks whose spectra its history holds, and the block after them (R125) -/
  hx    : NMap (List Nat)
  hNext : NMap Nat
  /-- the block whose slot the newest one took, and its spectrum: the overlap of R118 still needs it -/
  hOld  : NMap (Nat × List F32)
  /-- swaps established in this boundary whose bank's sums are still to be formed: feed and capture tick (R122, R124) -/
  begun : List (Nat × Nat)
  /-- feeds whose swap a Ledger entry carries and no boundary has established (R123, R124) -/
  ldgSwap : List Nat
  /-- banks reported by BANK_INVALID and still invalid; HRIR sets with their target and layout -/
  badSaid : List Nat
  deriving DecidableEq, Repr

def Conv.init : Conv := ⟨[], [], [], [], [], [], [], [], [], [], []⟩

/-- The conditioning state of one feed (R127 to R134). -/
structure OutSt where
  /-- the feed had a compute tick before, since rendering began and since plan state last returned to reset (R126) -/
  seen  : Bool
  /-- the last capture tick processed, plus 1 -/
  last  : Nat
  /-- states of the crossover sections: low-pass 1 and 2, high-pass 1 and 2 -/
  xo    : List (List F32)
  /-- states of the biquads by section -/
  bq    : NMap (List F32)
  /-- the delay in use: D, CAP, DBASE, and the first index of the ring -/
  delay : Nat
  cap   : Nat
  base  : Nat
  ringFrom : Nat
  /-- CAP or DBASE has been established anew since the last job (R131) -/
  moved : Bool
  trim  : F32
  gain  : F32
  mute  : Bool
  deriving DecidableEq, Repr

def OutSt.init : OutSt := ⟨false, 0, [], [], 0, 0, 0, 0, false, 0x3F800000, 0x3F800000, false⟩

/-- Feed conditioning (file 08). -/
structure Cond where
  feeds : NMap OutSt
  /-- established biquad coefficients b0, b1, b2, a1, a2: 16·feed + section -/
  coef  : NMap (List F32)
  /-- feeds reported by DELAY_INVALID and still invalid -/
  badSaid : List Nat
  deriving DecidableEq, Repr

def Cond.init : Cond := ⟨[], [], []⟩

/-- The gate of one channel of a serial port (R183): `opened` and a ramp position, with the frames waited for a crossing. -/
structure ChGate where
  opened : Bool
  prev   : F32
  waited : Nat
  /-- samples of the one-tick ramp done; none: no ramp -/
  ramp   : Option Nat
  deriving DecidableEq, Repr

def ChGate.init : ChGate := ⟨false, 0, 0, none⟩

/-- One serial port beyond its registers (R180 to R187). PRT_STAT holds its state code. -/
structure Port where
  /-- consecutive correct frames while ARMED, and consecutive incorrect ones -/
  good   : Nat
  bad    : Nat
  /-- house index of the next frame of a Locked port; none before the mapping of R180 -/
  next   : Option Nat
  /-- frames since reset (a Foreign port's counter) -/
  frames : Nat
  /-- one more than the highest index that a frame of this mapping has had -/
  top    : Nat
  /-- a PORT_ALIGN excursion, and frames within the window since -/
  astray : Bool
  inWin  : Nat
  /-- the slot mask in force, and the committed one that waits (R182) -/
  mask   : Word
  commit : Option Word
  ins    : NMap ChGate
  outs   : NMap ChGate
  /-- EN was established as 1 while STOPPING (R185) -/
  rearm  : Bool
  /-- correct link-test frames in a row; a first error after a pass not yet reported -/
  ltRun  : Nat
  ltFail : Bool
  /-- the last frame's values by slot -/
  lastIn : List F32
  /-- the slots last sent on SDO -/
  lastOut : List (Option Nat)
  /-- the commit that waits was made while RUNNING (R182) -/
  commitRun : Bool
  /-- no frame of this silent start has come yet -/
  fresh  : Bool
  /-- a mask has been applied at the frame that now comes: PRT_SMASK_AT takes its index (R182) -/
  atDue  : Bool
  /-- own indices delivered in the capture tick, and the first that a clock fault left out (R186) -/
  got    : NMap Nat
  faultAt : Option Nat
  deriving DecidableEq, Repr

def Port.init : Port := ⟨0, 0, none, 0, 0, false, 0, 3, none, [], [], false, 0, false, [], [], false, true, false, [], none⟩

/-- One AES3 receiver (R188, R189). -/
structure AesRx where
  /-- frames received -/
  frames : Nat
  /-- frames since the last Z preamble, that one included; 0 before the first -/
  sinceZ : Nat
  /-- no error since that preamble -/
  clean  : Bool
  /-- two Z preambles 192 error-free frames apart have been seen -/
  ready  : Bool
  bad    : Nat
  /-- channel-status and user bits gathered, subframes A and B, newest first -/
  csA    : List Bool
  csB    : List Bool
  uA     : List Bool
  uB     : List Bool
  /-- completed blocks not yet stored: C and U bits, first bit first -/
  doneA  : Option (List Bool × List Bool)
  doneB  : Option (List Bool × List Bool)
  deriving DecidableEq, Repr

def AesRx.init : AesRx := ⟨0, 0, false, false, 0, [], [], [], [], none, none⟩

/-- One AES3 transmitter (R191). -/
structure AesTx where
  /-- live channel status, 24 bytes -/
  live   : List Nat
  staged : Bool
  /-- the house index of its first frame -/
  from_  : Option Nat
  deriving DecidableEq, Repr

def AesTx.init : AesTx := ⟨List.replicate 24 0, false, none⟩

/-- How one Locked input reaches its input plane (R186, R198 to R200). Members 0–15 are serial ports, 16 + s stream s. -/
structure InMem where
  /-- house index = own index + eps -/
  eps    : Int
  /-- slips to come: house index and change of eps, oldest first -/
  marks  : List (Nat × Int)
  /-- an underrun episode: the member reads 0.0 -/
  zero   : Bool
  said   : Bool
  /-- the tick over which it fades in -/
  fadeAt : Option Nat
  deriving DecidableEq, Repr

def InMem.init : InMem := ⟨0, [], false, false, none⟩

/-- An alignment group with policy COHERENT (R186). -/
structure AGroup where
  zero : Bool
  /-- the previous index was a repeat -/
  rep  : Bool
  deriving DecidableEq, Repr

def AGroup.init : AGroup := ⟨false, false⟩

/-- One receive stream (R197 to R201). -/
structure RxStream where
  /-- own indices delivered and not yet consumed -/
  have_  : NMap Nat
  /-- sum and count of arrival margins -/
  margin : F32
  count  : Nat
  /-- tick of the last accepted packet plus 1, or of the stream's enable, red and blue; lost paths reported -/
  red    : Nat
  blue   : Nat
  redLost : Bool
  blueLost : Bool
  /-- tick of the last discard plus 1 -/
  lateAt : Nat
  deriving DecidableEq, Repr

def RxStream.init : RxStream := ⟨[], 0, 0, 0, 0, false, false, 0⟩

/-- Serial ports, AES3 and the network (files 11 and 12). -/
structure Net where
  /-- by AES3 receiver r, and 8 + p for serial port p: the frames that have arrived, and one more than the house index of each arrival (R172) -/
  arrive : NMap (NMap Nat)
  /-- consecutive samples at which FCLK missed its window, and consecutive good edges (R179) -/
  fclkMiss : Nat
  fclkGood : Nat
  ports  : NMap Port
  aesRx  : NMap AesRx
  aesTx  : NMap AesTx
  mems   : NMap InMem
  groups : NMap AGroup
  rx     : NMap RxStream
  /-- physical link by port -/
  phys   : NMap Bool
  /-- resolved unicast addresses: port·2³² + address ↦ the MAC plus 1 -/
  arp    : NMap Nat
  /-- consecutive boundaries with LINK 0 (R208), and with LINK 1 while in the egress set, by port -/
  downRun : NMap Nat
  upRun  : NMap Nat
  egressLost : Bool
  /-- transmit streams split: paired with a present partner, as of the last boundary (R204) -/
  splitOn : Bool
  /-- receive and transmit streams an abort has stopped for the rest of its tick: fading out from this capture tick -/
  stopping : List (Bool × Nat × Nat)
  deriving DecidableEq, Repr

def Net.init : Net := ⟨[], 0, 0, [], [], [], [], [], [], [], [], [], [], false, false, []⟩

/-- One domain: its protocol state and its servo (R212 to R214, R218). Times are in units of 2⁻¹⁶ ns. -/
structure Dom where
  /-- the master's port identity, and when its last Announce came, with logAnnounceInterval -/
  master : Nat
  annAt  : Rat
  annInt : Int
  /-- a two-step Sync that waits for its Follow_Up: sequenceId, t2 corrected, correctionField -/
  sync   : Option (Nat × Int × Int)
  /-- t4 − t3 less its correction, of the last delay exchange -/
  sm     : Option Int
  /-- sequenceId and corrected t3 of a Delay_Req not yet answered, and the next sequenceId -/
  t3     : Option (Nat × Int)
  reqSeq : Nat
  /-- Syncs faster than 128 per second -/
  fast   : Nat
  /-- the last offset: local time minus master time -/
  theta  : Option Int
  /-- the servo's estimate of local time minus its domain's time, which moves on with the two rates -/
  est    : Option Rat
  iAcc   : Rat
  rate   : Rat
  /-- rates after the last accepted offsets, newest first, at most 64 -/
  rates  : List Rat
  /-- consecutive accepted offsets within LOCK -/
  good   : Nat
  /-- the device's time in ns at which it became LOCKED, or ceased to be (R215) -/
  since  : Nat
  deriving DecidableEq, Repr

def Dom.init : Dom := ⟨0, 0, 0, none, none, none, 0, 0, none, none, 0, 0, [], 0, 0⟩

/-- Network time beyond its registers (file 13). -/
structure Ptp where
  domA   : Dom
  domB   : Dom
  /-- steering source: 0 none, 1 A, 2 B, 3 WCLK, 4 holdover -/
  src    : Nat
  /-- fractional rate correction in force -/
  rate   : Rat
  /-- rates of WCLK_IN's last periods, newest first, at most 64 -/
  rates  : List Rat
  /-- the slew remainder Θ, in units of 2⁻¹⁶ ns -/
  slew   : Rat
  /-- a slew has been reported, and its end not yet -/
  slewing : Bool
  /-- forward step scheduled: amount in units of 2⁻¹⁶ ns, and the tick D of its decision -/
  step   : Option (Rat × Nat)
  /-- the boundary M that ends a step in progress, and N -/
  stepTo : Option (Nat × Nat)
  /-- N and M of the last step: the ticks it passed over -/
  passed : Option (Nat × Nat)
  /-- the next offset is the first of a source adopted from holdover -/
  first  : Bool
  wclk   : Bool
  /-- consecutive good and bad periods of WCLK_IN (R221) -/
  wGood  : Nat
  wBad   : Nat
  /-- local time at WCLK_IN's edges less the nearest sample instant, and WCLK_IN's fractional rate -/
  wPhase : Rat
  wRate  : Rat
  /-- the host has written PTP_TIME while local time was invalid -/
  written : Bool
  /-- the selection in force while a write of PTP_SEL waits for boundary M (R223) -/
  resel  : Option Word
  deriving DecidableEq, Repr

def Ptp.init : Ptp := ⟨Dom.init, Dom.init, 0, 0, [], 0, false, none, none, none, false, false, 0, 0, 0, 0, false, none⟩

/-- One Listening Post channel (R227 to R232). -/
structure LpCh where
  /-- integrators a[1] … a[5] and combs z[1] … z[5] -/
  a      : List Word
  z      : List Word
  /-- the M instants of synchronisations that the channel's outputs are still to be formed through, rising; then the instant from which
  its states and outputs run -/
  sync   : List Nat
  from_  : Nat
  /-- peaks of the last ticks, newest first, and the mean square -/
  pks    : List F32
  ms     : F32
  /-- bank crossfade: first capture tick and length; length 0: none -/
  fade   : Nat × Nat
  deriving DecidableEq, Repr

def LpCh.init : LpCh := ⟨[0, 0, 0, 0, 0], [0, 0, 0, 0, 0], [], 0, [], 0, (0, 0)⟩

/-- The Listening Post beyond its registers (file 14). -/
structure Lpo where
  ch     : NMap LpCh
  /-- estimators with a RESET or an IR waiting for their next job -/
  reset  : List Nat
  ir     : List Nat
  /-- estimators in a run of skips -/
  skips  : List Nat
  deriving DecidableEq, Repr

def Lpo.init : Lpo := ⟨[], [], [], []⟩

/-- One channel of the Reference Drive (R244 to R248). -/
structure DrvCh where
  /-- 0 off, 1 common mode rising, 2 waiting for the boundary, 3 fading in, 4 running, 5 fading out, 6 common mode falling -/
  ph     : Nat
  gs     : F32
  /-- the device's time in ns at the last trip, and at the last fade-in (R248) -/
  tripAt : Nat
  runAt  : Nat
  /-- the retry delay expired during a shutdown or supply limit (R250) -/
  due    : Bool
  /-- consecutive PWM periods in which the current limit has acted (R246) -/
  limited : Nat
  deriving DecidableEq, Repr

def DrvCh.init : DrvCh := ⟨0, 0x3F800000, 0, 0, false, 0⟩

/-- The Reference Drive beyond its registers (file 15). -/
structure Drv where
  ch     : NMap DrvCh
  /-- next D sample (384 kHz) -/
  pos    : Nat
  /-- Pc in watts -/
  pc     : F32
  /-- power attenuation in units of 0.05 dB -/
  powAtt : Nat
  /-- attenuation in force in units of 0.025 dB -/
  att    : Nat
  /-- gf at the start and at the end of the tick -/
  gfOld  : F32
  gfNew  : F32
  deriving DecidableEq, Repr

def Drv.init : Drv := ⟨[], 0, 0, 0, 0, 0x3F800000, 0x3F800000⟩


/-- A request waiting in an SDRAM channel (R293). -/
structure DmcReq where
  /-- acceptance order on the channel -/
  seq     : Nat
  granule : Nat
  req     : Nat
  /-- ns since reset at acceptance -/
  at_     : Nat
  /-- a write's strobes by byte; for a read, empty -/
  strobes : List Bool
  /-- the flow of the job that reads (R352) -/
  flow    : Option Nat
  /-- the read part of a read-modify-write has been made (R296) -/
  begun   : Bool
  /-- was waiting under a hold when a window ended (R298) -/
  held    : Bool
  /-- a read's data: the granule as the last write accepted before it leaves it (R295) -/
  data    : List Byte
  /-- for a read: a write to the granule was accepted after it, and the beats that writes issued since it was issued have covered whole
  (R301, R304) -/
  later   : Bool
  whole   : List Nat
  deriving DecidableEq, Repr

/-- A request that found its queue full (R293). -/
structure DmcStall where
  granule : Nat
  req     : Nat
  op      : DmcOp
  deriving DecidableEq, Repr

/-- Data returned to a requester (R301). -/
structure DmcRet where
  granule : Nat
  req     : Nat
  err     : Bool
  data    : List Byte
  deriving DecidableEq, Repr

/-- One SDRAM channel beyond its registers (file 17). -/
structure DmcCh where
  seq     : Nat
  rq      : List DmcReq
  wq      : List DmcReq
  stalled : List DmcStall
  /-- reads issued and not yet returned, in issue order -/
  flight  : List DmcReq
  /-- the last return, and the granule and requester of the write acknowledged last (R293) -/
  ret     : Option DmcRet
  ack     : Option (Nat × Nat)
  /-- corrected granules to be written back, with the requester of their read (R301) -/
  wback   : List (Nat × Nat)
  drain   : Bool
  /-- open row + 1 by bank (32·rank + 4·bank group + bank) -/
  open_   : NMap Nat
  /-- activation counts by bank and row (R297) -/
  acts    : NMap (NMap Nat)
  /-- throttled pairs: 64·requester + bank -/
  thr     : List Nat
  /-- ns of the last issue + 1 of a requester to a bank -/
  lastIss : NMap Nat
  /-- commands are held until this ns -/
  holdTo  : Nat
  /-- refreshes due and postponed, and MR4, by rank -/
  owed    : NMap Nat
  mr4     : NMap Nat
  /-- ns at which the last refresh interval counted ended, and of the last MR4 poll, by rank (R299) -/
  refAt   : NMap Nat
  mr4At   : NMap Nat
  /-- the bank a same-bank refresh takes next, by rank (R299) -/
  sbNext  : NMap Nat
  /-- ns of the last request, by rank (R303) -/
  lastReq : NMap Nat
  /-- ns at which the window of R297 began, and of the last DQS tracking run (R300) -/
  winAt   : Nat
  trackAt : Nat
  /-- ranks in power-down -/
  pd      : List Nat
  /-- next granule index h of the scrubber -/
  scrub   : Nat
  /-- ns at which the scrubber's pass began + 1 (R302) -/
  passAt  : Nat
  /-- both channels are in self-refresh until this ns (R303) -/
  srTo    : Nat
  /-- tick of the last DMC_ECC_CORRECTED + 1 -/
  ceAt    : Nat
  deriving DecidableEq, Repr

def DmcCh.init : DmcCh := ⟨0, [], [], [], [], none, none, [], false, [], [], [], [], 0, [], [], [], [], [], [], 0, 0, [], 0, 0, 0, 0⟩

/-- One Gate slot of the partner (R267). -/
structure GateRx where
  valid  : Bool
  srcInv : Bool
  vs     : List F32
  deriving DecidableEq, Repr

/-- A Ledger entry (R269). -/
structure LEntry where
  seq    : Nat
  apply  : Nat
  ekind  : Nat
  origin : Nat
  rtag   : Nat
  body   : List Byte
  /-- it reached the unit after its boundary had begun (R278) -/
  late   : Bool
  /-- established -/
  done   : Bool
  deriving DecidableEq, Repr

/-- A submission relayed to the primary (R276): kind 0 the host's, 1 a mailbox frame of slot `arg`, 2 an activation, 3 a Detour firing. -/
structure Relay where
  rtag : Nat
  kind : Nat
  arg  : Nat
  at_  : Nat
  deriving DecidableEq, Repr

/-- A transfer being received (R270). -/
structure Xfer where
  content : Nat
  part    : Nat
  id      : Nat
  data    : NMap Byte
  /-- bytes received, and whether they came in ascending order -/
  count   : Nat
  inOrder : Bool
  deriving DecidableEq, Repr

/-- A committed EPOCH content (R280). -/
structure Epoch where
  e    : Nat
  x    : Nat
  seq  : Nat
  data : List Byte
  deriving DecidableEq, Repr

/-- The Twin engine beyond its registers (file 16). -/
structure Twn where
  /-- 0 OFF, 1 ALONE, 2 JOINING, 3 SERVING, 4 FAILING -/
  st       : Nat
  present  : Bool
  failed   : Bool
  lanes    : Nat
  inStep   : Bool
  /-- consecutive matching ticks -/
  run      : Nat
  /-- the boundary at which hold-off ends -/
  holdEnd  : Option Nat
  /-- RSTATE parts established since joining -/
  seeded   : List Nat
  /-- the next RSTATE part to send, and the next transfer identity -/
  seedNext : Nat
  xferId   : Nat
  /-- the unit has rendered since its last plan load (R280) -/
  rendered : Bool
  epochOk  : Bool
  sameId   : Bool
  baseSaid : Bool
  /-- next Bell SEQ, and the partner's last -/
  bellSeq  : Nat
  bellLast : Option Nat
  /-- ns of the last valid arrival + 1 on each path; 0: none -/
  bellAt   : Nat
  courAt   : Nat
  /-- ns + 1 from which valid traffic without FAILING has been heard (R263) -/
  since    : Nat
  bellAlarm : Bool
  courAlarm : Bool
  pFailing : Bool
  pEff     : Nat
  pBase    : Nat
  pHealth  : BitVec 64
  pPlan    : Option Nat
  planSaid : Bool
  /-- CFLAGS of the last Courier -/
  pFlags   : Nat
  pLedger  : Nat
  pNext    : Nat
  /-- claims of the Couriers received: compute tick ↦ claim + 1 -/
  couriers : NMap Nat
  gateRx   : NMap (NMap GateRx)
  compares : NMap (List Nat)
  /-- own CRCs of the compute tick in `ownTick` -/
  ownCrc   : List Nat
  ownTick  : Nat
  /-- slots whose blocks have been sent this tick -/
  sent     : List Nat
  fseq     : Nat
  expect   : Option Nat
  /-- FAILING has been entered and no reset has come since (R254) -/
  failing  : Bool
  /-- a mismatch episode, and the boundary of the last mismatch + 1 -/
  mism     : Bool
  misAt    : Nat
  /-- what each Gate slot played in the last tick: slot ↦ 1 local, 2 partner; unlisted: silence -/
  played   : NMap Nat
  /-- ticks + 1 of the last Bell fault, Courier fault and Ledger fault (R285) -/
  bellBad  : Nat
  courBad  : Nat
  ldgBad   : Nat
  /-- tick + 1 of the last uncorrectable error that scrubbing found, and the last ticks with a sequence retired late -/
  scrubBad : Nat
  lateTicks : List Nat
  /-- the next sequence to be assigned -/
  nextSeq  : Nat
  ledger   : List LEntry
  /-- entries received out of order -/
  held     : List LEntry
  gapSaid  : Nat
  relays   : List Relay
  rtag     : Nat
  xfers    : List Xfer
  epoch    : Option Epoch
  /-- boundaries put off while an EPOCH content is being established, oldest first; none: no establishing -/
  putOff   : Option (List (Nat × BoundaryIn))
  rstate   : Option (Nat × Nat × List Byte)
  /-- last capture tick + 1 for which a shared input arrived valid: kind·65536 + index -/
  shareOk  : NMap Nat
  /-- last capture tick + 1 for which it arrived at all -/
  shareAt  : NMap Nat
  adopting : Bool
  /-- the capture tick of a crossfade between own and shared inputs + 1 -/
  xfadeAt  : Nat
  /-- District partials received: member ↦ 512·capture tick + feed ↦ 1 + 4·claim + unit (0 A, 1 B, 2 unpaired); the block lies
  in the sample memory -/
  partial_ : NMap (NMap Nat)
  /-- member ↦ tick of its last frame + 1; the health words received since the last boundary, each plus 1; absent members reported -/
  memberAt : NMap Nat
  memberHealth : NMap Nat
  absent   : List Nat
  exclude  : Nat
  /-- the lead's exclusion masks by capture tick; the one that the sums of the current compute tick use (R20) -/
  excludes : NMap Nat
  maskUsed : Nat
  /-- the member that last sent a mask, + 1, and the tick of the last District frames sent + 1 -/
  lead     : Nat
  dstSent  : Nat
  deriving DecidableEq, Repr

def Twn.init : Twn where
  st := 0
  present := false
  failed := false
  lanes := 0
  inStep := false
  run := 0
  holdEnd := none
  seeded := []
  seedNext := 0
  xferId := 0
  rendered := false
  epochOk := false
  sameId := false
  baseSaid := false
  bellSeq := 0
  bellLast := none
  bellAt := 0
  courAt := 0
  since := 0
  bellAlarm := false
  courAlarm := false
  pFailing := false
  pEff := 0
  pBase := 0
  pHealth := 0
  pPlan := none
  planSaid := false
  pFlags := 0
  pLedger := 0
  pNext := 0
  couriers := []
  gateRx := []
  compares := []
  ownCrc := []
  ownTick := 0
  sent := []
  fseq := 0
  expect := none
  failing := false
  mism := false
  misAt := 0
  played := []
  bellBad := 0
  courBad := 0
  ldgBad := 0
  scrubBad := 0
  lateTicks := []
  nextSeq := 1
  ledger := []
  held := []
  gapSaid := 0
  relays := []
  rtag := 0
  xfers := []
  epoch := none
  putOff := none
  rstate := none
  shareOk := []
  shareAt := []
  adopting := false
  xfadeAt := 0
  partial_ := []
  memberAt := []
  memberHealth := []
  absent := []
  exclude := 0
  excludes := []
  maskUsed := 0
  lead := 0
  dstSent := 0

/-- A burst at the crossbar (R309). -/
structure Burst where
  req    : BurstIn
  /-- bytes already carried -/
  done   : Nat
  data   : List Byte
  err    : Bool
  /-- an access of the burst has been counted as SEC_DENIED (R323) -/
  denied : Bool
  /-- whether the master was secure as the burst was granted (R319) -/
  secure : Bool
  deriving DecidableEq, Repr

/-- The crossbar, security, debug and boot (files 18 and 19). -/
structure Sys where
  /-- 0 boot ROM, 1 firmware handed over, 2 firmware running with its residence tried, 3 ROM waiting for debug -/
  phase    : Nat
  /-- where the firmware came from: 0 flash, 1 host, 2 partner -/
  source   : Nat
  /-- flash directory entry that loaded the firmware -/
  entry    : Nat
  /-- the ROM's PCIe endpoint or Twin link is up and waits for an image -/
  waitHost : Bool
  waitTwin : Bool
  provisioning : Bool
  /-- bursts waiting, in arrival order, and the burst each target port holds -/
  waiting  : List BurstIn
  held     : List (Nat × Burst)
  /-- target ↦ master number last granted + 1 -/
  lastGrant : NMap Nat
  /-- configuration words whose stored parity is wrong -/
  badWords : List Nat
  /-- FAULT has been cleared and no scan has ended since -/
  scanDue  : Bool
  /-- a mismatch in the word of SYS_PARITY_ACT acts as DROP_CLAIM until it is rewritten -/
  actBad   : Bool
  dbgLevel : Nat
  dbgFails : Nat
  dbgLocked : Bool
  nonce    : Option (BitVec 256)
  nonces   : Nat
  /-- a power transition in progress: 1 NAP, 2 HIBERNATE -/
  entering : Nat
  /-- consecutive compute ticks in which a Quarter ran no job -/
  idleTicks : NMap Nat
  warnHot  : Bool
  /-- the PCIe link is up (R312, R364) -/
  pcieUp   : Bool
  /-- FAILING is being announced before a reset of these codes (R334) -/
  failing  : List Nat
  deriving DecidableEq, Repr

def Sys.init : Sys where
  phase := 0
  source := 0
  entry := 0
  waitHost := false
  waitTwin := false
  provisioning := false
  waiting := []
  held := []
  lastGrant := []
  badWords := []
  scanDue := false
  actBad := false
  dbgLevel := 0
  dbgFails := 0
  dbgLocked := false
  nonce := none
  nonces := 0
  entering := 0
  idleTicks := []
  warnHot := false
  pcieUp := false
  failing := []

/-- The output and bidirectional balls of banks A to D and DDR, those that are enabled together as one (R362, R369, R370): SDO of a
port, an AES3 transmitter, PDM_CLK, DEC_SYNC, the flash interface, SPI_MISO, TDO, an interrupt pin, the clock outputs, and an SDRAM
channel. -/
inductive OutBall where
  | sdo (p : Nat)
  | aesTx (t : Nat)
  | pdmClk | decSync | ospi | spiMiso | tdo
  | irqN (i : Nat)
  | mclkOut | wclkOut | ppsOut
  | ddr (c : Nat)
  deriving DecidableEq, Repr

/-- The states of the TAP controller (R371; IEEE 1149.1). -/
inductive TapState where
  | reset | idle
  | selectDr | captureDr | shiftDr | exit1Dr | pauseDr | exit2Dr | updateDr
  | selectIr | captureIr | shiftIr | exit1Ir | pauseIr | exit2Ir | updateIr
  deriving DecidableEq, Repr

/-- The TAP: its controller, and the cells of the boundary-scan register, one to each signal ball of banks A to D in the order of
`scanBalls` (R371). -/
structure Tap where
  st    : TapState
  cells : List Bool
  deriving DecidableEq, Repr

/-- Signal balls of banks A to D (R368 to R370). -/
def scanLength : Nat := 123
def Tap.init : Tap := ⟨.reset, List.replicate scanLength false⟩
/-- The local clock and the tick counter (R7, R8). -/
structure Clk where
  /-- local time is valid -/
  valid   : Bool
  /-- local time in units of 2⁻¹⁶ ns since the PTP epoch -/
  time    : Rat
  /-- SYS_TICK -/
  tick    : Nat
  /-- SYS_TICK has been given its first value -/
  started : Bool
  /-- whole ns of local time since the current boundary -/
  elapsed : Nat
  past    : Bool
  /-- boundaries since reset -/
  bounds  : Nat
  deriving DecidableEq, Repr

/-- The render pipeline (R13, R16) and a Closure in progress (R354). -/
structure Pipe where
  /-- the first capture tick, once RENDER_EN has taken effect -/
  from_   : Option Nat
  /-- what each Gate plays in the current tick: endpoint key ↦ 1 local, 2 partner; unlisted: silence -/
  gateSrc : NMap Nat
  /-- Gates play silence until this boundary, and fade in at it when `fadeIn` (R16, R220) -/
  silentTo : Nat
  fadeIn  : Bool
  /-- boundaries since the Closure was accepted -/
  closure : Option Nat
  /-- the Closure came from SYS_ABORT_CMD, and the tick and elapsed ns at which it was accepted -/
  closAbort : Bool
  closAt  : Nat × Nat
  /-- tick and elapsed ns at which the abort in progress was accepted -/
  abortAt : Nat × Nat
  /-- the abort in progress: kind and ID -/
  abort   : Option (Nat × Nat)
  deriving DecidableEq, Repr

/-- The retained image of a module in NAP (R330): Steward SRAM, and where its firmware came from. -/
structure Retained where
  sram   : NMap Byte
  source : Nat
  entry  : Nat
  deriving DecidableEq, Repr

/-- The power state (R329). `held`: powered and in reset, from a reset until its release; it carries a retained image that the
boot ROM has still to check. -/
inductive Pwr where
  | off
  | hibernate
  | nap (image : Option Retained)
  | held (image : Option Retained)
  | up
  deriving DecidableEq, Repr

/-- The Lamplighter beyond its registers (R326 to R334). Its registers are the words of block LMP and SYS_RESET_CAUSE, which a
reset leaves as they are. -/
structure Lmp where
  pwr    : Pwr
  /-- a THERMAL reset holds the device (R333) -/
  hot    : Bool
  /-- a retained image that the ROM has still to check after release (R330) -/
  resume : Option Retained
  /-- RTC words written and not yet in effect (R327) -/
  rtcHi  : Option Word
  rtcFrac : Option Word
  rtcNew : Option Word
  /-- time since the last RTC tick, in units of 2⁻¹⁵ ns: a tick is 10⁹ of them -/
  acc    : Nat
  /-- OSC_FALLBACKs that wait for the render die's power: their parameters, oldest first -/
  oscSay : List Nat
  /-- a wake source that acts once entry to low power is complete (R341) -/
  wakeReq : Option Nat
  /-- what the Steward watchdog has still to count, in ns (R328) -/
  wdog   : Nat
  /-- ns spent in NAP (R330) -/
  napNs  : Nat
  deriving DecidableEq, Repr

/-- What is programmed once (R320). -/
structure Otp where
  /-- hashes by slot 0–3, and 4 the debug key; unlisted: unprogrammed -/
  keys    : NMap (List Byte)
  revoked : BitVec 4
  hostTrust  : Bool
  dbgDisable : Bool
  /-- the unique identifier, byte 0 first -/
  uid     : BitVec 128
  /-- MAC address by Ethernet port -/
  mac     : NMap Nat
  deriving DecidableEq, Repr

/-- The device: everything but its OTP, the flash beside it and the commands waiting. -/
structure Dev where
  /-- registers as written, by BAR0 offset -/
  regs   : NMap Word
  /-- the established copy of the registers that take effect at a boundary (R11) -/
  est    : NMap Word
  /-- the latched high words of R315, by the offset of the high word -/
  latch  : NMap Word
  pendW  : List Pend
  /-- table windows as written and as established, by BAR0 offset -/
  tabW   : NMap Byte
  tabE   : NMap Byte
  /-- sample values: signal ↦ house sample index ↦ value; an unlisted sample is 0.0 -/
  samp   : NMap (NMap F32)
  /-- populated SDRAM contents, by byte address -/
  sdram  : NMap Byte
  /-- Steward SRAM -/
  sram   : NMap Byte
  clk    : Clk
  pipe   : Pipe
  evt    : Evt
  icx    : Icx
  obj    : Obj
  div    : Div
  rbt    : Rbt
  geo    : Geo
  conv   : Conv
  cond   : Cond
  net    : Net
  ptp    : Ptp
  lpo    : Lpo
  drv    : Drv
  straps : Straps
  /-- 8-byte beats of SDRAM that read as uncorrectable, by address ÷ 8 -/
  poison : List Nat
  /-- SDRAM channels by number -/
  dmc    : NMap DmcCh
  /-- output and bidirectional balls enabled since the last reset, whose pull-down is removed (R362) -/
  freed  : List OutBall
  /-- the SDRAM requester of the accesses being made (R292). The model's own record. -/
  sdBy   : Nat
  /-- the TAP (R371) -/
  tap    : Tap
  twn    : Twn
  sys    : Sys
  lmp    : Lmp
  resp   : Resp
  out    : List Out
  deriving DecidableEq, Repr

def Clk.init : Clk := ⟨false, 0, 0, false, 0, false, 0⟩
def Pipe.init : Pipe := ⟨none, [], 0, false, none, false, (0, 0), (0, 0), none⟩
def Evt.init : Evt := ⟨[], [], [], 0, [], 0, [], [], [], 0, []⟩
def Icx.init : Icx := ⟨[], [], [], [], [], 0, 0, 255, false, [], none, [], none⟩
def Obj.init : Obj := ⟨[], [], [], [], 0, [], [], [], ⟨[], [], []⟩⟩
def Div.init : Div := ⟨[], [], [], [], none, none, false⟩
def Rbt.init : Rbt := ⟨[], none, [], [], []⟩
def Geo.init : Geo := ⟨[], 0, [], [], 0, [], [], [], [], none, [], 0, [], []⟩
def Straps.init : Straps := ⟨0, false, 0⟩
def Lmp.init : Lmp := ⟨.up, false, none, none, none, none, 0, [], none, 2000000000, 0⟩

/-- The device with every register and memory at its reset value. -/
def Dev.init : Dev where
  regs := []
  est := []
  latch := []
  pendW := []
  tabW := []
  tabE := []
  samp := []
  sdram := []
  sram := []
  clk := Clk.init
  pipe := Pipe.init
  evt := Evt.init
  icx := Icx.init
  obj := Obj.init
  div := Div.init
  rbt := Rbt.init
  geo := Geo.init
  conv := Conv.init
  cond := Cond.init
  net := Net.init
  ptp := Ptp.init
  lpo := Lpo.init
  drv := Drv.init
  straps := Straps.init
  poison := []
  dmc := []
  freed := []
  sdBy := 0
  tap := Tap.init
  twn := Twn.init
  sys := Sys.init
  lmp := Lmp.init
  resp := ⟨false, []⟩
  out := []

def Otp.init : Otp := ⟨[], 0, false, false, 0, []⟩

/-- The whole machine. -/
structure State where
  dev     : Dev
  otp     : Otp
  /-- the octal-SPI flash, by offset -/
  flash   : NMap Byte
  /-- the commands waiting, first in, first out -/
  pending : List Instr
  deriving DecidableEq, Repr

/-- The machine right after the release of a power-on reset (R333, R335 to R337): blank OTP, so in the provisioning state and
waiting for a host LOAD; straps as in log entry 20. -/
def State.reset : State where
  dev := { Dev.init with
    regs := [(Off.SYS_RESET_CAUSE, 0x10000002)]
    freed := [.decSync, .ospi]
    sys := { Sys.init with
      provisioning := true
      pcieUp := true
      waitHost := true } }
  otp := Otp.init
  flash := []
  pending := []

end Sys2Proof.Machine
end

