-- ==== Sys2Proof/Machine/Ops.lean ====
section
/-! DEFINITION. The named operations over the state: reading and writing a register word or field, raising an event, sample
memory, table windows, and the shape every command's meaning has. -/

namespace Sys2Proof.Machine

/-- A register word as written. -/
def Dev.rd (d : Dev) (off : Nat) : Word := mget regReset d.regs off
/-- A register word as established (R11). -/
def Dev.re (d : Dev) (off : Nat) : Word := mget regReset d.est off
def Dev.wr (d : Dev) (off : Nat) (v : Word) : Dev := { d with regs := mset regReset d.regs off v }
def Dev.we (d : Dev) (off : Nat) (v : Word) : Dev := { d with est := mset regReset d.est off v }
/-- A field of a register as written, and as established. -/
def Dev.fld (d : Dev) (off hi lo : Nat) : Nat := getBits (d.rd off) hi lo
def Dev.efld (d : Dev) (off hi lo : Nat) : Nat := getBits (d.re off) hi lo
def Dev.setFld (d : Dev) (off hi lo v : Nat) : Dev := d.wr off (putBits (d.rd off) hi lo v)
def Dev.bit (d : Dev) (off i : Nat) : Bool := (d.rd off).getLsbD i
def Dev.ebit (d : Dev) (off i : Nat) : Bool := (d.re off).getLsbD i
def Dev.setBit (d : Dev) (off i : Nat) (b : Bool) : Dev := d.setFld off i i (if b then 1 else 0)
/-- A whole word from a number. -/
def Dev.wrN (d : Dev) (off v : Nat) : Dev := d.wr off (BitVec.ofNat 32 v)

/-- A counter field that saturates. -/
def Dev.bumpFld (d : Dev) (off hi lo n : Nat) : Dev :=
  d.setFld off hi lo (min (d.fld off hi lo + n) (2 ^ (hi + 1 - lo) - 1))
/-- A whole-word counter that saturates. -/
def Dev.bumpN (d : Dev) (off n : Nat) : Dev := d.bumpFld off 31 0 n
def Dev.bump (d : Dev) (off : Nat) : Dev := d.bumpN off 1

/-- The source block of a code (R343): block base ÷ 0x8000. -/
def evBlock (code : Nat) : Nat :=
  if code = 0x0101 ∨ code = 0x0103 then 0x04
  else if code = 0x0102 ∨ code = 0x0105 ∨ code = 0x0202 then 0x00
  else if code = 0x0104 then 0x2C
  else if code = 0x0106 then 0x2E
  else if code = 0x0201 ∨ code = 0x0204 then 0x2A
  else if code = 0x0203 then 0x02
  else if code = 0x0303 ∨ code = 0x0304 then 0x0A
  else if code / 256 = 0x03 then 0x08
  else if code = 0x0406 then 0x28
  else if code / 256 = 0x04 then 0x0C
  else if code = 0x0504 then 0x12
  else if code / 256 = 0x05 then 0x10
  else if code = 0x0604 then 0x16
  else if code / 256 = 0x06 then 0x14
  else if code / 256 = 0x07 then 0x18
  else if code = 0x0803 ∨ code = 0x0806 ∨ code = 0x0807 then 0x1B
  else if code / 256 = 0x08 then 0x1A
  else if code / 256 = 0x09 then 0x1E
  else if code / 256 = 0x0A then 0x20
  else if code / 256 = 0x0B then 0x1C
  else if code / 256 = 0x0C then 0x24
  else if code / 256 = 0x0D then 0x22
  else if code / 256 = 0x0E then 0x26
  else if code / 256 = 0x0F then 0x06
  else 0x30

/-- Raise an event of a named block (R342). -/
def Dev.raiseB (d : Dev) (block code inst param : Nat) : Dev :=
  { d with evt := { d.evt with fresh := d.evt.fresh ++ [⟨code, inst, block, param % 2 ^ 32, d.clk.tick⟩] } }
/-- Raise an event (R342, R343). -/
def Dev.raise (d : Dev) (code inst param : Nat) : Dev := d.raiseB (evBlock code) code inst param

/-- The order of R344: by code, then by instance. -/
def EvRec.before (a b : EvRec) : Bool := decide (a.code < b.code) || (a.code == b.code && decide (a.inst ≤ b.inst))

/-- Insertion in the order of R344, after the events it does not precede. -/
def evInsert (e : EvRec) : List EvRec → List EvRec
  | [] => [e]
  | x :: xs => if EvRec.before x e then x :: evInsert e xs else e :: x :: xs

def evSort (es : List EvRec) : List EvRec := es.foldl (fun acc e => evInsert e acc) []

/-- The events raised together join the queue in the order of R344. -/
def Dev.settle (d : Dev) : Dev :=
  { d with evt := { d.evt with raised := d.evt.raised ++ evSort d.evt.fresh, fresh := [] } }

/-- The 16 bytes of an event record (R342). -/
def EvRec.bytes (e : EvRec) : List Byte :=
  leBytes 4 (e.inst % 256 * 2 ^ 24 + e.block % 256 * 2 ^ 16 + e.code % 65536) ++ leBytes 4 e.param ++ leBytes 8 e.tick

/-- Something sent to the outside world. -/
def Dev.emit (d : Dev) (o : Out) : Dev := { d with out := d.out ++ [o] }

/-- The tick length L (R7). -/
def Dev.L (d : Dev) : Nat := if d.div.rate96 then 32 else 16
/-- The house rate. -/
def Dev.fs (d : Dev) : Nat := if d.div.rate96 then 96000 else 48000
def Dev.rendering (d : Dev) : Bool := d.bit Off.SYS_CTL 1
/-- The local sample index at a rate: complete samples of local time (R7); the boundary's index before time is valid. -/
def Dev.nowIndex (d : Dev) (fs : Nat) : Nat :=
  if d.clk.valid then (d.clk.time * fs / (1000000000 * 65536)).floor.toNat else d.clk.tick * (fs / 3000)
/-- ns of the device's own time since its first boundary: no validity and no step of local time touches them. -/
def Dev.nsNow (d : Dev) : Nat := d.clk.bounds * 1000000 / 3 + d.clk.elapsed
/-- Elapsed µs from an instant (tick, ns) to now. -/
def Dev.usSince (d : Dev) (t : Nat × Nat) : Nat :=
  ((d.clk.tick * 1000000 / 3 + d.clk.elapsed) - (t.1 * 1000000 / 3 + t.2)) / 1000

-- Signals of the sample memory. A signal number is kind·2²⁰ + index.
namespace Sig
def objIn (o : Nat) : Nat := 0x100000 + o
def feedBus (f : Nat) : Nat := 0x200000 + f
def feedOut (f : Nat) : Nat := 0x300000 + f
def netRx (c : Nat) : Nat := 0x400000 + c
def serialIn (i : Nat) : Nat := 0x500000 + i
def asrcOut (c : Nat) : Nat := 0x600000 + c
def lpIn (c : Nat) : Nat := 0x700000 + c
def lpM (c : Nat) : Nat := 0x800000 + c
def diffuse (i : Nat) : Nat := 0x900000 + i
def headBus (i : Nat) : Nat := 0xA00000 + i
def lane (i : Nat) : Nat := 0xB00000 + i
def dest (j : Nat) : Nat := 0xC00000 + j
def aesIn (i : Nat) : Nat := 0xD00000 + i
def measRef (e : Nat) : Nat := 0xE00000 + e
def netForeign (c : Nat) : Nat := 0xF00000 + c
def conv (f : Nat) : Nat := 0x1000000 + f
def cond (f : Nat) : Nat := 0x1100000 + f
def partner (g : Nat) : Nat := 0x1200000 + g
def district (i : Nat) : Nat := 0x1300000 + i
def drive (c : Nat) : Nat := 0x1400000 + c
def serialForeign (i : Nat) : Nat := 0x1500000 + i
def bass (g : Nat) : Nat := 0x1600000 + g
def gateOut (k : Nat) : Nat := 0x1700000 + k
def serialRaw (i : Nat) : Nat := 0x1800000 + i
def own (kind i : Nat) : Nat := 0x1C00000 + 65536 * kind + i
def slot (j : Nat) : Nat := 0x1E00000 + j
def partial_ (m f : Nat) : Nat := 0x1D00000 + 512 * m + f
def cic (c : Nat) : Nat := 0x1B00000 + c
def hb1 (c : Nat) : Nat := 0x1B10000 + c
def hb2 (c : Nat) : Nat := 0x1B20000 + c
def rxRaw (s c : Nat) : Nat := 0x1900000 + 64 * s + c
end Sig

/-- A sample; 0.0 where none has been written. -/
def Dev.sget (d : Dev) (sig n : Nat) : F32 := mget (fun _ => 0) (mget (fun _ => []) d.samp sig) n
/-- The sample at a signed index; 0.0 before index 0. -/
def Dev.sgetI (d : Dev) (sig : Nat) (n : Int) : F32 := if n < 0 then 0 else d.sget sig n.toNat
def Dev.sput (d : Dev) (sig n : Nat) (v : F32) : Dev :=
  { d with samp := mset (fun _ => []) d.samp sig (mset (fun _ => 0) (mget (fun _ => []) d.samp sig) n v) }
def Dev.sputs (d : Dev) (sig n : Nat) (vs : List F32) : Dev :=
  { d with samp := mset (fun _ => []) d.samp sig (msetList (fun _ => 0) (mget (fun _ => []) d.samp sig) n vs) }
/-- The block of tick t of a signal. -/
def Dev.blockOf (d : Dev) (sig t : Nat) : List F32 := (List.range d.L).map (fun k => d.sget sig (t * d.L + k))

/-- Does the partner own an input (R273)? Kinds: 1 serial slot, 2 ASRC channel, 3 Listening Post channel. -/
def Dev.partnerOwns (d : Dev) (kind i : Nat) : Bool :=
  d.ebit Off.TWN_CTL 31 &&
    ((match kind with
      | 1 => d.bit Off.TWN_OWN_PRT (i / 32)
      | 2 => if i < 32 then d.bit Off.TWN_OWN_ASRC_LO i else d.bit Off.TWN_OWN_ASRC_HI (i - 32)
      | _ => d.bit Off.TWN_OWN_LP i) != d.straps.twinB)
/-- Has a shared input's block for capture tick t arrived? -/
def Dev.shareArrived (d : Dev) (kind i t : Nat) : Bool := decide (t + 1 ≤ mget (fun _ => 0) d.twn.shareAt (kind * 65536 + i))
/-- Does the unit read the partner's samples, or 0.0, in place of its own port (R273 to R275)? -/
def Dev.sharedIn (d : Dev) (kind i : Nat) : Bool := d.partnerOwns kind i && !(d.twn.adopting && kind != 3)
/-- A kernel that reads a shared sample of capture tick t still waits for it: until it arrives or the render deadline passes (R274). An
absent or failed partner's inputs are not waited for. -/
def Dev.shareAwaited (d : Dev) (kind i t : Nat) : Bool :=
  d.sharedIn kind i && d.twn.present && !d.twn.failed && !d.clk.past && !d.shareArrived kind i t
/-- A shared input whose block for capture tick t has not arrived valid (R274). -/
def Dev.sharedBad (d : Dev) (kind i t : Nat) : Bool :=
  decide (mget (fun _ => 0) d.twn.shareOk (kind * 65536 + i) < t + 1)

/-- The home of a shared feed; none: the feed is not shared (R286). -/
def Dev.dstHome (d : Dev) (f : Nat) : Option Nat :=
  if d.ebit Off.TWN_CTL 28 && d.bit (Off.TWN_DST_HOME f) 31 then some (d.fld (Off.TWN_DST_HOME f) 2 0) else none
def Dev.dstMember (d : Dev) : Nat := d.fld Off.TWN_DST_CFG 18 16
/-- The bus that conditioning takes for capture tick t: the District sum of a shared feed at its home (R287). -/
def Dev.condBus (d : Dev) (f t : Nat) : List F32 :=
  d.blockOf (if d.dstHome f = some d.dstMember then Sig.district f else Sig.feedBus f) t
/-- A feed whose home is another member: its FEED_OUT reads 0.0 (R287). -/
def Dev.dstAway (d : Dev) (f : Nat) : Bool :=
  match d.dstHome f with
  | some m => m != d.dstMember
  | none => false

/-- Bytes of a table window as written and as established. -/
def Dev.tw (d : Dev) (off : Nat) : Byte := bget d.tabW off
def Dev.te (d : Dev) (off : Nat) : Byte := bget d.tabE off
def Dev.te16 (d : Dev) (off : Nat) : Nat := (d.te off).toNat + 256 * (d.te (off + 1)).toNat
def Dev.te32 (d : Dev) (off : Nat) : Nat := d.te16 off + 65536 * d.te16 (off + 2)
def Dev.tef (d : Dev) (off : Nat) : F32 := BitVec.ofNat 32 (d.te32 off)
def Dev.tw16 (d : Dev) (off : Nat) : Nat := (d.tw off).toNat + 256 * (d.tw (off + 1)).toNat
def Dev.tw32 (d : Dev) (off : Nat) : Nat := d.tw16 off + 65536 * d.tw16 (off + 2)
def setBytes (m : NMap Byte) (off : Nat) (bs : List Byte) : NMap Byte := msetList (fun _ => 0) m off bs
def getBytes (m : NMap Byte) (off n : Nat) : List Byte := mgetList (fun _ => 0) m off n
/-- Bytes written to a window as written, or established at once in both copies. -/
def Dev.setTabW (d : Dev) (off : Nat) (bs : List Byte) : Dev := { d with tabW := setBytes d.tabW off bs }
def Dev.setTabE (d : Dev) (off : Nat) (bs : List Byte) : Dev := { d with tabE := setBytes d.tabE off bs }
def Dev.setTab (d : Dev) (off : Nat) (bs : List Byte) : Dev := (d.setTabW off bs).setTabE off bs

/-- Populated SDRAM in bytes, once both channels read INIT_DONE (R290). -/
def Dev.populated (d : Dev) : Nat :=
  if d.bit (Off.DMC_CTL 0) 30 && d.bit (Off.DMC_CTL 1) 30 then (d.rd (Off.DMC_SIZE 0)).toNat * 2 ^ 20 else 0
/-- The staging area is the highest 21 MiB of populated SDRAM (R30). -/
def Dev.stagingBase (d : Dev) : Nat := d.populated - 21 * 2 ^ 20
def Dev.stagingArea (d : Dev) : Nat × Nat := (d.stagingBase, d.populated)

/-- An output or bidirectional ball is enabled: its pull-down is removed, until the next reset (R362). -/
def Dev.free (d : Dev) (b : OutBall) : Dev := if d.freed.contains b then d else { d with freed := d.freed ++ [b] }
def Dev.freeAll (d : Dev) (bs : List OutBall) : Dev := bs.foldl Dev.free d

/-- An access through the TAP leaves its controller in Run-Test/Idle (R371). -/
def Dev.tapAccess (d : Dev) : Dev := { d.free .tdo with tap := { d.tap with st := .idle } }

/-- A change that waits for the next boundary. -/
def Dev.later (d : Dev) (p : Pend) : Dev := { d with pendW := d.pendW ++ [p] }

/-- The established copy follows a device's own change of a register at once. -/
def Dev.wrBoth (d : Dev) (off : Nat) (v : Word) : Dev := (d.wr off v).we off v
def Dev.setFldBoth (d : Dev) (off hi lo v : Nat) : Dev :=
  (d.setFld off hi lo v).we off (putBits (d.re off) hi lo v)

/-- Do `f` for each of 0 … n−1 in turn. -/
def forN {σ : Type} (n : Nat) (f : Nat → σ → σ) (s : σ) : σ := (List.range n).foldl (fun s i => f i s) s
/-- Do `f` for each element in turn. -/
def forL {σ α : Type} (l : List α) (f : α → σ → σ) (s : σ) : σ := l.foldl (fun s a => f a s) s

/-- First index below n that satisfies p. -/
def firstN (n : Nat) (p : Nat → Bool) : Option Nat := (List.range n).find? p
def sumN (n : Nat) (f : Nat → Nat) : Nat := (List.range n).foldl (fun a i => a + f i) 0
def countN (n : Nat) (p : Nat → Bool) : Nat := ((List.range n).filter p).length

end Sys2Proof.Machine
end

