-- ==== Sys2Proof/Machine/Roundabout.lean ====
section
/-! DEFINITION. The Roundabout: endpoints, crosspoints, zero-crossing steps, MOVE and the half-band Bridges (file 10). -/

namespace Sys2Proof.Machine

def xpBase (x : Nat) : Nat := 0x1C00000 + 16 * x
def srcMap (i : Nat) : Nat := 0x1C40000 + 4 * i
def dstMap (j : Nat) : Nat := 0x1C42000 + 4 * j

/-- The signal a source slot names (R160); none reads 0.0. -/
def srcSignal (w : Nat) : Option Nat :=
  let i := w % 65536
  match w / 2 ^ 24 with
  | 1 => if i < 1024 then some (Sig.objIn i) else none
  | 2 => if i < 512 then some (Sig.feedOut i) else none
  | 3 => if i < 1536 then some (Sig.netRx i) else none
  | 4 => if i < 512 then some (Sig.serialIn i) else none
  | 5 => if i < 64 then some (Sig.asrcOut i) else none
  | 6 => if i < 16 then some (Sig.lpIn i) else none
  | _ => none

/-- Is the source a render output, which input routing reads one tick back (R17, R163)? -/
def srcIsRender (w : Nat) : Bool := decide (w / 2 ^ 24 = 1) || decide (w / 2 ^ 24 = 2)

/-- The destination endpoint a slot names: type and index (R160); none discards the sum. -/
def dstEndpoint (w : Nat) : Option (Nat × Nat) :=
  let i := w % 65536
  match w / 2 ^ 24 with
  | 1 => if i < 1536 then some (1, i) else none
  | 2 => if i < 512 then some (2, i) else none
  | 3 => if i < 16 then some (3, i) else none
  | 4 => if i < 12 then some (4, i) else none
  | 5 => if i < 16 then some (5, i) else none
  | 6 => if i < 1024 then some (6, i) else none
  | _ => none

/-- The signal number of a destination endpoint. -/
def endpointSig (e : Nat × Nat) : Nat := if e.1 = 6 then Sig.objIn e.2 else Sig.dest (e.1 * 65536 + e.2)

def Dev.srcSlot (d : Dev) (i : Nat) : Nat := if i < 2048 then d.te32 (srcMap i) else 0
def Dev.dstSlot (d : Dev) (j : Nat) : Nat := if j < 2048 then d.te32 (dstMap j) else 0

def Dev.xp (d : Dev) (x : Nat) : Xp := mget (fun _ => Xp.init) d.rbt.xp x
def Dev.setXp (d : Dev) (x : Nat) (v : Xp) : Dev :=
  { d with rbt := { d.rbt with xp := mset (fun _ => Xp.init) d.rbt.xp x v } }

/-- GAIN as used (R162). -/
def gainUsed (g : F32) : F32 := if isFin g then boundMag' g else 0
where boundMag' (g : F32) : F32 := if flt f16 g then f16 else if flt g (fneg f16) then fneg f16 else g

/-- Is an entry's crosspoint in use (R162)? -/
def entryInUse (m : NMap Byte) (x : Nat) : Bool :=
  (bget m (xpBase x + 4)).getLsbD 0 && decide (leNat (getBytes m (xpBase x) 2) < 2048) &&
    decide (leNat (getBytes m (xpBase x + 2) 2) < 2048)

def Dev.xpInUse (d : Dev) (x : Nat) : Bool := entryInUse d.tabE x
def Dev.xpSrc (d : Dev) (x : Nat) : Nat := d.te16 (xpBase x)
def Dev.xpDst (d : Dev) (x : Nat) : Nat := d.te16 (xpBase x + 2)
def Dev.xpGain (d : Dev) (x : Nat) : F32 := gainUsed (d.tef (xpBase x + 8))

/-- The crosspoints in use, ascending: their XFLAGS byte is not 0, so it is listed. -/
def Dev.usedXps (d : Dev) : List Nat :=
  d.tabE.filterMap (fun e =>
    if 0x1C00000 ≤ e.1 ∧ e.1 < 0x1C40000 ∧ (e.1 - 0x1C00000) % 16 = 4 ∧ d.xpInUse ((e.1 - 0x1C00000) / 16)
    then some ((e.1 - 0x1C00000) / 16) else none)

/-- Z of R165 in candidates. -/
def Dev.zcLimit (d : Dev) : Nat :=
  let t := d.efld Off.RBT_CTL 6 0
  let t := if t = 0 then 1 else min t 100
  t * (if d.div.rate96 then 96 else 48)

/-! ### Steps (R164, R165, R167) -/

/-- A MOVE completes when both crosspoints have stepped (R167). -/
def Dev.moveCheck (d : Dev) : Dev :=
  match d.rbt.move with
  | none => d
  | some m =>
    let d := if !m.oldDone && !(d.xp m.old).pending then
        let d := if feq (d.xp m.old).cur 0 then
            let v := fun (b : Byte) => b &&& 0xFE
            (d.setTabE (xpBase m.old + 4) [v (d.te (xpBase m.old + 4))]).setTabW (xpBase m.old + 4) [v (d.tw (xpBase m.old + 4))]
          else d
        d
      else d
    let m := { m with oldDone := m.oldDone || !(d.xp m.old).pending, newDone := m.newDone || !(d.xp m.new).pending }
    if m.oldDone && m.newDone then { d with rbt := { d.rbt with move := none } }.setFld Off.RBT_MOVE_CMD 30 28 3
    else { d with rbt := { d.rbt with move := some m } }

/-- The step of a crosspoint: CUR_GAIN takes the target (R164); at the timeout it is marked, counted and reported (R165). -/
def Dev.stepXp (d : Dev) (x : Nat) (timeout : Bool) : Dev :=
  let p := d.xp x
  let d := d.setXp x { p with cur := p.target, pending := false, timedOut := timeout, force := false }
  let d := if timeout then (d.bump Off.RBT_ZC_TMO_CNT).raise 0x0701 0 x else d
  d.moveCheck

/-- Is a sample a crossing, given the sample before it (R164)? -/
def isCrossing (prev v : F32) : Bool :=
  isZero v || (!isZero prev && !isNaN v && !isNaN prev && fsign v != fsign prev)

/-- One sample of a crosspoint's evaluation: the gain that applies to it, and the state after it (R164, R165). -/
def Dev.xpSample (d : Dev) (x : Nat) (v : F32) : Dev × F32 :=
  let p := d.xp x
  if p.pending then
    let timeout := decide (d.zcLimit ≤ p.cand)
    if p.force then
      let d := d.stepXp x false
      (d.setXp x { d.xp x with prev := v }, p.target)
    else if isCrossing p.prev v && !timeout then
      let d := d.stepXp x false
      (d.setXp x { d.xp x with prev := v }, p.target)
    else if timeout then
      let d := d.stepXp x true
      (d.setXp x { d.xp x with prev := v }, p.target)
    else (d.setXp x { p with cand := p.cand + 1, prev := v }, p.cur)
  else (d.setXp x { p with prev := v }, p.cur)

/-- A crosspoint begins its evaluation of capture tick t from a source endpoint: the sample before position 0 is kept only when
the last block read was of the preceding tick and the same endpoint (R164). -/
def Dev.xpBegin (d : Dev) (x sig t : Nat) : Dev :=
  let p := d.xp x
  let keep := p.prevSig == sig && decide (p.prevTick + 1 = t)
  d.setXp x { p with prev := if keep then p.prev else 0, prevSig := sig, prevTick := t }

/-- The block a source slot gives to a slot formed for capture tick t (R163). -/
def Dev.srcBlock (d : Dev) (slot t : Nat) (input : Bool) : List F32 :=
  let w := d.srcSlot slot
  match srcSignal w with
  | none => List.replicate d.L 0
  | some sg => d.blockOf sg (if input && srcIsRender w then t - 1 else t)

/-- One crosspoint added to a slot's sums (R163). -/
def Dev.mixXp (d : Dev) (x t : Nat) (input : Bool) (acc : List F32) : Dev × List F32 :=
  let w := d.srcSlot (d.xpSrc x)
  let blk := d.srcBlock (d.xpSrc x) t input
  let d := d.xpBegin x ((srcSignal w).getD 0) t
  let r := forL (blk.zip acc) (fun (q : F32 × F32) (st : Dev × List F32) =>
    let g := st.1.xpSample x q.1
    (g.1, ffma g.2 q.1 q.2 :: st.2)) (d, [])
  (r.1, r.2.reverse)

/-- Destination slot j formed for capture tick t (R163): its block, and the crosspoints' states after it. -/
def Dev.formSlot (d : Dev) (j t : Nat) (input : Bool) : Dev × List F32 :=
  let start := match dstEndpoint (d.dstSlot j) with
    | some (6, o) => (match (let v := d.te16 (0x1000000 + 128 * o + 4); if v < 2048 then some v else none) with
        | some s => d.srcBlock s t input
        | none => List.replicate d.L 0)
    | _ => List.replicate d.L 0
  let xs := d.usedXps.filter (fun x => decide (d.xpDst x = j))
  forL xs (fun x (st : Dev × List F32) => st.1.mixXp x t input st.2) (d, start)

/-- The lowest destination slot that names an endpoint drives it (R161). -/
def Dev.drivesEndpoint (d : Dev) (j : Nat) (e : Nat × Nat) : Bool :=
  firstN 2048 (fun i => dstEndpoint (d.dstSlot i) == some e) == some j

/-- One sample of a block with a one-tick fade: mode 0 none, 1 out, 2 in, 3 silence (R16, R172, R220). -/
def fadeSample (mode L k : Nat) (v : F32) : F32 :=
  let w := fdiv (fofNat (k + 1)) (fofNat L)
  match mode with
  | 0 => v
  | 1 => if k + 1 = L then 0 else fmul v (fsub fone w)
  | 2 => if k + 1 = L then v else fmul v w
  | _ => 0

/-- A one-tick fade-in of a block (R149). -/
def fadeBlock (fade : Bool) (n : Nat) (vs : List F32) : List F32 :=
  if fade then ((List.range vs.length).zip vs).map (fun p => fmul p.2 (if p.1 + 1 = n then fone else fdiv (fofNat (p.1 + 1)) (fofNat n)))
  else vs

/-- One RBT_MIX item (R161, R163): `input` for PARAM0 = 0. A slot that does not drive its endpoint keeps its block for its own Gate. -/
def Dev.rbtItem (d : Dev) (j t : Nat) (input fade : Bool) : Dev :=
  match dstEndpoint (d.dstSlot j) with
  | none => if (d.dstSlot j / 2 ^ 24 == 6) == input then (d.formSlot j t input).1 else d
  | some e =>
    if (e.1 == 6) != input then d
    else
      let r := d.formSlot j t input
      if r.1.drivesEndpoint j e then
        -- an inactive object's history is not written (R97)
        if e.1 = 6 ∧ !(r.1.te (0x1000000 + 128 * e.2 + 2)).getLsbD 0 then r.1
        else r.1.sputs (endpointSig e) (t * d.L) (fadeBlock fade d.L r.2)
      else
        let key := e.1 * 65536 + e.2
        let d := r.1.bump Off.RBT_CONFLICT_CNT
        let d := if 1 ≤ e.1 ∧ e.1 ≤ 4 then d.sputs (Sig.slot j) (t * d.L) (fadeBlock fade d.L r.2) else d
        if d.icx.conflicts.contains key then d
        else { d with icx := { d.icx with conflicts := key :: d.icx.conflicts } }.raise 0x0702 0 (e.1 * 2 ^ 24 + e.2)

/-! ### Establishing crosspoint writes (R164 to R167) -/

/-- A crosspoint takes a new target established now (R164, R165). -/
def Dev.retarget (d : Dev) (x : Nat) (g : F32) : Dev :=
  let p := d.xp x
  if p.pending then
    if feq g p.cur then (d.setXp x { p with target := g, pending := false }).moveCheck else d.setXp x { p with target := g }
  else if feq g p.cur then d.setXp x { p with target := g }
  else d.setXp x { p with target := g, pending := true, cand := 0, force := false }

/-- A write into the crosspoint window is established (R162, R164, R166); PENDING and TIMED_OUT are read-only. -/
def Dev.estXp (d : Dev) (off : Nat) (bs : List Byte) : Dev :=
  let x := (off - 0x1C00000) / 16
  let rel := (off - 0x1C00000) % 16
  if 16384 ≤ x then d
  else
    let cells := ((List.range bs.length).zip bs).filter (fun p => decide (rel + p.1 < 12))
    let old := d.tabE
    let new := cells.foldl (fun m p => bset m (off + p.1) (if rel + p.1 = 4 then p.2 &&& 1 else if rel + p.1 = 5 then 0 else p.2)) old
    let p := d.xp x
    let path := decide (getBytes new (xpBase x) 4 ≠ getBytes old (xpBase x) 4) ||
      ((bget old (xpBase x + 4)).getLsbD 0 && !(bget new (xpBase x + 4)).getLsbD 0)
    let refuse := path && (p.pending || !feq p.cur 0)
    let was := entryInUse old x
    let new := if refuse then setBytes new (xpBase x) (getBytes old (xpBase x) 6) else new
    let d := { d with tabE := new }
    let d := if refuse then ((d.setTabW (xpBase x) (getBytes old (xpBase x) 6)).bump Off.RBT_REFUSE_CNT).raise 0x0703 0 x else d
    let now := d.xpInUse x
    if now && !was then (d.setXp x { d.xp x with cur := 0, pending := false }).retarget x (d.xpGain x)
    else if now && decide (rel < 12) && decide (8 < rel + bs.length) then d.retarget x (d.xpGain x)
    else d

/-- A MOVE established at a boundary (R167). -/
def Dev.estMove (d : Dev) (old new : Nat) (gain : F32) : Dev :=
  if old = new ∨ (d.xp new).pending ∨ !feq (d.xp new).cur 0 then d.setFld Off.RBT_MOVE_CMD 30 28 4
  else
    let d := (d.setTab (xpBase old + 8) (leBytes 4 0)).retarget old 0
    let d := (d.setTabE (xpBase new + 4) [d.te (xpBase new + 4) ||| 1]).setTabW (xpBase new + 4) [d.tw (xpBase new + 4) ||| 1]
    let d := d.setTab (xpBase new + 8) (leBytes 4 gain.toNat)
    let d := if d.xpInUse new then d.retarget new (gainUsed gain) else d
    { (d.setFld Off.RBT_MOVE_CMD 30 28 2) with rbt := { d.rbt with move := some ⟨old, new, false, false⟩ } }.moveCheck

/-- The RO half of a crosspoint's XFLAGS byte and its CUR_GAIN, for a read (R162). -/
def Dev.xpFlags (d : Dev) (x : Nat) (b : Byte) : Byte :=
  (b &&& 1) ||| (if (d.xp x).pending then 2 else 0) ||| (if (d.xp x).timedOut then 4 else 0)

/-- The counts of RBT_STAT at a boundary, and the end of conflict episodes. -/
def Dev.rbtBoundary (d : Dev) : Dev :=
  let used := d.usedXps.length
  let pend := (d.rbt.xp.filter (fun e => e.2.pending)).length
  let d := d.wrN Off.RBT_STAT (used * 2 ^ 15 + pend)
  let live := d.icx.conflicts.filter (fun k =>
    decide (1 < countN 2048 (fun i => dstEndpoint (d.dstSlot i) == some (k / 65536, k % 65536))))
  { d with icx := { d.icx with conflicts := live } }

/-- A forward step of local time: pending steps are made at position 0 of the next block (R165). -/
def Dev.xpTimeStep (d : Dev) : Dev :=
  { d with rbt := { d.rbt with xp := d.rbt.xp.map (fun (e : Nat × Xp) => (e.1, if e.2.pending then { e.2 with force := true } else e.2)) } }

/-! ### Bridges (R168 to R170) -/

/-- The window w(n) of R169 in units of 2⁻⁶⁰⁰. -/
def hbWindow (n : Nat) : Int :=
  42 * 2 ^ 600 / 100 + cosQ (n * 180 : Nat) 32 / 2 + 8 * cosQ (n * 360 : Nat) 32 / 100

/-- c[i] of R169; RBT_HB_COEF reads it, and 1.0 at i = 0. -/
def hbCoef (i : Nat) : F32 :=
  if i = 0 then fone
  else
    let v := 2 * hbWindow (2 * i - 1) * 2 ^ 600 / ((piFix * (2 * i - 1) : Nat) : Int)
    roundFix (if i % 2 = 1 then v else -v)

/-- i = 16 down to 1. -/
def hbSum (f : Nat → F32) : F32 :=
  ((List.range 16).map (fun k => 16 - k)).foldl (fun v i => ffma (hbCoef i) (f i) v) 0

/-- One sample of the M→H Bridge at 96 kHz. -/
def Dev.mToH (d : Dev) (c n : Nat) : F32 :=
  let m : Int := (n / 2 : Nat)
  if n % 2 = 1 then d.sgetI (Sig.lpM c) (m - 15)
  else hbSum (fun i => fadd (d.sgetI (Sig.lpM c) (m - 14 - i)) (d.sgetI (Sig.lpM c) (m - 17 + i)))

/-- One sample of the H→M Bridge at 96 kHz. -/
def Dev.hToM (d : Dev) (e m : Nat) : F32 :=
  let s := Sig.dest (5 * 65536 + e)
  let m2 : Int := (2 * m : Nat)
  let v := hbSum (fun i => fadd (d.sgetI s (m2 - 30 - 2 * i)) (d.sgetI s (m2 - 32 + 2 * i)))
  fmul fhalf (fadd (d.sgetI s (m2 - 31)) v)

/-- Sample m at 384 kHz of the interpolation of a house-rate signal (R170): it stands for the instant 48 samples before m, and
depends on the 48/r house samples on either side of it, where r = 8 at 48 kHz and 4 at 96 kHz. -/
def Dev.interpolate (d : Dev) (sig m : Nat) : F32 :=
  let r := 384000 / d.fs
  let at_ : Int := ((m : Int) - 48) / r
  let reach : Int := (48 / r : Nat)
  Config.driveSample ((List.range (2 * (48 / r) + 1)).map (fun (i : Nat) => d.sgetI sig (at_ - reach + i))) (m % r)

/-- One BRIDGE item for capture tick t (R168). -/
def Dev.bridgeItem (d : Dev) (i t : Nat) (fade : Bool) : Dev :=
  if i < 16 then
    let vs := (List.range d.L).map (fun k =>
      if d.div.rate96 then d.mToH i (t * d.L + k) else d.sget (Sig.lpM i) (t * d.L + k))
    d.sputs (Sig.lpIn i) (t * d.L) (fadeBlock fade d.L vs)
  else if i < 32 then
    let e := i - 16
    let vs := (List.range 16).map (fun k =>
      if d.div.rate96 then d.hToM e (t * 16 + k) else d.sget (Sig.dest (5 * 65536 + e)) (t * 16 + k))
    d.sputs (Sig.measRef e) (t * 16) (fadeBlock fade 16 vs)
  else if i < 44 then
    let c := i - 32
    d.sputs (Sig.drive c) (t * 128) (fadeBlock fade 128 ((List.range 128).map (fun k => d.interpolate (Sig.dest (4 * 65536 + c)) (t * 128 + k))))
  else d

end Sys2Proof.Machine
end

