-- ==== Sys2Proof/Machine/Ports.lean ====
section
/-! DEFINITION. Serial ports and AES3 (file 11). -/

namespace Sys2Proof.Machine

def Dev.port (d : Dev) (p : Nat) : Port := mget (fun _ => Port.init) d.net.ports p
def Dev.setPort (d : Dev) (p : Nat) (x : Port) : Dev :=
  { d with net := { d.net with ports := mset (fun _ => Port.init) d.net.ports p x } }
/-- The state code of R183: 0 STOPPED, 1 ARMED, 2 UNMUTING, 3 RUNNING, 4 STOPPING. -/
def Dev.portSt (d : Dev) (p : Nat) : Nat := d.fld (Off.PRT_STAT p) 31 29
def Dev.setPortSt (d : Dev) (p s : Nat) : Dev := d.setFld (Off.PRT_STAT p) 31 29 s

/-! ### The configuration word (R176, R177) -/

def cfgEn (v : Word) : Bool := v.getLsbD 31
def cfgLink (v : Word) : Bool := v.getLsbD 30
def cfgForeign (v : Word) : Bool := v.getLsbD 29
def cfgFormat (v : Word) : Nat := getBits v 27 26
def cfgGroup (v : Word) : Nat := getBits v 25 21
def cfgSlots (v : Word) : Nat := getBits v 20 16 + 1
def widthOf (n : Nat) : Nat := if n = 0 then 16 else if n = 1 then 20 else if n = 2 then 24 else 32
def cfgSlotW (v : Word) : Nat := widthOf (getBits v 15 14)
def cfgWlen (v : Word) : Nat := widthOf (getBits v 13 12)
/-- TDM framing: FORMAT 2, or a link test (R176). -/
def cfgTdm (v : Word) : Bool := cfgFormat v == 2 || cfgLink v
def cfgFrameSlots (v : Word) : Nat := if cfgTdm v then cfgSlots v else 2
/-- WS at a frame start, and the BCLK periods from it to the first slot (R176). -/
def cfgStartWs (v : Word) : Bool := cfgTdm v || cfgFormat v != 0
def cfgFirst (v : Word) : Nat := if cfgTdm v then getBits v 11 7 else if cfgFormat v = 0 then 1 else 0
/-- BPF. -/
def cfgBpf (v : Word) : Nat := cfgFrameSlots v * cfgSlotW v

/-- Bits hi to lo of `v` replaced by those of `old`. -/
def keepBits (v old : Word) (hi lo : Nat) : Word := putBits v hi lo (getBits old hi lo)

/-- The configuration a write gives a port, and the reasons refused (R177). `tdmOk`: Diversion 15 or held for debug. -/
def checkCfg (fs : Nat) (tdmOk : Bool) (old v : Word) : Word × List Nat :=
  let v := v &&& 0xFFFFFFF0
  let r : Word × List Nat :=
    if cfgFormat v = 3 then (keepBits v old 27 26, [4])
    else if cfgFormat v = 2 ∧ !tdmOk then (keepBits v old 27 26, [1])
    else (v, [])
  let r := if cfgSlotW r.1 < cfgWlen r.1 then (keepBits r.1 old 15 12, r.2 ++ [3]) else r
  if 49152000 < cfgBpf r.1 * fs then
    let w := keepBits (keepBits (keepBits r.1 old 30 30) old 20 16) old 15 12
    -- a change away from TDM is always accepted
    (if cfgFormat old = 2 ∧ cfgFormat r.1 ≠ 2 then w else keepBits w old 27 26, r.2 ++ [2])
  else r

/-- A completed write of PRT_CFG (R177, R183): what is accepted waits for the boundary. -/
def Dev.portCfgWrite (d : Dev) (p : Nat) (v : Word) (tdmOk : Bool) : Dev :=
  let r := checkCfg d.fs tdmOk (d.rd (Off.PRT_CFG p)) v
  let d := forL r.2 (fun (reason : Nat) d => d.raise 0x0805 p (reason * 256 + p)) d
  (d.wr (Off.PRT_CFG p) r.1).later (.reg (Off.PRT_CFG p) r.1)

/-- The port mutes at once and starts over: ARMED when enabled, STOPPED when not. -/
def Dev.portRestart (d : Dev) (p : Nat) (en : Bool) : Dev :=
  let d := d.setFld (Off.PRT_STAT p) 28 26 0
  let x := d.port p
  (d.setPort p { x with
    good := 0, bad := 0, next := none, top := 0, ins := [], outs := [], rearm := false, ltRun := 0, ltFail := false, lastIn := [],
    lastOut := [], fresh := true, atDue := false, faultAt := if en then x.faultAt else none }).setPortSt p (if en then 1 else 0)

/-- A PRT_CFG word is established (R183, R185). -/
def Dev.portEstablished (d : Dev) (p : Nat) (old new : Word) : Dev :=
  -- LINK_TEST, CLASS, FORMAT, SLOTS, SLOTW, WLEN, OFFSET
  let changed := (old &&& 0x6C1FFF80) != (new &&& 0x6C1FFF80)
  let st := d.portSt p
  if st = 0 then (if cfgEn new then (d.free (.sdo p)).portRestart p true else d)
  else if changed then d.portRestart p (cfgEn new)
  else if st = 1 then (if cfgEn new then d else d.portRestart p false)
  else if st = 4 then (if cfgEn new then d.setPort p { d.port p with rearm := true } else d.setPort p { d.port p with rearm := false })
  else if cfgEn new then d
  else d.setPortSt p 4

/-! ### Framing (R175, R176, R183) -/

/-- The positions of the frame starts among sampled edges: WS at its frame-start level after an edge at the other. -/
def startsFrom (level : Bool) : Nat → List (Bool × Bool) → List Nat
  | i, a :: b :: es =>
    if a.1 != level && b.1 == level then (i + 1) :: startsFrom level (i + 1) (b :: es) else startsFrom level (i + 1) (b :: es)
  | _, _ => []
def frameStarts (f : SerialFrame) (cfg : Word) : List Nat := startsFrom (cfgStartWs cfg) 0 f.edges

/-- The SLOTW bits of slot s, MSB first. -/
def frameSlot (f : SerialFrame) (cfg : Word) (s : Nat) : Nat :=
  let at_ := (frameStarts f cfg).headD 0 + cfgFirst cfg + s * cfgSlotW cfg
  (List.range (cfgSlotW cfg)).foldl (fun a i => 2 * a + (if (f.edges.getD (at_ + i) (false, false)).2 then 1 else 0)) 0
/-- The word of slot s: its first WLEN bits. -/
def frameWord (f : SerialFrame) (cfg : Word) (s : Nat) : Nat := frameSlot f cfg s / 2 ^ (cfgSlotW cfg - cfgWlen cfg)
/-- The frame has BPF BCLK periods. -/
def frameBclkOk (f : SerialFrame) (cfg : Word) : Bool :=
  match frameStarts f cfg with
  | a :: b :: _ => b - a == cfgBpf cfg
  | _ => false
/-- Its period lies within 2 % of the house sample period. -/
def framePeriodOk (f : SerialFrame) (fs : Nat) : Bool := decide (((f.periodNs * fs : Nat) - 1000000000 : Int).natAbs * 50 ≤ 1000000000)

/-! ### Sample words (R178) -/

/-- A received word of `w` bits as a sample. -/
def sampleOf (w v : Nat) : F32 := roundInt false (signedOf w v) (-(w - 1 : Nat))
/-- A sample as a word of `w` bits: rounded to nearest even, saturated; NaN is 0. -/
def wordOf (w : Nat) (v : F32) : Nat :=
  if isNaN v then 0
  else
    let lim : Int := 2 ^ (w - 1)
    if isInf v then toSigned w (if fsign v then -lim else lim - 1)
    else
      let n := fval v * lim                      -- in units of 2⁻¹⁴⁹
      let q := n / 2 ^ 149
      let r := n % 2 ^ 149
      let q := if 2 ^ 148 < r ∨ (r = 2 ^ 148 ∧ q % 2 = 1) then q + 1 else q
      toSigned w (max (-lim) (min (lim - 1) q))

/-! ### Channel gates (R183) -/

/-- One sample through a channel's gate; `opening`: towards unity, else towards 0. -/
def ChGate.pass (g : ChGate) (opening : Bool) (L : Nat) (v : F32) : ChGate × F32 :=
  let w := fun (r : Nat) => if r + 1 = L then fone else fdiv (fofNat (r + 1)) (fofNat L)
  let g' := { g with prev := v }
  if opening then
    if g.opened then (g', v)
    else match g.ramp with
      | some r => ({ g' with ramp := if r + 1 = L then none else some (r + 1), opened := decide (r + 1 = L), waited := 0 }, fmul v (w r))
      | none => if isCrossing g.prev v then ({ g' with opened := true, waited := 0 }, v) else ({ g' with waited := g.waited + 1 }, 0)
  else if !g.opened then
    match g.ramp with
    | none => (g', 0)
    | some r =>
      -- a ramp-in under way goes on until the channel's first crossing
      if isCrossing g.prev v then ({ g' with ramp := none, waited := 0 }, 0)
      else ({ g' with ramp := if r + 1 = L then none else some (r + 1), opened := decide (r + 1 = L), waited := g.waited + 1 }, fmul v (w r))
  else
    match g.ramp with
      | some r => ({ g' with ramp := if r + 1 = L then none else some (r + 1), opened := decide (r + 1 ≠ L), waited := 0 },
          if r + 1 = L then 0 else fmul v (fsub fone (w r)))
      | none => if isCrossing g.prev v then ({ g' with opened := false, waited := 0 }, 0) else ({ g' with waited := g.waited + 1 }, v)

def gateAt (m : NMap ChGate) (s : Nat) : ChGate := mget (fun _ => ChGate.init) m s

/-- A frame's values through the gates of the enabled slots; a disabled slot is cut and closes. -/
def gateFrame (m : NMap ChGate) (mask : Word) (opening : Bool) (L : Nat) (vs : List F32) : NMap ChGate × List F32 :=
  let r := ((List.range vs.length).zip vs).foldl (fun (st : NMap ChGate × List F32) (e : Nat × F32) =>
    if mask.getLsbD e.1 then
      let g := (gateAt st.1 e.1).pass opening L e.2
      (mset (fun _ => ChGate.init) st.1 e.1 g.1, g.2 :: st.2)
    else (mset (fun _ => ChGate.init) st.1 e.1 ChGate.init, 0 :: st.2)) (m, [])
  (r.1, r.2.reverse)

/-- Every enabled slot below n is open, or shut with no ramp under way. -/
def gatesAll (m : NMap ChGate) (mask : Word) (n : Nat) (opened : Bool) : Bool :=
  (List.range n).all (fun s => !mask.getLsbD s || ((gateAt m s).opened == opened && (opened || (gateAt m s).ramp.isNone)))

/-- A frame of a Foreign input has arrived (R172): key r for AES3 receiver r, 8 + p for serial port p. -/
def Dev.arrived (d : Dev) (key frame : Nat) : Dev :=
  { d with net := { d.net with
      arrive := mset (fun _ => []) d.net.arrive key (mset (fun _ => 0) (mget (fun _ => []) d.net.arrive key) frame (d.nowIndex d.fs + 1)) } }

/-! ### A serial frame (R180, R181, R187) -/

/-- Slips counted by a port. -/
def Dev.countSlip (d : Dev) (p : Nat) : Dev := d.bump (Off.PRT_SLIP_CNT p)

def Dev.inMem (d : Dev) (m : Nat) : InMem := mget (fun _ => InMem.init) d.net.mems m
def Dev.setInMem (d : Dev) (m : Nat) (x : InMem) : Dev :=
  { d with net := { d.net with mems := mset (fun _ => InMem.init) d.net.mems m x } }

/-- The members of an alignment group: serial ports 0–15, stream s as 16 + s (R186). -/
def Dev.memGroup (d : Dev) (m : Nat) : Nat :=
  if m < 16 then cfgGroup (d.re (Off.PRT_CFG m)) else d.fld (Off.NET_RX_CTL (m - 16)) 25 21
def Dev.memLive (d : Dev) (m : Nat) : Bool :=
  if m < 16 then !cfgForeign (d.re (Off.PRT_CFG m)) && !cfgLink (d.re (Off.PRT_CFG m)) && (d.portSt m != 0 || !(d.port m).got.isEmpty)
  else d.bit (Off.NET_RX_CTL (m - 16)) 31 && !d.bit (Off.NET_RX_CTL (m - 16)) 30
def Dev.groupMembers (d : Dev) (g : Nat) : List Nat :=
  (List.range 144).filter (fun m => d.memLive m && d.memGroup m == g)
def Dev.coherent (d : Dev) (g : Nat) : Bool := d.bit (Off.PRT_GRP g) 0

/-- Each member affected counts a slip (R186): a port in PRT_SLIP_CNT, a stream in SLIPS. -/
def Dev.countMemSlip (d : Dev) (m : Nat) : Dev :=
  if m < 16 then d.countSlip m else d.bumpFld (Off.NET_RX_STAT (m - 16)) 27 16 1

/-- The change of mapping a slip asks of a member at a house index. -/
def Dev.slipMem (d : Dev) (x h : Nat) (by_ : Int) : Dev :=
  let y := d.inMem x
  d.setInMem x { y with marks := y.marks ++ [(h, by_)] }

/-- An input slip of one member at a house index reaches every member of a COHERENT group (R181, R186). -/
def Dev.slipGroup (d : Dev) (m h : Nat) (by_ : Int) : Dev :=
  let g := d.memGroup m
  if d.coherent g then
    forL ((d.groupMembers g).filter (fun x => x != m)) (fun x d =>
      (d.slipMem x h by_).countMemSlip x) d
  else d

/-- A stop that has finished leaves the port STOPPED, or ARMED again (R183, R185). -/
def Dev.portSettle (d : Dev) (p : Nat) : Dev :=
  let x := d.port p
  let cfg := d.re (Off.PRT_CFG p)
  let n := cfgFrameSlots cfg
  let outOk := fun (b : Bool) => cfgForeign cfg || gatesAll x.outs x.mask n b
  if d.portSt p = 2 ∧ (cfgLink cfg || (gatesAll x.ins x.mask n true && outOk true)) then d.setPortSt p 3
  else if d.portSt p = 4 ∧ (cfgLink cfg || (gatesAll x.ins x.mask n false && outOk false)) then d.portRestart p x.rearm
  else d

/-- Where the reference edges lie after the instants of local time, in ns: FCLK's last edge while it is the reference (R179). -/
def Dev.refOffset (d : Dev) : Int :=
  if !d.bit Off.PRT_FCLK_CTL 0 && d.bit Off.PRT_FCLK_STAT 31 && !d.bit Off.PRT_FCLK_STAT 30 then signedOf 16 (d.fld Off.PRT_FCLK_STAT 15 0) else 0
/-- A frame start's error in ns from the reference edge of the index it is measured against. -/
def Dev.frameErr (d : Dev) (errNs : Int) : Int := errNs - d.refOffset
/-- The indices from there to that of the nearest reference edge: 0 within half a frame period (R180, R181). -/
def Dev.frameShift (d : Dev) (errNs : Int) : Int :=
  let e := d.frameErr errNs
  let n : Int := ((2 * e.natAbs * d.fs + 1000000000) / 2000000000 : Nat)
  if 2 * e.natAbs * d.fs ≤ 1000000000 then 0 else if e < 0 then -n else n
/-- The error that is left from the reference edge of the nearest index, in ns. -/
def Dev.frameRest (d : Dev) (errNs : Int) : Int := d.frameErr errNs - d.frameShift errNs * 1000000000 / d.fs

/-- The index of an instant of local time that lies `err` ns before now. -/
def Dev.nearestIndex (d : Dev) (err : Int) : Nat :=
  let ns : Int := d.clk.elapsed - err
  ((d.clk.tick * d.L : Nat) + (2 * ns * d.fs + 1000000000) / 2000000000).toNat

/-- The link-test word of R187. -/
def ltWord (n s : Nat) : Nat := n % 256 * 256 + s * 8 % 256 + 5

/-- One link-test frame of index n: what SDI brought is checked, the pattern is sent. -/
def Dev.linkFrame (d : Dev) (p n : Nat) (f : SerialFrame) : Dev :=
  let x := d.port p
  let cfg := d.re (Off.PRT_CFG p)
  let slots := (List.range (cfgFrameSlots cfg)).filter (fun s => x.mask.getLsbD s)
  let lag := getBits cfg 6 4
  let w := cfgSlotW cfg
  let ok := slots.all (fun s => frameSlot f cfg s / 2 ^ (w - 16) == ltWord (n + 256 - lag) s)
  let d :=
    if ok then d.setPort p { x with ltRun := x.ltRun + 1 }
    else
      let passed := d.bit (Off.PRT_STAT p) 26
      ((d.setPort p { x with ltRun := 0, ltFail := x.ltFail || passed }).bump (Off.PRT_LT_ERR p)).setBit (Off.PRT_STAT p) 26 false
  if cfgForeign cfg then d
  else
    let out := (List.range (cfgFrameSlots cfg)).map (fun s =>
      if x.mask.getLsbD s then some (ltWord n s * 2 ^ (w - 16)) else if cfg.getLsbD 28 then none else some 0)
    (d.setPort p { d.port p with lastOut := out }).emit (.serial p n out)

/-- The audio of one frame of index n: SDI to the port's raw signal, SDO from the playout block (R182, R183). -/
def Dev.audioFrame (d : Dev) (p n : Nat) (f : SerialFrame) : Dev :=
  let x := d.port p
  let cfg := d.re (Off.PRT_CFG p)
  let slots := cfgFrameSlots cfg
  let opening := decide (d.portSt p ≠ 4)
  let vs := (List.range slots).map (fun s => sampleOf (cfgWlen cfg) (frameWord f cfg s))
  let gi := gateFrame x.ins x.mask opening d.L vs
  let outs := (List.range slots).map (fun s => d.sget (Sig.gateOut (2 * 65536 + 32 * p + s)) n)
  let go := if cfgForeign cfg then (x.outs, []) else gateFrame x.outs x.mask opening d.L outs
  let d := d.setPort p { x with
    ins := gi.1
    outs := go.1
    lastIn := gi.2
    got := if cfgForeign cfg then x.got else mset (fun _ => 0) x.got n 1 }
  let d := if cfgForeign cfg then d.arrived (8 + p) x.frames else d
  let d := forL ((List.range slots).zip gi.2) (fun (e : Nat × F32) d =>
    if cfgForeign cfg then d.sput (Sig.serialForeign (32 * p + e.1)) x.frames e.2 else d.sput (Sig.serialRaw (32 * p + e.1)) n e.2) d
  if cfgForeign cfg then d
  else
    let words := ((List.range slots).zip go.2).map (fun (e : Nat × F32) =>
      if x.mask.getLsbD e.1 then some (wordOf (cfgWlen cfg) e.2 * 2 ^ (cfgSlotW cfg - cfgWlen cfg)) else if cfg.getLsbD 28 then none else some 0)
    (d.setPort p { d.port p with lastOut := words }).emit (.serial p n words)

/-- The raw samples of a Locked port's previous frame, repeated for an index that got no frame (R181). -/
def Dev.repeatFrame (d : Dev) (p n : Nat) : Dev :=
  let vs := (d.port p).lastIn
  let d := d.setPort p { d.port p with got := mset (fun _ => 0) (d.port p).got n 1 }
  forL ((List.range vs.length).zip vs) (fun (e : Nat × F32) d => d.sput (Sig.serialRaw (32 * p + e.1)) n e.2) d

def saturate16 (v : Int) : Nat := toSigned 16 (max (-32768) (min 32767 v))

/-- PORT_ALIGN and the ALIGNED and ERR fields (R180): `err` in ns, reported in units of 10 ns, to the nearest. -/
def Dev.portAlign (d : Dev) (p : Nat) (err : Int) : Dev :=
  let x := d.port p
  let win : Int := (10 * max 1 (d.fld Off.PRT_FCLK_CTL 15 8) : Nat)
  let out := decide (win < err ∨ err < -win)
  let err := (err + 5) / 10
  let d := (d.setFld (Off.PRT_STAT p) 15 0 (saturate16 err)).setBit (Off.PRT_STAT p) 27 (!out)
  if out then
    let d := d.setPort p { x with astray := true, inWin := 0 }
    if x.astray then d else d.raise 0x0801 p (saturate16 err * 65536 + p)
  else if x.astray then d.setPort p { x with inWin := x.inWin + 1, astray := decide (x.inWin + 1 < 64) }
  else d

/-- One frame of a running count (R180, R181): the device after it, whether it is a slip of a port that runs fast or one of a port that
runs slow, and its index. A frame whose error passes half a frame period takes the index of its nearest reference edge. -/
def Dev.frameSeen (d : Dev) (p : Nat) (f : SerialFrame) : Dev × Bool × Bool × Nat :=
  let cfg := d.re (Off.PRT_CFG p)
  let foreign := cfgForeign cfg
  let x := d.port p
  let shift := d.frameShift f.errNs
  let locked := !foreign && x.next.isSome
  let fast := locked && decide (shift < 0)
  let slow := locked && decide (0 < shift)
  let n := match x.next with | some n => n | none => d.nearestIndex f.errNs
  let correct := frameBclkOk f cfg && framePeriodOk f d.fs && !(fast || slow)
  let d := if foreign then d else d.portAlign p (d.frameRest f.errNs)
  let d := d.setBit (Off.PRT_STAT p) 28 correct
  let x := d.port p
  let idx := if foreign then x.frames + 1 else ((n : Int) + shift).toNat
  let d := if x.atDue then d.wrN (Off.PRT_SMASK_AT p) idx else d
  (d.setPort p { x with
    atDue := false
    top := max x.top (idx + 1)
    frames := x.frames + 1
    good := if correct then x.good + 1 else 0
    bad := if correct then 0 else x.bad + 1
    fresh := false
    next := if foreign then none else some (idx + 1) }, fast, slow, idx)

/-- SERIAL_FRAME (R180 to R187). Edges without a frame start are no frame. -/
def Dev.serialFrameAt (d : Dev) (p : Nat) (f : SerialFrame) : Dev :=
  let st := d.portSt p
  let cfg := d.re (Off.PRT_CFG p)
  if st = 0 ∨ (frameStarts f cfg).isEmpty = true then d
  else
    let top := (d.port p).top
    let r := d.frameSeen p f
    let d := r.1
    let idx := r.2.2.2
    let d := if r.2.1 then ((d.countSlip p).raiseB 0x1A 0x0802 p (2 ^ 24 + 2 ^ 16 + p)).slipGroup p (idx + 1) (-1) else d
    if (d.port p).next.isSome ∧ idx < top then
      -- two frames map to one index: the later one is dropped, SDO repeats the sample
      if st = 1 then d else d.emit (.serial p idx (d.port p).lastOut)
    else
      let d := if r.2.2.1 then
          let d := ((d.countSlip p).raiseB 0x1A 0x0802 p (2 ^ 24 + 2 * 2 ^ 16 + p)).slipGroup p top 1
          if st = 1 ∨ cfgLink cfg = true then d else forN (idx - top) (fun i d => d.repeatFrame p (top + i)) d
        else d
      if st = 1 then d
      else if cfgLink cfg then (d.linkFrame p idx f).portSettle p
      else (d.audioFrame p idx f).portSettle p

/-- PORT_UNMUTE_START: an ARMED port after 64 consecutive correct frames (R183). -/
def Dev.portUnmute (d : Dev) (p : Nat) : Dev :=
  if d.portSt p = 1 ∧ cfgEn (d.re (Off.PRT_CFG p)) = true ∧ 64 ≤ (d.port p).good then
    (d.setPort p { d.port p with ins := [], outs := [] }).setPortSt p 2 |>.portSettle p
  else d

/-- UNMUTE_TIMEOUT: channels that waited 256 frames begin their ramp (R183). -/
def Dev.unmuteRamp (d : Dev) (p : Nat) : Dev :=
  let go := fun (m : NMap ChGate) => m.map (fun (e : Nat × ChGate) =>
    (e.1, if 256 ≤ e.2.waited ∧ e.2.ramp = none then { e.2 with ramp := some 0, waited := 0 } else e.2))
  d.setPort p { d.port p with ins := go (d.port p).ins, outs := go (d.port p).outs }

/-- UNDERRUN once per episode of a member (R186, R199). -/
def Dev.memUnder (d : Dev) (m : Nat) : Dev :=
  let x := d.inMem m
  if x.said then d
  else
    let d := d.setInMem m { x with said := true }
    let g := d.memGroup m
    if m < 16 then d.raiseB 0x1A 0x0808 m (g * 2 ^ 24 + 2 ^ 16 + m)
    else (d.setBit (Off.NET_RX_STAT (m - 16)) 30 true).raiseB 0x1E 0x0808 0 (g * 2 ^ 24 + 2 * 2 ^ 16 + (m - 16))

/-- PORT_CLOCK_FAULT (R184): causes 1 no frame, 2 wrong BCLK count, 3 frame period. -/
def Dev.portFault (d : Dev) (p cause : Nat) : Dev :=
  let x := d.port p
  if 1 ≤ d.portSt p ∧ (cause = 1 ∨ 2 ≤ x.bad) then
    let d := d.raise 0x0804 p (cause * 256 + p)
    let d := if 2 ≤ d.portSt p ∧ d.memLive p = true then
        (d.setPort p { x with faultAt := some (x.next.getD (d.nowIndex d.fs)) }).memUnder p
      else d
    d.portRestart p true
  else d

/-! ### FCLK (R179) -/

/-- What FCLK does at one house sample: its edge less the sample's instant in ns, or none. After 8 misses in a row the internal
instant is the reference; after 64 good edges FCLK is again. -/
def Dev.fclkEdge (d : Dev) (e : Option Int) : Dev :=
  let good := match e with | some o => decide (o.natAbs ≤ 1000) | none => false
  let d := match e with | some o => d.setFld Off.PRT_FCLK_STAT 15 0 (saturate16 o) | none => d
  let d := d.setBit Off.PRT_FCLK_STAT 31 good
  let d := { d with net := { d.net with
    fclkMiss := if good then 0 else d.net.fclkMiss + 1
    fclkGood := if good then d.net.fclkGood + 1 else 0 } }
  if d.bit Off.PRT_FCLK_CTL 0 then d
  else if 8 ≤ d.net.fclkMiss ∧ d.bit Off.PRT_FCLK_STAT 30 = false then (d.setBit Off.PRT_FCLK_STAT 30 true).raise 0x0804 0x1F (4 * 256 + 0x1F)
  else if 64 ≤ d.net.fclkGood then d.setBit Off.PRT_FCLK_STAT 30 false
  else d
def Dev.fclkEdges (d : Dev) (es : List (Option Int)) : Dev := forL es (fun e d => d.fclkEdge e) d
/-- A write of PRT_FCLK_CTL: SRC = 1 selects the internal instant, SRC = 0 returns to FCLK. -/
def Dev.fclkCtlWrite (d : Dev) (v : Word) : Dev :=
  let was := d.bit Off.PRT_FCLK_CTL 0
  let d := d.wr Off.PRT_FCLK_CTL (v &&& 0xFF01)
  if v.getLsbD 0 then d.setBit Off.PRT_FCLK_STAT 30 true
  else if was then d.setBit Off.PRT_FCLK_STAT 30 false
  else d

/-! ### Slot masks (R182) -/

def Dev.smaskCommit (d : Dev) (p : Nat) : Dev :=
  if d.bit (Off.PRT_SMASK_COMMIT p) 30 then d
  else (d.setPort p { d.port p with
    commit := some (d.rd (Off.PRT_SMASK_PEND p))
    commitRun := d.portSt p == 3 }).setBit (Off.PRT_SMASK_COMMIT p) 30 true
/-- May a waiting commit act at the frame that follows? One made while RUNNING acts in RUNNING; any other, and one that the port left
RUNNING before, at the first frame of a silent start. -/
def Dev.smaskDue (d : Dev) (p : Nat) : Bool :=
  ((d.port p).commitRun && d.portSt p == 3) || (d.portSt p == 1 && (d.port p).fresh)
/-- SMASK_APPLY, at the start of the frame that follows; that frame's own index stands in PRT_SMASK_AT once it has come, as a slip may
give it another than the one due (R181). -/
def Dev.smaskApply (d : Dev) (p : Nat) : Dev :=
  match (d.port p).commit with
  | none => d
  | some m =>
    if !d.smaskDue p then d
    else
      let x := d.port p
      let at_ := if cfgForeign (d.re (Off.PRT_CFG p)) then x.frames + 1 else match x.next with | some n => n | none => d.nearestIndex 0
      ((d.setPort p { x with mask := m, commit := none, atDue := true }).wrN (Off.PRT_SMASK_AT p) at_).setBit (Off.PRT_SMASK_COMMIT p) 30 false

/-- LINK_TEST_DONE (R187). -/
def Dev.linkDone (d : Dev) (p : Nat) : Dev :=
  let x := d.port p
  if x.ltFail then (d.setPort p { x with ltFail := false }).raise 0x0809 p p
  else if 256 ≤ x.ltRun ∧ d.bit (Off.PRT_STAT p) 26 = false then
    (d.setBit (Off.PRT_STAT p) 26 true).raise 0x0809 p (256 + p)
  else d

/-! ### AES3 receivers (R188 to R190) -/

def Dev.aesRx (d : Dev) (r : Nat) : AesRx := mget (fun _ => AesRx.init) d.net.aesRx r
def Dev.setAesRx (d : Dev) (r : Nat) (x : AesRx) : Dev :=
  { d with net := { d.net with aesRx := mset (fun _ => AesRx.init) d.net.aesRx r x } }

/-- Even parity over bits 4 to 31 of the subframe; and a subframe without error (R188). -/
def bitCount (w v : Nat) : Nat := (List.range w).foldl (fun a i => a + v / 2 ^ i % 2) 0
def subParityOk (s : AesSub) : Bool :=
  (bitCount 24 s.audio + (if s.vBit then 1 else 0) + (if s.uBit then 1 else 0) + (if s.cBit then 1 else 0) + (if s.pBit then 1 else 0)) % 2 == 0
def subOk (s : AesSub) : Bool := subParityOk s && s.biphaseOk && s.preambleOk

/-- The sample of a subframe (R188, R190). -/
def Dev.aesSample (d : Dev) (r : Nat) (s : AesSub) : F32 :=
  if !subParityOk s || (s.vBit && d.bit (Off.AES_RX_CFG r) 0) then 0 else sampleOf 24 s.audio

/-- AES3_FRAME. -/
def Dev.aesFrame (d : Dev) (r : Nat) (z : Bool) (a b : AesSub) : Dev :=
  if !d.bit (Off.AES_RX_CFG r) 31 then d
  else
    let x := d.aesRx r
    let ok := subOk a && subOk b
    let d := d.arrived r x.frames
    let d := (d.sput (Sig.aesIn (2 * r)) x.frames (d.aesSample r a)).sput (Sig.aesIn (2 * r + 1)) x.frames (d.aesSample r b)
    let d := d.bumpN (Off.AES_RX_ERR r) ((if subParityOk a then 0 else 1) + (if subParityOk b then 0 else 1))
    let whole := z && x.sinceZ == 192
    let doneA := if whole then some (x.csA.reverse, x.uA.reverse) else x.doneA
    let doneB := if whole then some (x.csB.reverse, x.uB.reverse) else x.doneB
    let ready := x.ready || (whole && x.clean && ok)
    let add := fun (old : List Bool) (v : Bool) => if z then [v] else v :: old.take 191
    let ready := if ok then ready else false
    d.setAesRx r { x with
      frames := x.frames + 1, sinceZ := if z then 1 else if x.sinceZ = 0 then 0 else x.sinceZ + 1,
      clean := if z then ok else x.clean && ok, ready := ready, bad := if ok then 0 else x.bad + 1,
      csA := add x.csA a.cBit, csB := add x.csB b.cBit, uA := add x.uA a.uBit, uB := add x.uB b.uBit, doneA := doneA, doneB := doneB }

/-- AES3_LOCK at a measured frame rate (R188). -/
def Dev.aesLock (d : Dev) (r rate : Nat) : Dev :=
  if d.bit (Off.AES_RX_CFG r) 31 && !d.bit (Off.AES_RX_STAT r) 31 && (d.aesRx r).ready && decide (32000 ≤ rate) && decide (rate ≤ 192000) then
    ((d.setBit (Off.AES_RX_STAT r) 31 true).wrN (Off.AES_RX_RATE r) rate).raise 0x0806 r r
  else d
/-- AES3_UNLOCK: eight consecutive frames in error or absent. -/
def Dev.aesUnlock (d : Dev) (r absent : Nat) : Dev :=
  if d.bit (Off.AES_RX_STAT r) 31 && decide (8 ≤ (d.aesRx r).bad + absent) then
    let d := d.setAesRx r { d.aesRx r with sinceZ := 0, clean := false, ready := false, bad := 0 }
    ((d.setBit (Off.AES_RX_STAT r) 31 false).wrN (Off.AES_RX_RATE r) 0).raise 0x0807 r r
  else d

/-- Bytes of a bit list, bit 0 of each byte first. -/
def bitBytes : Nat → List Bool → List Nat
  | 0, _ => []
  | n + 1, bs => (((List.range 8).zip bs).foldl (fun a (e : Nat × Bool) => if e.2 then a + 2 ^ e.1 else a) 0) :: bitBytes n (bs.drop 8)

/-- The CRCC of 23 bytes: x⁸ + x⁴ + x³ + x² + 1, initial value 0xFF, first-sent bits first (R189). -/
def crcc (bytes : List Nat) : Nat :=
  bytes.foldl (fun c b => (List.range 8).foldl (fun c i =>
    let fb := (c + b / 2 ^ i) % 2
    -- the register is kept with its first-sent bit in bit 0
    let c := c / 2
    if fb = 1 then c ^^^ 0xB8 else c) c) 0xFF

def wordsOf (bytes : List Nat) : List Word :=
  (List.range (bytes.length / 4)).map (fun i => BitVec.ofNat 32 (leNat ((List.range 4).map (fun j => BitVec.ofNat 8 (bytes.getD (4 * i + j) 0)))))

/-- AES3_CS_BLOCK: a completed block of subframe `sub` is checked and stored, or marked stale (R189). -/
def Dev.aesCsBlock (d : Dev) (r sub : Nat) : Dev :=
  let x := d.aesRx r
  let blk := if sub = 0 then x.doneA else x.doneB
  match blk with
  | none => d
  | some (c, u) =>
    let cb := bitBytes 24 c
    let ub := bitBytes 24 u
    let d := d.setAesRx r (if sub = 0 then { x with doneA := none } else { x with doneB := none })
    let bad := decide (cb.getD 0 0 % 2 = 1) && decide (crcc (cb.take 23) ≠ cb.getD 23 0)
    let stale := if sub = 0 then 30 else 29
    if bad then (d.setBit (Off.AES_RX_STAT r) stale true).raise 0x0803 r (sub * 256 + r)
    else
      let put := fun (off : Nat → Nat) (bytes : List Nat) (d : Dev) =>
        forL ((List.range 6).zip (wordsOf bytes)) (fun (e : Nat × Word) d => d.wr (off e.1) e.2) d
      let d := if sub = 0 then put (Off.AES_RX_U_A r) ub (put (Off.AES_RX_CS_A r) cb d)
        else put (Off.AES_RX_U_B r) ub (put (Off.AES_RX_CS_B r) cb d)
      (d.setFld (Off.AES_RX_STAT r) 15 0 (d.fld (Off.AES_RX_STAT r) 15 0 + 1)).setBit (Off.AES_RX_STAT r) stale false

/-! ### AES3 transmitters (R191) -/

def Dev.aesTx (d : Dev) (t : Nat) : AesTx := mget (fun _ => AesTx.init) d.net.aesTx t
def Dev.setAesTx (d : Dev) (t : Nat) (x : AesTx) : Dev :=
  { d with net := { d.net with aesTx := mset (fun _ => AesTx.init) d.net.aesTx t x } }

def Dev.csGo (d : Dev) (t : Nat) : Dev := d.setAesTx t { d.aesTx t with staged := true }
/-- The next tick begins with a Z frame (R191): a tick's frames are 16 or 32, of which 192 is a multiple. -/
def Dev.nextIsZ (d : Dev) : Bool := decide ((d.clk.tick + 1) * d.L % 192 = 0)
/-- AES_TX_CS_LOAD, right before the boundary whose tick begins with a Z frame. -/
def Dev.csLoad (d : Dev) (t : Nat) : Dev :=
  let x := d.aesTx t
  if !x.staged || !d.nextIsZ then d
  else
    let bytes : List Nat := ((List.range 6).map (fun i => (leBytes 4 (d.rd (Off.AES_TX_CS t i)).toNat).map (fun (b : Byte) => b.toNat))).flatten
    let gen := d.bit (Off.AES_TX_CFG t) 29 && decide (bytes.getD 0 0 % 2 = 1)
    let live := if gen then bytes.take 23 ++ [crcc (bytes.take 23)] else bytes
    d.setAesTx t { x with live := live, staged := false }

/-- Is the source of a slot invalid in capture tick t (R191)? -/
def Dev.sourceInvalid (d : Dev) (slot t : Nat) : Bool :=
  let w := d.srcSlot slot
  let i := w % 65536
  match w / 2 ^ 24 with
  | 3 =>
    match firstN 128 (fun s => d.bit (Off.NET_RX_CTL s) 31 && decide (d.fld (Off.NET_RX_CTL s) 10 0 ≤ i) &&
        decide (i ≤ d.fld (Off.NET_RX_CTL s) 10 0 + d.fld (Off.NET_RX_CTL s) 20 15)) with
    | some s => d.bit (Off.NET_RX_STAT s) 30
    | none => false
  | 4 => if d.sharedIn 1 i then d.sharedBad 1 i t else d.portSt (i / 32) != 3
  | 5 => if d.sharedIn 2 i then d.sharedBad 2 i t else !(mget (fun _ => Asrc.init) d.rbt.asrc i).locked
  | _ => false

/-- The source-invalid flag of a destination endpoint for compute tick n (R191): only AES3 subframes have one. -/
def Dev.srcInv (d : Dev) (n : Nat) (e : Nat × Nat) : Bool :=
  let cfg := d.rd (Off.AES_TX_CFG (e.2 / 2))
  decide (e.1 = 3) && (if e.2 % 2 = 0 then cfg.getLsbD 27 && d.sourceInvalid (getBits cfg 10 0) (n - 1)
    else cfg.getLsbD 28 && d.sourceInvalid (getBits cfg 26 16) (n - 1))

/-- Bits 4 to 31 of a transmitted subframe: audio, V, U = 0, C and even parity. -/
def aesWord (audio : Nat) (v c : Bool) : Nat :=
  let b := audio + (if v then 2 ^ 24 else 0) + (if c then 2 ^ 26 else 0)
  b + bitCount 27 b % 2 * 2 ^ 27

/-- One frame of a transmitter: index i, both subframes with the live channel status's bit of that frame. -/
def Dev.aesTxFrame (d : Dev) (t i : Nat) (va vb : Bool) : Out :=
  let c := (d.aesTx t).live.getD (i % 192 / 8) 0 / 2 ^ (i % 8) % 2 == 1
  let s := fun (sub : Nat) => wordOf 24 (d.sget (Sig.gateOut (3 * 65536 + 2 * t + sub)) i)
  .aes t i (i + 1) (i % 192 == 0) (aesWord (s 0) va c) (aesWord (s 1) vb c)

/-- The frames of one transmitter for playout tick n: `invalid` gives the invalid flag of an endpoint's Gate block. -/
def Dev.aesTxTick (d : Dev) (t n : Nat) (invalid : Nat → Bool) : Dev :=
  if !d.bit (Off.AES_TX_CFG t) 31 then d.setAesTx t { d.aesTx t with from_ := none }
  else
    let x := d.aesTx t
    let first := match x.from_ with
      | some i => i
      | none => (n * d.L + 191) / 192 * 192
    let d := d.setAesTx t { x with from_ := some first }
    let va := invalid (3 * 65536 + 2 * t)
    let vb := invalid (3 * 65536 + 2 * t + 1)
    forN d.L (fun k d =>
      let i := n * d.L + k
      if i < first then d else d.emit (d.aesTxFrame t i va vb)) d

end Sys2Proof.Machine
end

