-- ==== Sys2Proof/Machine/Net.lean ====
section
/-! DEFINITION. Ethernet ports and media streams (file 12), and the input planes of Locked inputs (R186, R199). -/

namespace Sys2Proof.Machine

/-! ### Ports (R192, R193) -/

def Dev.physUp (d : Dev) (e : Nat) : Bool := mget (fun _ => false) d.net.phys e
def Dev.linkUp (d : Dev) (e : Nat) : Bool := d.bit (Off.NET_PORT_STAT e) 31
/-- 0 red, 1 blue. -/
def Dev.portNet (d : Dev) (e : Nat) : Nat := d.fld (Off.NET_PORT_CFG e) 29 29
def Dev.portIp (d : Dev) (e : Nat) : Nat := (d.rd (Off.NET_PORT_IP e)).toNat
def netPorts : List Nat := [0, 1, 2, 3]
/-- The VLAN tag of a sent frame: 2¹⁶ + PCP·2¹² + VID, or 0 untagged. -/
def Dev.vlanTag (d : Dev) (e : Nat) : Nat :=
  if d.bit (Off.NET_PORT_CFG e) 26 then 2 ^ 16 + d.fld (Off.NET_PORT_CFG e) 25 23 * 2 ^ 12 + d.fld (Off.NET_PORT_CFG e) 11 0 else 0

/-- Does a port take a frame with this tag: with VLAN_EN the port's VID only, without it untagged frames only (R192)? -/
def Dev.tagTaken (d : Dev) (e : Nat) (vlan : Option Nat) : Bool :=
  vlan == (if d.bit (Off.NET_PORT_CFG e) 26 then some (d.fld (Off.NET_PORT_CFG e) 11 0) else none)

def isMulticast (ip : Nat) : Bool := ip / 2 ^ 28 == 0xE
/-- The MAC of a multicast destination, and a port's own (R193). -/
def groupMac (ip : Nat) : Nat := 0x01005E000000 + ip % 2 ^ 23
def Dev.portMac (d : Dev) (e : Nat) : Nat := (d.rd (Off.NET_PORT_MAC_LO e)).toNat + d.fld (Off.NET_PORT_MAC_HI e) 15 0 * 2 ^ 32
def broadcastMac : Nat := 0xFFFFFFFFFFFF
/-- A Steward frame sent on a port. -/
def Dev.stewSend (d : Dev) (e kind dstMac : Nat) (data : List Nat) : Dev := d.emit (.net e kind dstMac (d.vlanTag e) data)

/-- The unit byte of Notice datagrams and District frames: 0xFF while no partner is present. -/
def Dev.unitByte (d : Dev) : Nat := if d.twn.present then (if d.straps.twinB then 1 else 0) else 0xFF

-- kinds of the Steward's network output: 1 ARP request, 2 ARP reply, 3 gratuitous ARP, 4 echo reply, 5 IGMP report,
-- 6 IGMP leave
/-- An IGMPv3 report of one membership, group and source (0: any), to all IGMPv3 routers, 224.0.0.22 (R206). -/
def Dev.igmp (d : Dev) (e : Nat) (join : Bool) (g : Nat × Nat) : Dev :=
  if d.linkUp e && d.portIp e != 0 then d.stewSend e (if join then 5 else 6) (groupMac 0xE0000016) [g.1, g.2] else d

def Dev.rxEn (d : Dev) (s : Nat) : Bool := d.bit (Off.NET_RX_CTL s) 31
def Dev.rxPorts (d : Dev) (s : Nat) : List Nat := netPorts.filter (fun e => (d.rd (Off.NET_RX_CTL s)).getLsbD (11 + e))
def Dev.txEn (d : Dev) (s : Nat) : Bool := d.bit (Off.NET_TX_CTL s) 31
def rxStreams : List Nat := List.range 128
/-- The enabled receive streams that use a port. -/
def Dev.rxOn (d : Dev) (e : Nat) : List Nat := rxStreams.filter (fun s => d.rxEn s && (d.rxPorts s).contains e)

/-- The memberships of a port: GROUP_IP and SRC_IP of its enabled receive streams (R206). -/
def Dev.members (d : Dev) (e : Nat) : List (Nat × Nat) :=
  (((d.rxOn e).map (fun s => ((d.rd (Off.NET_RX_GROUP_IP s)).toNat, (d.rd (Off.NET_RX_SRC_IP s)).toNat))).filter (fun g => isMulticast g.1)).eraseDups
/-- What a change of the streams asks of IGMP on every port: a membership that no stream has any more is left, unless the whole group
is still joined; a new one is joined, and so is what stays of a group whose any-source membership ends. -/
def Dev.igmpDiff (old d : Dev) : Dev :=
  forL netPorts (fun e d =>
    let was := old.members e
    let now := d.members e
    let gone := was.filter (fun g => !now.contains g && !now.contains (g.1, 0))
    let new := now.filter (fun g => !was.contains g || gone.contains (g.1, 0))
    forL new (fun g d => d.igmp e true g) (forL gone (fun g d => d.igmp e false g) d)) d

/-- Every membership of a port is joined; `igmp` sends nothing without a link and an address. -/
def Dev.joinAll (d : Dev) (e : Nat) : Dev := forL (d.members e) (fun g d => d.igmp e true g) d

/-- LINK follows the physical link and EN; a change raises NET_LINK (R193), and a link that comes up is announced (R206). -/
def Dev.refreshLink (d : Dev) (e : Nat) : Dev :=
  let up := d.physUp e && d.bit (Off.NET_PORT_CFG e) 31
  if up == d.linkUp e then d
  else
    let d := (d.setBit (Off.NET_PORT_STAT e) 31 up).raise 0x0903 0 ((if up then 256 else 0) + e)
    if up && d.portIp e != 0 then (d.stewSend e 3 broadcastMac [d.portIp e]).joinAll e else d

/-- NET_LINK: a change of a port's physical link. -/
def Dev.netLinkAt (d : Dev) (e : Nat) (up : Bool) : Dev :=
  { d with net := { d.net with phys := mset (fun _ => false) d.net.phys e up } }.refreshLink e

/-! ### Stream configuration (R194, R195) -/

def ptimeSamples (ptime : Nat) (rate96 : Bool) : Nat :=
  (if ptime = 0 then 6 else if ptime = 1 then 12 else if ptime = 2 then 16 else 48) * (if rate96 then 2 else 1)
def ctlChannels (v : Word) : Nat := getBits v 20 15 + 1
def ctlBytes (v : Word) : Nat := if v.getLsbD 28 then 3 else 2
def ctlBase (v : Word) : Nat := getBits v 10 0
/-- Samples per packet of a control word; receive streams carry their own rate, transmit streams the house rate. -/
def Dev.ctlSamples (d : Dev) (tx : Bool) (v : Word) : Nat :=
  ptimeSamples (getBits v 27 26) (if tx then d.div.rate96 else v.getLsbD 29)
def Dev.ctlPayload (d : Dev) (tx : Bool) (v : Word) : Nat := ctlChannels v * d.ctlSamples tx v * ctlBytes v
def ctlPorts (v : Word) : List Nat := netPorts.filter (fun e => v.getLsbD (11 + e))

/-- The reason R195 refuses an enabled configuration, if any. -/
def Dev.streamRefusal (d : Dev) (tx : Bool) (v : Word) : Option Nat :=
  let ports := ctlPorts v
  let size := d.ctlPayload tx v
  if (1440 < size ∧ ports.any (fun e => !d.bit (Off.NET_PORT_CFG e) 27) = true) ∨ 8960 < size then some 1
  else if !tx && !v.getLsbD 30 && v.getLsbD 29 != d.div.rate96 then some 2
  else if [0, 1].any (fun n => decide (1 < (ports.filter (fun e => d.portNet e == n)).length)) then some 3
  else if 1535 < ctlBase v + ctlChannels v - 1 then some 4
  else none

def Dev.rxStream (d : Dev) (s : Nat) : RxStream := mget (fun _ => RxStream.init) d.net.rx s
def Dev.setRxStream (d : Dev) (s : Nat) (x : RxStream) : Dev :=
  { d with net := { d.net with rx := mset (fun _ => RxStream.init) d.net.rx s x } }

/-- A receive stream starts: ε is 0 and nothing has arrived (R198); each of its networks has a second to deliver (R201). -/
def Dev.rxStart (d : Dev) (s : Nat) : Dev :=
  let now := d.clk.tick + 1
  ((d.setRxStream s { RxStream.init with red := now, blue := now }).setInMem (16 + s) InMem.init).wrN (Off.NET_RX_STAT s) 0

/-- STREAM_CONFIG_WRITE: a completed write of NET_RX_CTL or NET_TX_CTL, applied whole or refused whole (R195). -/
def Dev.streamCtlWrite (d : Dev) (tx : Bool) (s : Nat) (v : Word) : Dev :=
  let v := if tx then v &&& 0xDC1FFFFF else v
  let off := if tx then Off.NET_TX_CTL s else Off.NET_RX_CTL s
  match (if v.getLsbD 31 then d.streamRefusal tx v else none) with
  | some r => d.raise 0x0906 0 (r * 256 + (if tx then 128 else 0) + s)
  | none =>
    let old := d.rd off
    if tx then
      let d := d.wr off v
      if v.getLsbD 31 then d else (d.setBit (Off.NET_TX_STAT s) 31 false).setBit (Off.NET_TX_STAT s) 30 false
    else
      let was := d
      let d := d.wr off v
      let d := if v.getLsbD 31 && !old.getLsbD 31 then d.rxStart s
        else if v.getLsbD 31 then d
        else (d.setRxStream s RxStream.init).setFld (Off.NET_RX_STAT s) 31 28 0
      Dev.igmpDiff was d

/-! ### Receiving (R197 to R201) -/

/-- Does a packet belong to a stream (R197)? -/
def Dev.packetFor (d : Dev) (s : Nat) (p : RtpPacket) : Bool :=
  d.rxEn s && (d.rxPorts s).contains p.port && decide (p.dstIp = (d.rd (Off.NET_RX_GROUP_IP s)).toNat) &&
    decide (p.udpPort = d.fld (Off.NET_RX_PORT_PT s) 31 16) &&
    (decide ((d.rd (Off.NET_RX_SRC_IP s)).toNat = 0) || decide ((d.rd (Off.NET_RX_SRC_IP s)).toNat = p.srcIp)) &&
    decide (p.version = 2) && decide (p.pt = d.fld (Off.NET_RX_PORT_PT s) 6 0)

/-- The rate a stream counts at. -/
def Dev.rxRate (d : Dev) (s : Nat) : Nat := if d.bit (Off.NET_RX_CTL s) 29 then 96000 else 48000
def Dev.rxLofs (d : Dev) (s : Nat) : Nat := min 448 (d.fld (Off.NET_RX_LOFS s) 8 0)

/-- The 64-bit index n ≡ τ (mod 2³²) nearest to the current one (R198). -/
def extendStamp (cur stamp : Nat) : Nat := ((cur : Int) + signedOf 32 (stamp + 2 ^ 32 - cur % 2 ^ 32)).toNat

/-- Counting a discard: NET_RX_LATE_CNT, and STREAM_LATE in the first tick of an episode (R198). -/
def Dev.rxDiscard (d : Dev) (s : Nat) (say : Bool) : Dev :=
  let x := d.rxStream s
  let d := d.bump (Off.NET_RX_LATE_CNT s)
  if say then
    let d := if x.lateAt + 1 < d.clk.tick + 1 ∨ x.lateAt = 0 then d.raise 0x0905 0 s else d
    d.setRxStream s { d.rxStream s with lateAt := d.clk.tick + 1 }
  else d

/-- The first of the channel's owners: the lowest-numbered enabled stream that covers a NET_RX index (R196). -/
def Dev.rxOwner (d : Dev) (i : Nat) : Option Nat :=
  rxStreams.find? (fun s => d.rxEn s && decide (ctlBase (d.rd (Off.NET_RX_CTL s)) ≤ i) &&
    decide (i < ctlBase (d.rd (Off.NET_RX_CTL s)) + ctlChannels (d.rd (Off.NET_RX_CTL s))))

/-- A packet accepted on a network: the path is present, and its return is reported (R201). -/
def Dev.pathSeen (d : Dev) (s net : Nat) : Dev :=
  let x := d.rxStream s
  let d := if (if net = 0 then x.redLost else x.blueLost) then d.raise 0x0904 0 (net * 256 + s) else d
  let now := d.clk.tick + 1
  (d.setRxStream s (if net = 0 then { x with red := now, redLost := false } else { x with blue := now, blueLost := false })).setBit
    (Off.NET_RX_STAT s) (28 + net) true

/-- The slip that a stream's average margin asks for (R200): +1 repeats a frame at own index `first`, −1 drops one. -/
def Dev.rxSlip (d : Dev) (s first : Nat) (by_ : Int) : Dev :=
  let m := 16 + s
  let h := max (if by_ < 0 then first - 1 else first) (d.clk.tick * d.L)
  let d := d.setInMem m { d.inMem m with marks := (d.inMem m).marks ++ [(h, by_)] }
  let d := (d.countMemSlip m).raiseB 0x1E 0x0802 0 (2 * 2 ^ 24 + (if by_ < 0 then 1 else 2) * 2 ^ 16 + s)
  d.slipGroup m h by_

/-- ε with every slip that waits. -/
def Dev.rxEps (d : Dev) (s : Nat) : Int := (d.inMem (16 + s)).marks.foldl (fun a m => a + m.2) (d.inMem (16 + s)).eps

/-- The running average of the arrival margin (R200). -/
def Dev.rxMargin (d : Dev) (s first : Nat) (margin : Int) : Dev :=
  let x := d.rxStream s
  let sum := fadd x.margin (fofInt margin)
  if x.count + 1 < 64 then d.setRxStream s { x with margin := sum, count := x.count + 1 }
  else
    let avg := fdiv sum (fofNat 64)
    let d := d.setRxStream s { x with margin := 0, count := 0 }
    if flt avg fone then d.rxSlip s first 1
    else if flt 0x43F00000 avg then d.rxSlip s first (-1)
    else d

/-- A sample of a stream that an abort stops, in the tick of the abort (R352): it fades out as in R220. L: samples a tick of its rate. -/
def Dev.stopFade (d : Dev) (tx : Bool) (s L n : Nat) (v : F32) : F32 :=
  if d.net.stopping.contains (tx, s, n / L) then
    (if n % L + 1 = L then 0 else fmul v (fsub fone (fdiv (fofNat (n % L + 1)) (fofNat L))))
  else v

/-- One stream takes one packet (R197 to R201). -/
def Dev.rxTake (d : Dev) (s : Nat) (p : RtpPacket) : Dev :=
  let ctl := d.rd (Off.NET_RX_CTL s)
  let n := d.ctlSamples false ctl
  let ch := ctlChannels ctl
  let w := ctlBytes ctl
  if p.payload.length ≠ ch * n * w then d.rxDiscard s false
  else
    let fs := d.rxRate s
    let cur := d.nowIndex fs
    let foreign := ctl.getLsbD 30
    let eps := d.rxEps s
    let own := extendStamp cur p.timestamp + d.rxLofs s
    let closed := d.clk.tick * (fs / 3000)
    let plane := fun (i : Nat) => ((own + i : Nat) : Int) + eps
    let okAt := fun (i : Nat) => decide ((closed : Int) ≤ plane i) && decide (plane i < (cur + 512 : Nat))
    let good := (List.range n).filter okAt
    let d := if good.length < n then d.rxDiscard s true else d
    -- the margin of every packet joins the average, wherever its samples fall (R200)
    let averaged := fun (d : Dev) => if foreign then d else d.rxMargin s ((own : Int) + eps).toNat (plane (n - 1) - cur)
    if good.isEmpty then averaged d
    else
      let x := d.rxStream s
      let new := good.filter (fun i => mget (fun _ => 0) x.have_ (own + i) == 0)
      let d := d.setRxStream s { x with have_ := new.foldl (fun m i => mset (fun _ => 0) m (own + i) 1) x.have_ }
      let d := forL new (fun i d => forN ch (fun c d =>
        let at_ := (i * ch + c) * w
        let v := sampleOf (8 * w) (beNat ((p.payload.drop at_).take w))
        if foreign then
          (if d.rxOwner (ctlBase ctl + c) = some s then d.sput (Sig.netForeign (ctlBase ctl + c)) (plane i).toNat
            (d.stopFade false s (fs / 3000) (plane i).toNat v) else d)
        else d.sput (Sig.rxRaw s c) (own + i) v) d) d
      averaged (d.pathSeen s (d.portNet p.port))

/-- One received packet; fragments and packets with IP options are discarded, as are frames of another VLAN (R192). -/
def Dev.rxPacket (d : Dev) (p : RtpPacket) : Dev :=
  if d.linkUp p.port && d.tagTaken p.port p.vlan && p.whole then forL (rxStreams.filter (fun s => d.packetFor s p)) (fun s d => d.rxTake s p) d else d

/-- STREAM_PACKET_RX. Of two packets of one cycle the lower-numbered port's is the first (R201). -/
def Dev.rxPackets (d : Dev) (p : RtpPacket) (twin : Option RtpPacket) : Dev :=
  match twin with
  | none => d.rxPacket p
  | some q => if q.port < p.port then (d.rxPacket q).rxPacket p else (d.rxPacket p).rxPacket q

/-- STREAM_PATH_LOST: no packet accepted on a network of the stream for 3,000 ticks (R201). -/
def Dev.pathLost (d : Dev) (s net : Nat) : Dev :=
  let x := d.rxStream s
  let last := if net = 0 then x.red else x.blue
  let lost := if net = 0 then x.redLost else x.blueLost
  if d.rxEn s && (d.rxPorts s).any (fun e => d.portNet e == net) && !lost && decide (last - 1 + 3000 ≤ d.clk.tick) then
    ((d.setRxStream s (if net = 0 then { x with redLost := true } else { x with blueLost := true })).setBit
      (Off.NET_RX_STAT s) (28 + net) false).raise 0x0904 0 (net * 256 + 128 + s)
  else d

/-! ### Transmitting (R202 to R205) -/

/-- The ports a stream sends on (R204). -/
def Dev.txPorts (d : Dev) (s : Nat) : List Nat :=
  let v := d.rd (Off.NET_TX_CTL s)
  (ctlPorts v).filter (fun e => !(v.getLsbD 30 && d.net.splitOn) || d.portNet e == (if d.straps.twinB then 1 else 0))

/-- The address resolved by ARP for a unicast destination on a port (R205). -/
def Dev.nextHop (d : Dev) (e ip : Nat) : Nat :=
  let pfx := min 32 (d.fld (Off.NET_PORT_PFX e) 5 0)
  let net := fun (a : Nat) => a / 2 ^ (32 - pfx)
  if net ip = net (d.portIp e) then ip else (d.rd (Off.NET_PORT_GW e)).toNat
/-- The MAC a destination is sent to on a port, once it is resolved. -/
def Dev.destMac (d : Dev) (e ip : Nat) : Option Nat :=
  if isMulticast ip then some (groupMac ip)
  else
    let m := mget (fun _ => 0) d.net.arp (e * 2 ^ 32 + d.nextHop e ip)
    if m = 0 then none else some (m - 1)
def Dev.resolved (d : Dev) (e ip : Nat) : Bool := (d.destMac e ip).isSome
def Dev.arpAsk (d : Dev) (e ip : Nat) : Dev :=
  if isMulticast ip || d.nextHop e ip == 0 || !d.linkUp e then d else d.stewSend e 1 broadcastMac [d.portIp e, d.nextHop e ip]


/-- A packet of a transmit stream: RTP header and payload (R203). -/
def Dev.txPacket (d : Dev) (s q : Nat) : List Byte :=
  let v := d.rd (Off.NET_TX_CTL s)
  let n := d.ctlSamples true v
  let w := ctlBytes v
  let hdr := beBytes 1 0x80 ++ beBytes 1 (d.fld (Off.NET_TX_PORT_PT s) 6 0) ++ beBytes 2 (q % 65536) ++
    beBytes 4 (q * n % 2 ^ 32) ++ beBytes 4 (d.rd (Off.NET_TX_SSRC s)).toNat
  let body := (List.range n).map (fun i => (List.range (ctlChannels v)).map (fun c =>
    beBytes w (wordOf (8 * w) (d.stopFade true s d.L (q * n + i) (d.sget (Sig.gateOut (65536 + ctlBase v + c)) (q * n + i))))))
  hdr ++ body.flatten.flatten

/-- The one's complement sum of 16-bit words, odd lengths filled with a zero byte. -/
def onesSum : List Nat → Nat
  | a :: b :: bs => let t := 256 * a + b + onesSum bs; t % 65536 + t / 65536
  | [a] => 256 * a
  | [] => 0
/-- The UDP checksum over the IPv4 pseudo-header and the datagram. -/
def udpChecksum (srcIp dstIp srcPort dstPort : Nat) (payload : List Byte) : Nat :=
  let n := 8 + payload.length
  let hdr := beBytes 4 srcIp ++ beBytes 4 dstIp ++ beBytes 2 17 ++ beBytes 2 n ++ beBytes 2 srcPort ++ beBytes 2 dstPort ++ beBytes 2 n ++
    beBytes 2 0
  let c := 65535 - onesSum ((hdr ++ payload).map (fun (b : Byte) => b.toNat))
  if c = 0 then 65535 else c
/-- A datagram from a port to a resolved destination, whole and with one port number for both ends (R203). -/
def Dev.datagram (d : Dev) (e mac ip udp dscp ttl : Nat) (payload : List Byte) : Datagram :=
  { dstMac := mac, srcMac := d.portMac e, vlan := d.vlanTag e, srcIp := d.portIp e, dstIp := ip, ident := 0, df := true
    dscp := dscp, ttl := ttl, srcPort := udp, dstPort := udp, checksum := udpChecksum (d.portIp e) ip udp udp payload, payload := payload }

/-- UNRESOLVED of every enabled transmit stream (R205). -/
def Dev.txResolve (d : Dev) : Dev :=
  forL (rxStreams.filter (fun s => d.txEn s)) (fun s d =>
    d.setBit (Off.NET_TX_STAT s) 30
      ((d.txPorts s).any (fun e => d.linkUp e && !d.resolved e (d.rd (Off.NET_TX_DST_IP s)).toNat))) d

/-- May packet q of a stream of n samples a packet be sent: the period of its last sample has ended, and a forward step of local time
has passed over none of its ticks (R202)? -/
def Dev.txDue (d : Dev) (n q : Nat) : Bool :=
  decide (q * n + n ≤ d.nowIndex d.fs) && (match d.ptp.passed with
    | some (a, b) => decide (q * n + n ≤ a * d.L) || decide (b * d.L ≤ q * n)
    | none => true)

/-- STREAM_PACKET_TX: packet q of stream s (R202 to R205). -/
def Dev.txSend (d : Dev) (s q : Nat) : Dev :=
  if !d.txEn s || !d.txDue (d.ctlSamples true (d.rd (Off.NET_TX_CTL s))) q then d
  else
    let ip := (d.rd (Off.NET_TX_DST_IP s)).toNat
    let ports := (d.txPorts s).filter (fun e => d.linkUp e)
    let go := ports.filter (fun e => d.resolved e ip)
    let wait := ports.filter (fun e => !d.resolved e ip)
    let bytes := d.txPacket s q
    let d := forL wait (fun e d => d.arpAsk e ip) d
    let d := forL go (fun e d => d.emit (.udp e (d.datagram e ((d.destMac e ip).getD 0) ip (d.fld (Off.NET_TX_PORT_PT s) 31 16)
      (d.fld (Off.NET_TX_QOS s) 13 8) (d.fld (Off.NET_TX_QOS s) 7 0) bytes))) d
    let d := (d.setBit (Off.NET_TX_STAT s) 31 (!go.isEmpty)).setBit (Off.NET_TX_STAT s) 30 (!wait.isEmpty)
    if go.isEmpty then d else d.wrN (Off.NET_TX_PKTS s) (((d.rd (Off.NET_TX_PKTS s)).toNat + 1) % 2 ^ 32)

/-! ### Steward services (R205 to R207) -/

/-- STEWARD_PACKET. -/
def Dev.stewardTake (d : Dev) (e : Nat) (vlan : Option Nat) (p : StewPacket) : Dev :=
  let ip := d.portIp e
  if !d.linkUp e || ip == 0 || !d.tagTaken e vlan then d
  else match p with
    | .arpRequest a mac t => if t = ip then d.stewSend e 2 mac [ip, a] else d
    | .arpReply a mac =>
      ({ d with net := { d.net with arp := mset (fun _ => 0) d.net.arp (e * 2 ^ 32 + a) (mac + 1) } } : Dev).txResolve
    | .icmpEcho a mac t bs => if t = ip ∧ bs.length ≤ 1472 then d.stewSend e 4 mac (a :: bs.map (fun b => b.toNat)) else d
    | .igmpQuery g => forL ((d.members e).filter (fun m => g == 0 || m.1 == g)) (fun m d => d.igmp e true m) d
    | .other => d

/-- ARP_REFRESH: the unicast destinations in use are asked for again (R205). -/
def Dev.arpRefreshAll (d : Dev) : Dev :=
  let d := forL (rxStreams.filter (fun s => d.txEn s)) (fun s d =>
    forL (d.txPorts s) (fun e d => d.arpAsk e (d.rd (Off.NET_TX_DST_IP s)).toNat) d) d
  if d.bit Off.NET_NOTICE_CFG 31 then
    forL (netPorts.filter (fun e => (d.rd Off.NET_NOTICE_CFG).getLsbD (16 + e))) (fun e d => d.arpAsk e (d.rd Off.NET_NOTICE_IP).toNat) d
  else d

/-- A Notice datagram (R207): at most 64 waiting records. -/
def Dev.noticeBytes (d : Dev) (es : List EvRec) : List Byte :=
  let member := if d.bit Off.TWN_CTL 28 then d.fld Off.TWN_DST_CFG 18 16 else 0xFF
  leBytes 4 0x544E4C43 ++ leBytes 2 1 ++ leBytes 2 es.length ++ leBytes 4 d.evt.noticeSeq ++ leBytes 1 d.unitByte ++ leBytes 1 member ++
    leBytes 2 0 ++ (es.map EvRec.bytes).flatten

/-- NOTICE_SEND. -/
def Dev.noticeGo (d : Dev) : Dev :=
  let es := d.evt.notice.take 64
  let udp := d.fld Off.NET_NOTICE_CFG 15 0
  if es.isEmpty || udp == 0 then d
  else
    match netPorts.find? (fun e => (d.rd Off.NET_NOTICE_CFG).getLsbD (16 + e) && d.linkUp e) with
    | none => { d with evt := { d.evt with notice := [] } }.bumpN Off.NET_NOTICE_STAT d.evt.notice.length
    | some e =>
      let ip := (d.rd Off.NET_NOTICE_IP).toNat
      if !d.resolved e ip then d.arpAsk e ip
      else
        let d := d.emit (.udp e (d.datagram e ((d.destMac e ip).getD 0) ip udp 0 64 (d.noticeBytes es)))
        { d with evt := { d.evt with notice := d.evt.notice.drop 64, noticeSeq := (d.evt.noticeSeq + 1) % 2 ^ 32 } }

/-! ### Egress loss (R208) -/

def Dev.egressSet (d : Dev) : List Nat := netPorts.filter (fun e => rxStreams.any (fun s => d.txEn s && (d.txPorts s).contains e))
def portBits (es : List Nat) : Nat := es.foldl (fun a e => a + 2 ^ e) 0
/-- The counts of consecutive boundaries behind R208. -/
def Dev.egressBoundary (d : Dev) : Dev :=
  let es := d.egressSet
  { d with net := { d.net with
      downRun := netPorts.foldl (fun m e => mset (fun _ => 0) m e (if d.linkUp e then 0 else mget (fun _ => 0) m e + 1)) d.net.downRun
      upRun := netPorts.foldl (fun m e => mset (fun _ => 0) m e (if es.contains e && d.linkUp e then mget (fun _ => 0) m e + 1 else 0)) d.net.upRun } }
/-- EGRESS_LOST, but for the Detour. -/
def Dev.egressGone (d : Dev) : Dev × Bool :=
  let es := d.egressSet
  if !d.net.egressLost && !es.isEmpty && es.all (fun e => decide (max 1 (d.fld Off.NET_CTL 7 0) ≤ mget (fun _ => 0) d.net.downRun e)) then
    ({ d with net := { d.net with egressLost := true } }.raise 0x0901 0 (portBits es), true)
  else (d, false)
/-- EGRESS_RESTORED. -/
def Dev.egressBack (d : Dev) : Dev :=
  if d.net.egressLost && netPorts.any (fun e => decide (3000 ≤ mget (fun _ => 0) d.net.upRun e)) then
    { d with net := { d.net with egressLost := false } }.raise 0x0902 0 (portBits d.egressSet)
  else d

/-! ### Input planes: the capture blocks of a tick close (R9 step 1, R186, R199) -/

/-- The own index a member reads for house index h; a mark at h takes effect from h on. -/
def InMem.at_ (x : InMem) (h : Nat) : Int :=
  (h : Int) - x.marks.foldl (fun a m => if m.1 ≤ h then a + m.2 else a) x.eps

/-- Has a member a sample for house index h? -/
def Dev.memHas (d : Dev) (m h : Nat) : Bool :=
  let i := (d.inMem m).at_ h
  decide (0 ≤ i) && mget (fun _ => 0) (if m < 16 then (d.port m).got else (d.rxStream (m - 16)).have_) i.toNat == 1

/-- Is a member that has no sample for house index h in underrun there? A stream is; a serial port from the index of a clock fault on,
and where a drop has moved its mapping to a frame that has not come; not while it is under its first silent start or stopped (R186). -/
def Dev.memAwaited (d : Dev) (m h : Nat) : Bool :=
  let i := (d.inMem m).at_ h
  decide (16 ≤ m) || ((d.port m).next.isSome && decide ((h : Int) < i)) || (match (d.port m).faultAt with
    | some f => decide ((f : Int) ≤ i)
    | none => false)

/-- A member's signals: raw, and as captured; a channel that a lower stream owns is discarded (R196). -/
def Dev.memChannels (d : Dev) (m : Nat) : List (Nat × Nat) :=
  if m < 16 then (List.range (cfgFrameSlots (d.re (Off.PRT_CFG m)))).map (fun s => (Sig.serialRaw (32 * m + s), Sig.serialIn (32 * m + s)))
  else
    let s := m - 16
    let v := d.rd (Off.NET_RX_CTL s)
    ((List.range (ctlChannels v)).filter (fun c => d.rxOwner (ctlBase v + c) == some s)).map (fun c =>
      (Sig.rxRaw s c, Sig.netRx (ctlBase v + c)))

/-- A member delivers house index h, faded where it resumes (R186); `rep`: it repeats its frame h−1. -/
def Dev.memDeliver (d : Dev) (m h : Nat) (rep : Bool) : Dev :=
  let x := d.inMem m
  let i := x.at_ h
  let k := h % d.L
  forL (d.memChannels m) (fun (c : Nat × Nat) d =>
    let v := if rep then d.sgetI c.2 ((h : Int) - 1) else d.sgetI c.1 i
    let v := if x.fadeAt = some (h / d.L) then fmul v (if k + 1 = d.L then fone else fdiv (fofNat (k + 1)) (fofNat d.L)) else v
    d.sput c.2 h (if 16 ≤ m then d.stopFade false (m - 16) d.L h v else v)) d

/-- One house index of an INDEPENDENT member: a stream resumes at a boundary, a serial port through its silent start. -/
def Dev.stepAlone (d : Dev) (m h : Nat) : Dev :=
  if 16 ≤ m ∧ (d.inMem m).zero = true then d
  else if d.memHas m h then d.memDeliver m h false
  else if d.memAwaited m h then (d.setInMem m { d.inMem m with zero := true }).memUnder m
  else d

/-- One house index of a COHERENT group (R186). -/
def Dev.stepGroup (d : Dev) (g h : Nat) : Dev :=
  let ms := d.groupMembers g
  let st := mget (fun _ => AGroup.init) d.net.groups g
  let set := fun (a : AGroup) (d : Dev) => { d with net := { d.net with groups := mset (fun _ => AGroup.init) d.net.groups g a } }
  if st.zero then d
  else
    let lack := ms.filter (fun m => !d.memHas m h && d.memAwaited m h)
    if lack.isEmpty then forL ms (fun m d => d.memDeliver m h false) (set { st with rep := false } d)
    else
      let d := forL lack (fun m d => d.memUnder m) d
      if st.rep then set ⟨true, false⟩ d
      else forL ms (fun m d => (d.memDeliver m h true).setInMem m { d.inMem m with marks := (d.inMem m).marks ++ [(h, 1)] }) (set ⟨false, true⟩ d)

/-- The end of a tick for one member: its slips are taken up, and what has resumed fades in over the next tick. -/
def Dev.memTickEnd (d : Dev) (m t : Nat) : Dev :=
  let last := (t + 1) * d.L - 1
  let has := d.memHas m last
  let x := d.inMem m
  let eps := x.marks.foldl (fun a k => if k.1 ≤ last then a + k.2 else a) x.eps
  let marks := x.marks.filter (fun k => decide (last < k.1))
  -- an INDEPENDENT port reads its own frames again
  let eps := if m < 16 ∧ eps < 0 ∧ d.coherent (d.memGroup m) = false then 0 else eps
  let back := has && x.said
  let fade := if back && x.zero && decide (16 ≤ m) then some (t + 1) else if x.fadeAt = some t then none else x.fadeAt
  let d := d.setInMem m { x with eps := eps, marks := marks, zero := x.zero && !has, said := x.said && !has, fadeAt := fade }
  if m < 16 then
    let y := d.port m
    d.setPort m { y with
      got := mkeep (fun (i : Nat) => decide ((last : Int) - eps < i)) y.got
      faultAt := if has && (match y.faultAt with | some f => decide ((f : Int) ≤ (last : Int) - eps) | none => false) then none else y.faultAt }
  else
    let s := m - 16
    let own := ((last : Int) - eps).toNat
    let y := d.rxStream s
    let d := d.setRxStream s { y with have_ := mkeep (fun i => decide (own < i)) y.have_ }
    let d := (d.setBit (Off.NET_RX_STAT s) 31 has).setFld (Off.NET_RX_STAT s) 15 0 (toSigned 16 eps)
    if has then d.setBit (Off.NET_RX_STAT s) 30 false else d

/-- A group resumes when no member lacks the last index of the tick. -/
def Dev.groupTickEnd (d : Dev) (g t : Nat) : Dev :=
  let st := mget (fun _ => AGroup.init) d.net.groups g
  let last := (t + 1) * d.L - 1
  let ms := d.groupMembers g
  if st.zero && ms.all (fun m => d.memHas m last || !d.memAwaited m last) then
    let d := { d with net := { d.net with groups := mset (fun _ => AGroup.init) d.net.groups g AGroup.init } }
    forL ms (fun m d => d.setInMem m { d.inMem m with fadeAt := some (t + 1) }) d
  else d

/-- CAPTURE_CLOSE: the capture blocks of tick t are closed. -/
def Dev.captureClose (d : Dev) (t : Nat) : Dev :=
  let ms := (List.range 144).filter (fun m => d.memLive m)
  let gs := (List.range 32).filter (fun g => d.coherent g && ms.any (fun m => d.memGroup m == g))
  let alone := ms.filter (fun m => !d.coherent (d.memGroup m))
  let d := forN d.L (fun k d =>
    let h := t * d.L + k
    let d := forL alone (fun m d => d.stepAlone m h) d
    forL gs (fun g d => d.stepGroup g h) d) d
  let d := forL gs (fun g d => d.groupTickEnd g t) d
  forL ms (fun m d => d.memTickEnd m t) d

end Sys2Proof.Machine
end

