-- ==== Sys2Proof/Machine/Dmc.lean ====
section
/-! DEFINITION. The SDRAM controller (file 17): configurations and the granule map, the queues and their order, row-disturbance
tracking, refresh, ECC, the scrubber, power-down and the timing sets. -/

namespace Sys2Proof.Machine

def Dev.dch (d : Dev) (c : Nat) : DmcCh := mget (fun _ => DmcCh.init) d.dmc c
def Dev.setDch (d : Dev) (c : Nat) (x : DmcCh) : Dev := { d with dmc := mset (fun _ => DmcCh.init) d.dmc c x }

/-! ### Configurations and the granule map (R290, R291) -/

def Dev.dmcEn (d : Dev) (c : Nat) : Bool := d.bit (Off.DMC_CTL c) 31
/-- The configurations of R290. -/
def dmcConfigOk (density ranks : Nat) : Bool := density == 0 || (density == 1 && ranks == 0)
/-- Capacity of one channel in MiB. -/
def dmcChannelMib (density ranks : Nat) : Nat := if density = 0 ∧ ranks = 0 then 16384 else 32768
/-- Granules of one channel. -/
def Dev.dmcGranules (d : Dev) (c : Nat) : Nat :=
  dmcChannelMib (d.fld (Off.DMC_CTL c) 25 24) (d.fld (Off.DMC_CTL c) 23 23) * 8192

def granuleCh (g : Nat) : Nat := bitsOf g 5 5
def granuleH (g : Nat) : Nat := g / 64 * 32 + g % 32
/-- The granule of index h on channel c. -/
def granuleOf (c h : Nat) : Nat := h / 32 * 64 + 32 * c + h % 32

/-- Where a granule lies (R291): row, and bank as 32·rank + 4·bank group + bank. -/
def Dev.dmcRow (d : Dev) (c g : Nat) : Nat :=
  let h := granuleH g
  if d.fld (Off.DMC_CTL c) 25 24 = 0 then bitsOf h 26 11 else bitsOf h 27 11
def Dev.dmcRank (d : Dev) (c g : Nat) : Nat :=
  if d.bit (Off.DMC_CTL c) 23 then bitsOf (granuleH g) 27 27 else 0
def Dev.dmcBank (d : Dev) (c g : Nat) : Nat :=
  32 * d.dmcRank c g + 4 * bitsOf (granuleH g) 8 6 + bitsOf (granuleH g) 10 9

/-! ### Status -/

/-- DMC_STAT and DMC_THR follow the queues and the throttles. -/
def Dev.dmcStat (d : Dev) (c : Nat) : Dev :=
  let x := d.dch c
  let d := (d.setFld (Off.DMC_STAT c) 31 25 x.rq.length).setFld (Off.DMC_STAT c) 24 19 x.wq.length
  let d := d.setBit (Off.DMC_STAT c) 18 x.drain
  let d := d.setBit (Off.DMC_PWR c) 29 (!x.pd.isEmpty)
  d.wrN (Off.DMC_THR c) (sumN 16 (fun i => if x.thr.any (fun k => k / 64 == i) then 2 ^ i else 0))

/-- The drain marks as used. -/
def Dev.dmcHigh (d : Dev) (c : Nat) : Nat := min 32 (max 1 (d.fld (Off.DMC_WQ_WM c) 13 8))
def Dev.dmcLow (d : Dev) (c : Nat) : Nat := min (d.fld (Off.DMC_WQ_WM c) 5 0) (d.dmcHigh c - 1)

/-- DRAIN sets at HIGH and clears at LOW (R294). -/
def Dev.dmcDrain (d : Dev) (c : Nat) : Dev :=
  let x := d.dch c
  let n := x.wq.length
  d.setDch c { x with drain := decide (d.dmcHigh c ≤ n) || (x.drain && decide (d.dmcLow c < n)) }

/-! ### Acceptance (R293, R295, R296) -/

def strobesOf (bs : List (Option Byte)) : List Bool := (List.range 128).map (fun i => (bs.getD i none).isSome)
def orStrobes (a b : List Bool) : List Bool := (List.range 128).map (fun i => a.getD i false || b.getD i false)
/-- The beats of a granule that a write covers only in part. -/
def partBeats (s : List Bool) : List Nat :=
  (List.range 16).filter (fun b =>
    let l := (List.range 8).map (fun i => s.getD (8 * b + i) false)
    l.any (fun x => x) && !l.all (fun x => x))
def wholeBeats (s : List Bool) : List Nat :=
  (List.range 16).filter (fun b => (List.range 8).all (fun i => s.getD (8 * b + i) false))

/-- The bytes a write leaves. -/
def storeStrobed (m : NMap Byte) (a : Nat) : List (Option Byte) → NMap Byte
  | [] => m
  | some b :: bs => storeStrobed (bset m a b) (a + 1) bs
  | none :: bs => storeStrobed m (a + 1) bs

/-- A write entry that a later write to its granule may join: not yet begun. -/
def joinable (g : Nat) (r : DmcReq) : Bool := r.granule == g && !r.begun

/-- A read of a granule to which a write has been accepted after it; and one whose beats a write issued after it has covered. -/
def DmcReq.overtaken (g : Nat) (r : DmcReq) : DmcReq := if r.granule == g then { r with later := true } else r
def DmcReq.covered (g : Nat) (beats : List Nat) (r : DmcReq) : DmcReq := if r.granule == g then { r with whole := r.whole ++ beats } else r

/-- A write to a granule is accepted and acknowledged: the reads before it are overtaken, and a correction's write-back to it is discarded
(R293, R301, R304). -/
def DmcCh.writeTaken (x : DmcCh) (g req : Nat) : DmcCh :=
  { x with
    rq := x.rq.map (DmcReq.overtaken g)
    flight := x.flight.map (DmcReq.overtaken g)
    wback := x.wback.filter (fun w => w.1 != g)
    ack := some (g, req) }

/-- One request, if its queue has room; none where it must stall. -/
def Dev.dmcAccept (d : Dev) (c g req : Nat) (op : DmcOp) : Option Dev :=
  let x := d.dch c
  let a := 128 * g
  match op with
  | .read flow =>
    if x.rq.length < 64 then
      let r : DmcReq := ⟨x.seq, g, req, d.nsNow, [], flow, false, false, getBytes d.sdram a 128, false, []⟩
      some (d.setDch c { x with seq := x.seq + 1, rq := x.rq ++ [r] })
    else none
  | .write bs =>
    let bs := bs.take 128
    let s := strobesOf bs
    let y := x.writeTaken g req
    if x.wq.any (joinable g) then
      some ({ d with sdram := storeStrobed d.sdram a bs }.setDch c
        { y with wq := x.wq.map (fun r => if joinable g r then { r with strobes := orStrobes r.strobes s } else r) })
    else if x.wq.length < 32 then
      let r : DmcReq := ⟨x.seq, g, req, d.nsNow, s, none, false, false, [], false, []⟩
      some ({ d with sdram := storeStrobed d.sdram a bs }.setDch c { y with seq := x.seq + 1, wq := x.wq ++ [r] })
    else none

/-- A request arrives: accepted, or stalled behind its requester's earlier ones or a full queue. It wakes its rank (R303). -/
def Dev.dmcRequest (d : Dev) (c g req : Nat) (op : DmcOp) : Dev :=
  let x := d.dch c
  let d := d.setDch c { x with
    pd := x.pd.filter (fun r => r != d.dmcRank c g), lastReq := mset (fun _ => 0) x.lastReq (d.dmcRank c g) d.nsNow }
  let stall := fun (d : Dev) => let x := d.dch c; d.setDch c { x with stalled := x.stalled ++ [⟨g, req, op⟩] }
  let d := if !d.dmcEn c || x.stalled.any (fun w => w.req == req) then stall d
    else match d.dmcAccept c g req op with
      | some d => d
      | none => stall d
  (d.dmcDrain c).dmcStat c

/-- Stalled requests are taken as entries free, each requester's in its order. -/
def Dev.dmcUnstall (d : Dev) (c : Nat) : Dev :=
  let step := fun (p : Dev × List DmcStall) (w : DmcStall) =>
    if p.2.any (fun v => v.req == w.req) then (p.1, p.2 ++ [w])
    else match p.1.dmcAccept c w.granule w.req w.op with
      | some d => (d, p.2)
      | none => (p.1, p.2 ++ [w])
  let r := (d.dch c).stalled.foldl step (d, [])
  let x := r.1.dch c
  r.1.setDch c { x with stalled := r.2 }

/-! ### Errors (R301) -/

/-- An uncorrectable beat counts, is captured and is raised. -/
def Dev.eccFatal (d : Dev) (c g n : Nat) (scrub : Bool) : Dev :=
  if n = 0 then d else
  let d := d.bumpFld (Off.DMC_ECC_STAT c) 15 0 n
  let d := if d.bit (Off.DMC_ECC_ADDR c) 31 then d else d.wrN (Off.DMC_ECC_ADDR c) (2 ^ 31 + g % 2 ^ 29)
  let d := if scrub then { d with twn := { d.twn with scrubBad := d.clk.tick + 1 } } else d
  d.raise 0x0E03 c (c * 2 ^ 31 + (if scrub then 2 ^ 30 else 0) + g % 2 ^ 29)

/-- Corrected beats count, and the first on the channel in each 3,000 ticks is raised. -/
def Dev.eccCorrected (d : Dev) (c g n : Nat) : Dev :=
  if n = 0 then d else
  let d := d.bumpFld (Off.DMC_ECC_STAT c) 31 16 n
  let x := d.dch c
  if x.ceAt = 0 ∨ x.ceAt + 2999 < d.clk.tick + 1 then
    (d.setDch c { x with ceAt := d.clk.tick + 1 }).raise 0x0E02 c (c * 2 ^ 31 + g % 2 ^ 29)
  else d

/-! ### Issue (R294, R297, R298) -/

/-- The pair (requester, bank) of a request. -/
def Dev.dmcPair (d : Dev) (c : Nat) (r : DmcReq) : Nat := 64 * r.req + d.dmcBank c r.granule

/-- A request is held under R298. -/
def Dev.dmcHeld (d : Dev) (c : Nat) (r : DmcReq) : Bool :=
  let x := d.dch c
  let k := d.dmcPair c r
  let last := mget (fun _ => 0) x.lastIss k
  (x.thr.contains k || r.held) && last != 0 && decide (d.nsNow + 1 < last + d.fld (Off.DMC_RH_DELAY c) 15 0)

/-- A read waits for every earlier entry of its granule (R295). -/
def DmcCh.waits (x : DmcCh) (r : DmcReq) : Bool := x.wq.any (fun w => w.granule == r.granule && decide (w.seq < r.seq))

def Dev.dmcOpen (d : Dev) (c : Nat) (r : DmcReq) : Bool :=
  mget (fun _ => 0) (d.dch c).open_ (d.dmcBank c r.granule) == d.dmcRow c r.granule + 1

/-- The read to issue: aged first, then open rows, then the oldest (R294). -/
def Dev.dmcPickRead (d : Dev) (c : Nat) : Option DmcReq :=
  let x := d.dch c
  let ok := x.rq.filter (fun r => !x.waits r && !d.dmcHeld c r)
  match ok.find? (fun r => decide (r.at_ + 1000 ≤ d.nsNow)) with
  | some r => some r
  | none => match ok.find? (fun r => d.dmcOpen c r) with
    | some r => some r
    | none => ok.head?

/-- 32 ms in ns: the window of R297 and the MR4 period of R299. -/
def ms32 : Nat := 32000000

/-- RH_WINDOW_END: tables clear and throttles lift every 32 ms from EN; requests already held keep their hold (R297, R298). -/
def Dev.dmcWindowEnd (d : Dev) (c : Nat) : Dev :=
  let x := d.dch c
  if !d.dmcEn c || decide (d.nsNow < x.winAt + ms32) then d else
  let keep := fun (r : DmcReq) => { r with held := r.held || x.thr.contains (d.dmcPair c r) }
  (d.setDch c { x with acts := [], thr := [], winAt := x.winAt + ms32, rq := x.rq.map keep, wq := x.wq.map keep }).dmcStat c

/-- One row activation in a bank's table of 16 (R297). -/
def rhCount (t : NMap Nat) (row : Nat) : NMap Nat :=
  let z := fun (_ : Nat) => 0
  if mget z t row ≠ 0 then mset z t row (mget z t row + 1)
  else if t.length < 16 then mset z t row 1
  else (t.map (fun e => (e.1, e.2 - 1))).filter (fun e => e.2 != 0)

/-- The bank's row is opened if it is not open; an activation is counted and may throttle its requester (ROW_THROTTLE). A window that has
ended by then ends first, and an activation at the very instant counts in neither (R304). -/
def Dev.dmcActivate (d : Dev) (c : Nat) (r : DmcReq) : Dev :=
  let bank := d.dmcBank c r.granule
  let row := d.dmcRow c r.granule
  let k := d.dmcPair c r
  let z := fun (_ : Nat) => 0
  let x := d.dch c
  let d := d.setDch c { x with lastIss := mset z x.lastIss k (d.nsNow + 1) }
  let x := d.dch c
  if d.dmcOpen c r then d
  else
    let d := d.setDch c { x with open_ := mset z x.open_ bank (row + 1) }
    let th := d.fld (Off.DMC_RH_TH c) 15 0
    let ends := decide (d.nsNow = x.winAt + ms32)
    let d := if th = 0 then d else d.dmcWindowEnd c
    if th = 0 ∨ ends = true then d
    else
      let x := d.dch c
      let t := rhCount (mget (fun _ => []) x.acts bank) row
      let d := d.setDch c { x with acts := mset (fun _ => []) x.acts bank t }
      if mget z t row = th ∧ r.req ≠ 13 ∧ x.thr.contains k = false then
        let y := d.dch c
        (d.setDch c { y with thr := y.thr ++ [k] }).raise 0x0E01 c
          (r.req * 2 ^ 28 + c * 2 ^ 27 + d.dmcRank c r.granule * 2 ^ 26 + (bank % 32) * 2 ^ 21 + row)
      else d

/-- The decoder's finding for a beat of a granule read: one known to be uncorrectable is found so again (R296, R301). -/
def Dev.dmcFound (d : Dev) (g : Nat) (beats : List EccBeat) (b : Nat) : EccBeat :=
  if d.poison.contains (16 * g + b) then .fatal else beats.getD b .clean

/-- Beats found uncorrectable stay so until they are written whole (R296, R301). -/
def Dev.dmcPoison (d : Dev) (g : Nat) (bad : List Nat) : Dev :=
  { d with poison := d.poison ++ (bad.map (fun b => 16 * g + b)).filter (fun p => !d.poison.contains p) }

/-- The findings of a read of a granule's beats: those corrected and those uncorrectable. -/
def Dev.dmcDecode (d : Dev) (g : Nat) (beats : List EccBeat) : List Nat × List Nat :=
  ((List.range 16).filter (fun b => d.dmcFound g beats b == .corrected), (List.range 16).filter (fun b => d.dmcFound g beats b == .fatal))

/-- A write's turn: the read part of a read-modify-write first, whose beats are decoded as any read's, and in the next slot the
write itself (R296, R301). -/
def Dev.dmcIssueWrite (d : Dev) (c : Nat) (r : DmcReq) (beats : List EccBeat) : Dev :=
  let beat := fun (b : Nat) => 16 * r.granule + b
  let d := d.dmcActivate c r
  let x := d.dch c
  if r.begun || (partBeats r.strobes).isEmpty then
    let whole := wholeBeats r.strobes
    ({ d with poison := d.poison.filter (fun p => !whole.any (fun b => beat b == p)) }).setDch c { x with
      wq := x.wq.drop 1
      flight := x.flight.map (DmcReq.covered r.granule whole) }
  else
    let f := d.dmcDecode r.granule beats
    let d := (d.dmcPoison r.granule f.2).setDch c { x with wq := { r with begun := true } :: x.wq.drop 1 }
    (d.eccCorrected c r.granule f.1.length).eccFatal c r.granule f.2.length false

def Dev.dmcIssueRead (d : Dev) (c : Nat) (r : DmcReq) : Dev :=
  let d := d.dmcActivate c r
  let x := d.dch c
  d.setDch c { x with rq := x.rq.filter (fun q => q.seq != r.seq), flight := x.flight ++ [r] }

/-- A corrected granule is written back: its row is opened, and its contents stay (R301). -/
def Dev.dmcWriteBack (d : Dev) (c : Nat) (w : Nat × Nat) : Dev :=
  let x := d.dch c
  (d.setDch c { x with wback := x.wback.drop 1 }).dmcActivate c ⟨x.seq, w.1, w.2, d.nsNow, [], none, false, false, [], false, []⟩

/-- Is a bank one of those that n same-bank refreshes from bank k on close? -/
def sbCloses (k n bank : Nat) : Bool := (List.range (min n 4)).any (fun i => bank % 4 == (k + i) % 4)

/-- Refreshes that are due are issued (R299): all-bank ones close the rank's rows; a same-bank one takes the next bank of every
bank group. -/
def Dev.dmcDoRefresh (d : Dev) (c rank : Nat) : Dev :=
  let x := d.dch c
  let n := mget (fun _ => 0) x.owed rank
  let k := mget (fun _ => 0) x.sbNext rank
  let sb := d.bit (Off.DMC_CTL c) 29
  d.setDch c { x with
    owed := mset (fun _ => 0) x.owed rank 0
    open_ := mkeep (fun b => b / 32 != rank || (sb && !sbCloses k n b)) x.open_
    sbNext := if sb then mset (fun _ => 0) x.sbNext rank ((k + n) % 4) else x.sbNext }

/-- One command of a channel (R294). A refresh postponed by more than 4 intervals goes first; what nothing else needs goes to the
write-back of a correction, and then to a postponed refresh (R299, R301). -/
def Dev.dmcCommand (d : Dev) (c : Nat) (beats : List EccBeat) : Dev :=
  let x := d.dch c
  let due := [0, 1].filter (fun r => decide (4 < mget (fun _ => 0) x.owed r))
  let owing := [0, 1].filter (fun r => decide (0 < mget (fun _ => 0) x.owed r))
  let head := match x.wq.head? with
    | some w => if d.dmcHeld c w then none else some w
    | none => none
  let idle := match x.wback with
    | w :: _ => d.dmcWriteBack c w
    | [] => forL owing (fun r d => d.dmcDoRefresh c r) d
  let d := if !due.isEmpty then forL due (fun r d => d.dmcDoRefresh c r) d
    else if x.drain then match head with
      | some w => d.dmcIssueWrite c w beats
      | none => idle
    else match d.dmcPickRead c with
      | some r => d.dmcIssueRead c r
      | none => match head with
        | some w => d.dmcIssueWrite c w beats
        | none => idle
  ((d.dmcUnstall c).dmcDrain c).dmcStat c

/-- DMC_ISSUE: one command slot. -/
def Dev.dmcSlot (d : Dev) (c : Nat) (beats : List EccBeat) : Dev :=
  if !d.dmcEn c || decide (d.nsNow < (d.dch c).holdTo) then d else d.dmcCommand c beats

/-- Queued reads of a flow's jobs are discarded; what has been issued returns, and accepted writes complete (R352). -/
def Dev.dmcDropFlow (d : Dev) (c flow : Nat) : Dev :=
  let x := d.dch c
  let d := d.setDch c { x with
    rq := x.rq.filter (fun r => r.flow != some flow)
    stalled := x.stalled.filter (fun w => w.op != .read (some flow)) }
  ((d.dmcUnstall c).dmcDrain c).dmcStat c

/-- A request of the render: kernels, history write-back and Listening Post rings (R292). -/
def isRenderReq (req : Nat) : Bool := decide (req < 5) || req == 12
def DmcCh.renderQueued (x : DmcCh) : Bool :=
  (x.rq ++ x.wq).any (fun r => isRenderReq r.req) || x.stalled.any (fun w => isRenderReq w.req)

/-- Where every request that could go is held, the one that goes as its hold ends: the oldest read that waits for no write, else the
first write. -/
def Dev.dmcReleaseHold (d : Dev) (c : Nat) : Dev :=
  let x := d.dch c
  match x.rq.find? (fun r => !x.waits r), x.wq.head? with
  | some r, _ => ((d.dmcIssueRead c r).dmcUnstall c).dmcDrain c |>.dmcStat c
  | none, some w => ((d.dmcIssueWrite c w []).dmcUnstall c).dmcDrain c |>.dmcStat c
  | none, none => d

/-- The queues are issued, in the order of any other slots, until no request of the render is left in them (R354): the time that holds
take passes with them (log entry 106). -/
def Dev.dmcDrainRender (d : Dev) (c : Nat) : Dev :=
  let x := d.dch c
  forN (2 * (x.rq.length + x.wq.length + x.stalled.length) + x.wback.length + 2) (fun _ d =>
    if !(d.dch c).renderQueued then d
    else
      let e := d.dmcCommand c []
      if e.dch c = d.dch c then d.dmcReleaseHold c else e) d

/-! ### Return of read data (R293, R301) -/

/-- The first issued read that has no older read of its requester still to return. -/
def DmcCh.nextReturn (x : DmcCh) : Option DmcReq :=
  x.flight.find? (fun r => (x.rq ++ x.flight).all (fun q => q.req != r.req || decide (r.seq ≤ q.seq)))

/-- READ_DATA_RETURN: the decoder's finding by beat. A corrected granule is to be written back, unless a write to it was accepted after the
read; a beat that such a write has covered whole since stays good (R301). -/
def Dev.dmcReturn (d : Dev) (c : Nat) (beats : List EccBeat) : Dev :=
  let x := d.dch c
  match x.nextReturn with
  | none => d
  | some r =>
    let f := d.dmcDecode r.granule beats
    let d := (d.dmcPoison r.granule (f.2.filter (fun b => !r.whole.contains b))).setDch c { x with
      flight := x.flight.filter (fun q => q.seq != r.seq)
      wback := x.wback ++ (if f.1.isEmpty || r.later then [] else [(r.granule, r.req)])
      ret := some ⟨r.granule, r.req, !f.2.isEmpty, r.data⟩ }
    (d.eccCorrected c r.granule f.1.length).eccFatal c r.granule f.2.length (r.req == 13)

/-! ### Refresh, tracking, scrubbing, power-down -/

/-- The refresh interval of a rank, in cycles of the set in use: word 15, halved when MR4 asks for refresh above the base
rate (R299; JESD79-5 MR4 OP[2:0]). -/
def Dev.dmcInterval (d : Dev) (c rank : Nat) : Nat :=
  let w := if d.bit (Off.DMC_PWR c) 31 then d.fld (Off.DMC_TSET_B c 15) 15 0 else d.fld (Off.DMC_TSET_A c 15) 15 0
  if 3 ≤ mget (fun _ => 0) (d.dch c).mr4 rank % 8 then w / 2 else w

/-- ns of one refresh interval: cycles of 3,200 MHz for set A and of 1,600 MHz for set B. -/
def Dev.dmcIntervalNs (d : Dev) (c rank : Nat) : Nat := d.dmcInterval c rank * 5 / (if d.bit (Off.DMC_PWR c) 31 then 8 else 16)

/-- Has the interval of a rank's next refresh passed? -/
def Dev.dmcRefDue (d : Dev) (c rank : Nat) : Bool :=
  decide (mget (fun _ => 0) (d.dch c).refAt rank + d.dmcIntervalNs c rank ≤ d.nsNow)

/-- REFRESH: one more interval has passed; the refresh is issued, or postponed behind requests or a hold by at most 4 intervals
(R299). -/
def Dev.dmcRefresh (d : Dev) (c rank : Nat) : Dev :=
  if !d.dmcEn c || !d.dmcRefDue c rank then d
  else
    let x := d.dch c
    let owed := mget (fun _ => 0) x.owed rank + 1
    let busy := (x.rq ++ x.wq).any (fun r => d.dmcRank c r.granule == rank)
    let at_ := mget (fun _ => 0) x.refAt rank + d.dmcIntervalNs c rank
    let d := d.setDch c { x with owed := mset (fun _ => 0) x.owed rank owed, refAt := mset (fun _ => 0) x.refAt rank at_ }
    if decide (d.nsNow < x.holdTo) || (busy && decide (owed ≤ 4)) then d else d.dmcDoRefresh c rank

/-- MR4_POLL, every 32 ms: the rank's MR4 is kept. -/
def Dev.dmcMr4 (d : Dev) (c rank v : Nat) : Dev :=
  let x := d.dch c
  if d.dmcEn c && decide (mget (fun _ => 0) x.mr4At rank + ms32 ≤ d.nsNow) then
    d.setDch c { x with mr4 := mset (fun _ => 0) x.mr4 rank (v % 256), mr4At := mset (fun _ => 0) x.mr4At rank d.nsNow }
  else d

/-- ns between DQS tracking runs. -/
def Dev.dmcTrackNs (d : Dev) (c : Nat) : Nat := min 60 (max 1 (d.fld (Off.DMC_CTL c) 5 0)) * 1000000000

/-- DQS_TRACKING, every TRACK_S seconds: the channel's commands are held for 2 µs, the most R300 allows. -/
def Dev.dmcTrack (d : Dev) (c : Nat) : Dev :=
  let x := d.dch c
  if d.dmcEn c && decide (x.trackAt + d.dmcTrackNs c ≤ d.nsNow) then
    d.setDch c { x with holdTo := max x.holdTo (d.nsNow + 2000), trackAt := d.nsNow }
  else d

/-- ns of one pass of the scrubber. -/
def Dev.dmcScrubNs (d : Dev) (c : Nat) : Nat := max 1 (d.fld (Off.DMC_SCRUB c) 7 0) * 3600000000000

/-- May the scrubber read: a pass begins PERIOD_H hours after the pass before it began (R302). -/
def Dev.dmcScrubDue (d : Dev) (c : Nat) : Bool :=
  let x := d.dch c
  x.scrub != 0 || x.passAt == 0 || decide (x.passAt + d.dmcScrubNs c ≤ d.nsNow + 1)

/-- SCRUB_READ: a read of the next granule of the channel by requester 13 (R302). -/
def Dev.dmcScrub (d : Dev) (c : Nat) : Dev :=
  let x := d.dch c
  if d.dmcEn c && d.bit (Off.DMC_CTL c) 28 && d.dmcScrubDue c && !x.stalled.any (fun w => w.req == 13) then
    (d.setDch c { x with
      scrub := (x.scrub + 1) % d.dmcGranules c
      passAt := if x.scrub = 0 then d.nsNow + 1 else x.passAt }).dmcRequest c (granuleOf c x.scrub) 13 (.read none)
  else d

/-- Has a rank had no request for PD_IDLE × 0.1 µs? -/
def Dev.dmcIdle (d : Dev) (c rank : Nat) : Bool :=
  decide (mget (fun _ => 0) (d.dch c).lastReq rank + max 1 (d.fld (Off.DMC_PWR c) 15 8) * 100 ≤ d.nsNow)

/-- RANK_POWER_DOWN: an idle rank enters power-down (R303). -/
def Dev.dmcPowerDown (d : Dev) (c rank : Nat) : Dev :=
  let x := d.dch c
  let busy := ((x.rq ++ x.wq).map (fun r => r.granule) ++ x.stalled.map (fun w => w.granule)).any (fun g => d.dmcRank c g == rank)
  if d.dmcEn c && d.bit (Off.DMC_PWR c) 0 && d.dmcIdle c rank && !busy && !x.pd.contains rank then
    (d.setDch c { x with pd := x.pd ++ [rank], open_ := mkeep (fun b => b / 32 != rank) x.open_ }).dmcStat c
  else d

/-! ### Registers -/

/-- The timing set that channel 0's MODE selects. -/
def Dev.dmcSetB (d : Dev) : Bool := d.bit (Off.DMC_PWR 0) 1
def Dev.tsetWord (d : Dev) (b : Bool) (c w : Nat) : Nat :=
  if b then d.fld (Off.DMC_TSET_B c w) 15 0 else d.fld (Off.DMC_TSET_A c w) 15 0

/-- DMC_SIZE of both channels follows INIT_DONE (R290). -/
def Dev.dmcSize (d : Dev) : Dev :=
  let one := fun (c : Nat) => dmcChannelMib (d.fld (Off.DMC_CTL c) 25 24) (d.fld (Off.DMC_CTL c) 23 23)
  let n := if d.bit (Off.DMC_CTL 0) 30 && d.bit (Off.DMC_CTL 1) 30 then one 0 + one 1 else 0
  (d.wrN (Off.DMC_SIZE 0) n).wrN (Off.DMC_SIZE 1) n

/-- A channel enters service: the window, the refresh intervals and the other periods run from here, and no row is open. -/
def Dev.dmcStart (d : Dev) (c : Nat) : Dev :=
  let x := d.dch c
  let both := mset (fun _ => 0) (mset (fun _ => 0) [] 0 d.nsNow) 1 d.nsNow
  (d.free (.ddr c)).setDch c { x with
    open_ := [], acts := [], thr := [], owed := [], pd := [], refAt := both, mr4At := both, lastReq := both
    winAt := d.nsNow, trackAt := d.nsNow }

/-- A write of DMC_CTL (DMC_ENABLE; R290, R300). Every write of EN = 1 is judged; one refused while the channel runs has no effect. -/
def Dev.dmcCtlWrite (d : Dev) (c : Nat) (v : Word) : Dev :=
  let off := Off.DMC_CTL c
  let was := d.bit off 31
  let merge := fun (d : Dev) (en done : Bool) =>
    d.wr off (putBits (putBits (v &&& 0x3380003F) 31 31 (if en then 1 else 0)) 30 30 (if done then 1 else 0))
  if v.getLsbD 31 then
    if (List.range 16).any (fun w => d.tsetWord d.dmcSetB c w == 0) then d
    else
      let other := 1 - c
      let same := !d.dmcEn other || decide (getBits v 25 23 = d.fld (Off.DMC_CTL other) 25 23)
      if dmcConfigOk (getBits v 25 24) (getBits v 23 23) && same then
        if was then (merge d true (d.bit off 30)).dmcSize
        else
          let d := (merge d true true).dmcStart c
          (((d.dmcUnstall c).dmcDrain c).dmcStat c).dmcSize
      else if was then d else merge d false false
  else (merge d false false).dmcSize

/-- Both channels pass through self-refresh to the other set; requests wait at most 30 µs (R303). -/
def Dev.dmcFrequency (d : Dev) (b : Bool) : Dev :=
  forN 2 (fun c d =>
    let x := d.dch c
    let till := d.nsNow + 30000
    (d.setDch c { x with
      open_ := [], owed := [], holdTo := max x.holdTo till, srTo := till
      refAt := mset (fun _ => 0) (mset (fun _ => 0) [] 0 till) 1 till }).setBit (Off.DMC_PWR c) 31 b) d

/-- A write of DMC_PWR (TIMING_SET_CHANGE; R303). Bit 1 of channel 0 governs both channels. -/
def Dev.dmcPwrWrite (d : Dev) (c : Nat) (v : Word) : Dev :=
  let off := Off.DMC_PWR c
  let old := d.dmcSetB
  let d := (d.setFld off 15 8 (getBits v 15 8)).setFld off 0 0 (getBits v 0 0)
  let d := if getBits v 0 0 = 0 then
      let x := d.dch c
      (d.setDch c { x with pd := [] }).dmcStat c
    else d
  let new := v.getLsbD 1
  if c = 1 ∨ new = old then d
  else if d.rendering then d.raise 0x0E04 0 0
  else ((d.setBit (Off.DMC_PWR 0) 1 new).setBit (Off.DMC_PWR 1) 1 new).dmcFrequency new

/-- A write of a timing word; ignored for the set in use (file 17). -/
def Dev.dmcTsetWrite (d : Dev) (b : Bool) (c w : Nat) (v : Word) : Dev :=
  if d.dmcEn c && d.bit (Off.DMC_PWR c) 31 == b then d
  else d.setFld (if b then Off.DMC_TSET_B c w else Off.DMC_TSET_A c w) 15 0 (getBits v 15 0)

/-! ### Accesses made whole (R291, R293, R296, R301, R303)

What kernels, engines and the crossbar read and write is carried out within the command that makes it (log entry 106). -/

/-- Accesses from here on are made by this requester (R292). -/
def Dev.by (d : Dev) (req : Nat) : Dev := { d with sdBy := req }

/-- The granules that n bytes at address a lie in. -/
def granulesOf (a n : Nat) : List Nat :=
  if n = 0 then [] else (List.range ((a + n - 1) / 128 + 1 - a / 128)).map (fun i => a / 128 + i)
/-- Uncorrectable beats of a granule. -/
def Dev.granuleBad (d : Dev) (g : Nat) : Nat := (d.poison.filter (fun p => p / 16 == g)).length

/-- An access of one granule, in which `bad` beats are found uncorrectable: it wakes its rank and opens its row. -/
def Dev.dmcTouch (d : Dev) (g bad : Nat) : Dev :=
  let c := granuleCh g
  if d.dmcEn c then
    let x := d.dch c
    let r := d.dmcRank c g
    let d := d.setDch c { x with pd := x.pd.filter (fun k => k != r), lastReq := mset (fun _ => 0) x.lastReq r d.nsNow }
    ((d.dmcActivate c ⟨x.seq, g, d.sdBy, d.nsNow, [], none, false, false, [], false, []⟩).eccFatal c g bad false).dmcStat c
  else d

/-- A write of one granule covers bytes a to a + n of SDRAM. One that leaves a beat partly covered reads the granule first (R296). -/
def Dev.dmcPut (d : Dev) (g a n : Nat) : Dev :=
  let c := granuleCh g
  if d.dmcEn c then
    let whole := (List.range 16).filter (fun b => decide (a ≤ 128 * g + 8 * b) && decide (128 * g + 8 * b + 8 ≤ a + n))
    let lo := max a (128 * g)
    let hi := min (a + n) (128 * g + 128)
    let x := (d.dch c).writeTaken g d.sdBy
    let d := d.setDch c { x with flight := x.flight.map (DmcReq.covered g whole) }
    d.dmcTouch g (if lo % 8 = 0 ∧ hi % 8 = 0 then 0 else d.granuleBad g)
  else d

/-- SDRAM bytes as a write leaves them: every 8-byte beat it covers whole gets a good check code (R296). -/
def Dev.sdWrite (d : Dev) (a : Nat) (bs : List Byte) : Dev :=
  let d := forL (granulesOf a bs.length) (fun g d => d.dmcPut g a bs.length) d
  { d with sdram := setBytes d.sdram a bs,
           poison := d.poison.filter (fun b => !(decide (a ≤ 8 * b) && decide (8 * b + 8 ≤ a + bs.length))) }

/-- Granules are read, by those who find their data in `sdWord` and `sdRead`. -/
def Dev.sdSeen (d : Dev) (gs : List Nat) : Dev := forL gs (fun g d => d.dmcTouch g (d.granuleBad g)) d
/-- A 32-bit value of SDRAM; 0.0 where its granule holds an uncorrectable beat (R97, R291, R301). -/
def Dev.sdWord (d : Dev) (a : Nat) : F32 :=
  if d.poison.any (fun p => p / 16 == a / 128) then 0 else BitVec.ofNat 32 (leNat (getBytes d.sdram a 4))
/-- Bytes of SDRAM, or an error where a granule they lie in holds an uncorrectable beat (R291, R301). -/
def Dev.sdRead (d : Dev) (addr n : Nat) : Option (List Byte) :=
  if (granulesOf addr n).any (fun g => d.poison.any (fun p => p / 16 == g)) then none else some (getBytes d.sdram addr n)
/-- A ring of `size` 32-bit samples at byte address `base` takes samples from index n0 on, a pair at a time. -/
def Dev.sdRing (d : Dev) (base size n0 : Nat) : List F32 → Dev
  | x :: y :: vs => Dev.sdRing (d.sdWrite (base + 4 * (n0 % size)) (leBytes 4 x.toNat ++ leBytes 4 y.toNat)) base size (n0 + 2) vs
  | [x] => d.sdWrite (base + 4 * (n0 % size)) (leBytes 4 x.toNat)
  | [] => d

end Sys2Proof.Machine
end

