-- ==== Sys2Proof/Machine/Interchange.lean ====
section
/-! DEFINITION. The Interchange: templates, jobs, dispatch, Release Crossings, fences, cancels and health words (files 01, 09).
What a kernel computes stands in the kernels' own files; here a job is its descriptor and its state. -/

namespace Sys2Proof.Machine

/-! ### Templates (R135, R136) -/

/-- A template as the timetable window holds it. -/
structure Tmpl where
  idx    : Nat
  desc   : List Byte
  cost   : Nat
  preds  : Nat
  period : Nat
  phase  : Nat
  valid  : Bool
  succ   : List Nat
  deriving DecidableEq, Repr

def tmplBase (t : Nat) : Nat := 0x2000000 + 128 * t
/-- The bits of a template's byte that are not reserved (R135, R316); those of DESC are stored as written, for the check of R137. -/
def tmplMask (r : Nat) : Byte := if r = 71 then 1 else if 80 ≤ r then 0 else 0xFF

def readTmpl (m : NMap Byte) (t : Nat) : Tmpl :=
  let b := tmplBase t
  let b8 := fun i => (bget m (b + i)).toNat
  { idx := t, desc := getBytes m b 64, cost := leNat (getBytes m (b + 64) 4), preds := b8 68, period := min (b8 69) 8,
    phase := b8 70, valid := decide (b8 71 % 2 = 1),
    succ := [leNat (getBytes m (b + 72) 2), leNat (getBytes m (b + 74) 2), leNat (getBytes m (b + 76) 2),
      leNat (getBytes m (b + 78) 2)] }

def Tmpl.kind (t : Tmpl) : Nat := (t.desc.getD 0 0).toNat
def Tmpl.cls (t : Tmpl) : Nat := (t.desc.getD 1 0).toNat % 8
def Tmpl.flow (t : Tmpl) : Nat := (t.desc.getD 2 0).toNat
def Tmpl.sub (t : Tmpl) : Nat := (t.desc.getD 3 0).toNat % 64
def Tmpl.param (t : Tmpl) (i : Nat) : Nat := leNat ((t.desc.drop (24 + 4 * i)).take 4)

/-- The VALID templates of a timetable, ascending: their TFLAGS byte is not 0, so it is listed. -/
def validTmpls (m : NMap Byte) : List Tmpl :=
  m.filterMap (fun e =>
    if 0x2000000 ≤ e.1 ∧ e.1 < 0x2080000 ∧ (e.1 - 0x2000000) % 128 = 71 ∧ e.2.toNat % 2 = 1
    then some (readTmpl m ((e.1 - 0x2000000) / 128)) else none)

/-- Is the template instantiated in compute tick (or slot) n (R136)? -/
def Tmpl.inSlot (t : Tmpl) (n : Nat) : Bool := decide (n % 2 ^ t.period = t.phase)

/-- The exponent M of the timetable period. -/
def periodExp (ts : List Tmpl) : Nat := ts.foldl (fun m t => max m t.period) 0

/-! ### Squares, lists and jobs -/

def Dev.square (d : Dev) (i : Nat) : Square := mget (fun _ => Square.init) d.icx.squares i
def Dev.setSquare (d : Dev) (i : Nat) (x : Square) : Dev :=
  { d with icx := { d.icx with squares := mset (fun _ => Square.init) d.icx.squares i x } }
def Dev.readyList (d : Dev) (l : Nat) : List JobKey := mget (fun _ => []) d.icx.ready l
def Dev.setReady (d : Dev) (l : Nat) (ks : List JobKey) : Dev :=
  { d with icx := { d.icx with ready := mset (fun _ => []) d.icx.ready l ks } }
def Dev.job (d : Dev) (k : JobKey) : Option Job := d.icx.jobs.find? (fun j => j.key == k)
def Dev.mapSquares (d : Dev) (f : Square → Square) : Dev :=
  let sq := (d.icx.squares.map (fun (e : Nat × Square) => (e.1, f e.2))).filter (fun e => e.2 != Square.init)
  { d with icx := { d.icx with squares := sq } }
def Dev.setJobs (d : Dev) (js : List Job) : Dev := { d with icx := { d.icx with jobs := js } }
def Dev.setJob (d : Dev) (k : JobKey) (f : Job → Job) : Dev :=
  { d with icx := { d.icx with jobs := d.icx.jobs.map (fun j => if j.key == k then f j else j) } }

/-- Does the state count in flight (R140)? -/
def JState.inFlight : JState → Bool
  | .ready | .kerb | .running | .writing => true
  | _ => false
/-- Has the job left the Crossing (R146)? -/
def JState.over : JState → Bool
  | .released | .retired => true
  | _ => false

def Dev.inFlight (d : Dev) : Nat := (d.icx.jobs.filter (fun j => j.st.inFlight)).length

/-- Serving: not fenced, not waiting for its test, and not an unused spare (R155). -/
def Square.serving (s : Square) : Bool := !s.fenced && !s.cleared && (!s.spare || s.inPlace.isSome)
def Square.idleSpare (s : Square) : Bool := !s.fenced && !s.cleared && s.spare && s.inPlace.isNone
def Square.busy (s : Square) : Bool := s.run.isSome || s.kat == .running

/-- A Quarter is fenced when all eight of its Squares are: each by a fence, or waiting for its test after a clear (R21). -/
def Dev.quarterFenced (d : Dev) (q : Nat) : Bool :=
  (List.range 8).all (fun i => (d.square (8 * q + i)).fenced || (d.square (8 * q + i)).cleared)
/-- A Quarter is power-gated (R332). -/
def Dev.quarterGated (d : Dev) (q : Nat) : Bool := d.bit Off.PWR_QGATE (4 + q)

/-- The Quarter whose lists a job of preferred Quarter q joins (R142). -/
def Dev.listQuarter (d : Dev) (q : Nat) : Nat :=
  if d.quarterFenced q then (firstN 4 (fun r => !d.quarterFenced r)).getD q else q

/-- A job joins the tail of its ready list (R142). -/
def Dev.enterReady (d : Dev) (k : JobKey) : Dev :=
  match d.job k with
  | none => d
  | some j =>
    let l := 8 * d.listQuarter j.prefq + j.cls
    (d.setJob k (fun j => { j with st := .ready, lst := l })).setReady l (d.readyList l ++ [k])

/-- A job whose count is 0 becomes READY, or HELD while 512 jobs are in flight or an older job is HELD (R141). -/
def Dev.makeReady (d : Dev) (k : JobKey) : Dev :=
  if d.icx.held.isEmpty && decide (d.inFlight < 512) then d.enterReady k
  else
    let d := d.setJob k (fun j => { j with st := .held })
    { d with icx := { d.icx with held := d.icx.held ++ [k] } }

/-- HELD jobs move to READY, oldest first, as places free (R141). -/
def Dev.drainHeld (d : Dev) : Dev :=
  forL d.icx.held (fun k d =>
    if d.inFlight < 512 then
      Dev.enterReady { d with icx := { d.icx with held := d.icx.held.filter (fun x => x != k) } } k
    else d) d

/-- A job leaves the lists, the Kerb slots and the HELD queue. -/
def Dev.unlist (d : Dev) (k : JobKey) : Dev :=
  let d := d.mapSquares (fun s => if s.kerb == some k then { s with kerb := none } else s)
  { d with icx := { d.icx with
    held := d.icx.held.filter (fun x => x != k),
    ready := (d.icx.ready.map (fun (e : Nat × List JobKey) => (e.1, e.2.filter (fun x => x != k)))).filter
      (fun e => !e.2.isEmpty) } }

/-! ### Instantiation (R136, R141, R147, R149) -/

/-- Unreleased sequences of a flow. -/
def Dev.unreleased (d : Dev) (f : Nat) : Nat :=
  (((d.icx.jobs.filter (fun j => j.key.flow == f && !j.st.over)).map (fun j => (j.key.tick, j.key.sub))).eraseDups).length

/-- Does template t name u as a successor? -/
def Tmpl.names (t u : Tmpl) : Bool := t.succ.contains u.idx

/-- Every template of the list that follows one of `w`, directly or through others; `fuel`: the templates there are. -/
def closeTmpls (ts : List Tmpl) : Nat → List Nat → List Nat
  | 0, w => w
  | fuel + 1, w =>
    match (ts.filter (fun t => !w.contains t.idx && ts.any (fun p => w.contains p.idx && p.names t))).map (fun t => t.idx) with
    | [] => w
    | new => closeTmpls ts fuel (w ++ new)

/-- The class-7 templates whose flow would hold a 65th unreleased sequence, in ascending order; those of `skip` are not
instantiated and take no place. -/
def Dev.fullTmpls (d : Dev) (ts : List Tmpl) (skip : List Nat) : List Nat :=
  (forL ts (fun t (acc : List Nat × List Nat) =>
    if skip.contains t.idx then acc
    else if t.cls == 7 && decide (64 ≤ d.unreleased t.flow + acc.2.count t.flow) then (t.idx :: acc.1, acc.2)
    else (acc.1, t.flow :: acc.2)) ([], [])).1

/-- What is withheld only grows: with the templates of `w` withheld, those of the others that would still be a 65th, and what follows them. -/
def Dev.withheldUp (d : Dev) (ts : List Tmpl) : Nat → List Nat → List Nat
  | 0, w => w
  | fuel + 1, w =>
    match d.fullTmpls ts w with
    | [] => w
    | full => d.withheldUp ts fuel (closeTmpls ts ts.length (w ++ full))

/-- What is withheld settles once the followers of what is full are the templates that take no place. Where that never settles, since
a template would be full only for the sake of its own follower, both are withheld (log entry 44). -/
def Dev.withheldGo (d : Dev) (ts : List Tmpl) : Nat → List Nat → List Nat
  | 0, skip => d.withheldUp ts (ts.length + 1) (closeTmpls ts ts.length (d.fullTmpls ts skip))
  | fuel + 1, skip =>
    let full := d.fullTmpls ts skip
    let w := closeTmpls ts ts.length full
    let next := w.filter (fun t => !full.contains t)
    if next == skip then w else d.withheldGo ts fuel next

/-- The templates of a slot that are withheld: a class-7 template whose flow is full, and every template that follows a
withheld one (R147, log entry 44). -/
def Dev.withheld (d : Dev) (ts : List Tmpl) : List Nat := d.withheldGo ts ts.length []

/-- One job instantiated from its template for compute tick n. -/
def Dev.instantiate1 (d : Dev) (t : Tmpl) (n : Nat) (fade : Bool) : Dev :=
  let k : JobKey := ⟨t.flow, n, t.sub, leNat ((t.desc.drop 16).take 4)⟩
  let j : Job :=
    { key := k, tmpl := t.idx, kind := t.kind, cls := t.cls, split := (t.desc.getD 1 0).getLsbD 5, fade := fade,
      prefq := (t.desc.getD 6 0).toNat % 4, attempt := 0, count := leNat ((t.desc.drop 20).take 4),
      params := (List.range 8).map t.param, succ := t.succ, waits := t.preds, st := .waiting, lst := 0, grant := none,
      everGranted := false, written := false, started := 0, ran := false }
  let d := { d with icx := { d.icx with jobs := d.icx.jobs ++ [j] } }
  if t.preds = 0 then d.makeReady k else d

/-- Step 6 of R9: the jobs of compute tick n. -/
def Dev.instantiate (d : Dev) (n : Nat) : Dev :=
  let all := validTmpls d.tabE
  let d := d.setFld Off.ICX_STAT 31 28 (periodExp all)
  let ts := all.filter (fun t => t.inSlot n)
  let w := d.withheld ts
  let d := forL (ts.filter (fun t => w.contains t.idx)) (fun t d => d.raise 0x0311 0 (t.flow * 2 ^ 24 + t.idx)) d
  let ts := ts.filter (fun t => !w.contains t.idx)
  let fades := d.icx.fadeIn
  let d := forL ts (fun t d => d.instantiate1 t n (fades.contains t.flow && d.bit (Off.ICX_FLOW t.flow) 31)) d
  { d with icx := { d.icx with fadeIn := fades.filter (fun f => !(ts.any (fun t => t.flow == f))) } }

/-! ### Release (R141, R146) -/

/-- A released or cancelled job lowers the count of each successor instantiated in its tick (R141). -/
def Dev.lowerSucc (d : Dev) (j : Job) : Dev :=
  forL j.succ (fun s d =>
    match d.icx.jobs.find? (fun x => x.tmpl == s && x.key.tick == j.key.tick && x.st == .waiting) with
    | none => d
    | some x =>
      let d := d.setJob x.key (fun x => { x with waits := x.waits - 1 })
      if x.waits ≤ 1 then d.makeReady x.key else d) d

/-- The earliest unreleased sequence of a flow. -/
def Dev.firstSeq (d : Dev) (f : Nat) : Option (Nat × Nat) :=
  (d.icx.jobs.filter (fun j => j.key.flow == f && !j.st.over)).foldl (fun m j =>
    match m with
    | none => some (j.key.tick, j.key.sub)
    | some (t, s) => if j.key.tick < t ∨ (j.key.tick = t ∧ j.key.sub < s) then some (j.key.tick, j.key.sub) else some (t, s)) none

/-- The moment of a class 0–6 release, for ICX_FINISH. -/
def Dev.noteRelease (d : Dev) (j : Job) : Dev :=
  if j.cls = 7 then d else { d with icx := { d.icx with lastRel := d.clk.elapsed } }

/-- Release, in order, every sequence of the flow whose write-backs have ended and whose earlier sequences are gone (R146);
`fuel` bounds the sequences a flow can hold. -/
def Dev.releaseGo : Nat → Nat → Dev → Dev
  | 0, _, d => d
  | fuel + 1, f, d =>
    match d.firstSeq f with
    | none => d
    | some (t, s) =>
      let parts := d.icx.jobs.filter (fun j => j.key.flow == f && j.key.tick == t && j.key.sub == s)
      if parts.all (fun j => j.written || j.st.over) then
        let d := { d with icx := { d.icx with
          jobs := d.icx.jobs.map (fun j =>
            if j.key.flow == f && j.key.tick == t && j.key.sub == s && !j.st.over then { j with st := .released } else j) } }
        let d : Dev := match parts.head? with
          | some j => (d.noteRelease j).drainHeld.lowerSucc j
          | none => d
        Dev.releaseGo fuel f d
      else d

def Dev.releaseFlow (d : Dev) (f : Nat) : Dev := (Dev.releaseGo 65 f d).drainHeld

/-- Jobs of one sequence retired as by a cancel: once no part of the sequence is left it is released with its outputs 0.0, and the
successors' counts fall (R156); with a part still to be written back they fall at its release (R143). -/
def Dev.retireCancelled (d : Dev) (ks : List JobKey) : Dev :=
  match ks with
  | [] => d
  | k :: _ =>
    let j := d.job k
    let d := (forL ks (fun k d => (d.unlist k).setJob k (fun j => { j with st := .retired })) d).drainHeld
    let left := d.icx.jobs.any (fun j => j.key.flow == k.flow && j.key.tick == k.tick && j.key.sub == k.sub && !j.st.over)
    let d : Dev := match j with
      | some j => if left then d else (d.noteRelease j).lowerSucc j
      | none => d
    d.releaseFlow k.flow

/-! ### Dispatch (R142 to R144) -/

/-- May class-7 jobs be dispatched (R144)? -/
def Dev.class7Open (d : Dev) : Bool :=
  !d.bit Off.ICX_CTL 0 && d.icx.jobs.all (fun j => j.cls == 7 || j.key.tick != d.clk.tick || j.st.over)

/-- The highest-priority non-empty list of a Quarter. -/
def Dev.quarterHead (d : Dev) (q : Nat) : Option Nat :=
  (firstN 8 (fun c => !(d.readyList (8 * q + c)).isEmpty && (c != 7 || d.class7Open))).map (fun c => 8 * q + c)

/-- The list a Square of Quarter q takes from. -/
def Dev.takeList (d : Dev) (q : Nat) : Option Nat :=
  match d.quarterHead q with
  | some l => some l
  | none => ((List.range 4).filterMap (fun r => if r = q then none else d.quarterHead r)).head?

/-- A Square starts its Kerb-slot job once its current job has ended (R142). -/
def Dev.startKerb (d : Dev) (sq : Nat) : Dev :=
  let s := d.square sq
  match s.kerb with
  | none => d
  | some k =>
    if s.busy then d
    else (d.setSquare sq { s with kerb := none, run := some k, crossed := 0 }).setJob k
      (fun j => { j with st := .running, started := d.clk.tick })

/-- The descriptor a Square has just fetched. -/
def Dev.noteFetch (d : Dev) (sq : Nat) (k : JobKey) : Dev := { d with icx := { d.icx with fetched := some (sq, k) } }

/-- A serving Square with an empty Kerb slot takes the head of its list, or a part of it (R142, R143); `part` 0, or a size that
is no proper part of a SPLIT job, takes the whole, and so does a Square while 512 jobs and parts are in flight, since a division
would make one more (R141, log entry 160). -/
def Dev.prefetch (d : Dev) (sq part : Nat) : Dev :=
  let s := d.square sq
  if !s.serving || s.kerb.isSome || d.quarterGated (sq / 8) then d
  else
    match d.takeList (sq / 8) with
    | none => d
    | some l =>
      match d.readyList l with
      | [] => d
      | k :: ks =>
        match d.job k with
        | none => d.setReady l ks
        | some j =>
          if j.split && decide (0 < part) && decide (part < j.count) && decide (d.inFlight < 512) then
            let rest : JobKey := { k with first := k.first + part }
            let d := d.setJob k (fun x => { x with count := part, st := .kerb, lst := l })
            let d := d.setJobs (d.icx.jobs ++ [{ j with key := rest, count := j.count - part }])
            (((d.setReady l (rest :: ks)).setSquare sq { s with kerb := some k }).noteFetch sq k).startKerb sq
          else
            (((d.setReady l ks).setJob k (fun j => { j with st := .kerb, lst := l })).setSquare sq { s with kerb := some k }
              |>.noteFetch sq k).startKerb sq

/-! ### Fences (R150 to R155) -/

def Dev.setSpareUse (d : Dev) (i : Nat) (b : Bool) : Dev := d.setBit Off.ICX_SPARE_USE i b

/-- The spare that replaces a fenced Square: the lowest idle one of its Quarter, else of any. -/
def Dev.pickSpare (d : Dev) (sq : Nat) : Option Nat :=
  match (List.range 8).find? (fun i => (d.square (8 * (sq / 8) + i)).idleSpare) with
  | some i => some (8 * (sq / 8) + i)
  | none => (List.range 32).find? (fun i => (d.square i).idleSpare)

/-- A job lost by its Square is reissued at the head of its list, or is FAULTED at its fourth loss (R151, R153). -/
def Dev.reissue (d : Dev) (k : JobKey) : Dev :=
  match d.job k with
  | none => d
  | some j =>
    if 3 ≤ j.attempt then (d.setJob k (fun j => { j with st := .faulted, grant := none })).drainHeld
    else (d.setJob k (fun j => { j with st := .ready, attempt := j.attempt + 1, grant := none })).setReady j.lst
      (k :: d.readyList j.lst)

/-- Does another serving Square run the job or hold it in its Kerb slot? The copy that a fenced Square goes on running does not
count. -/
def Dev.elsewhere (d : Dev) (k : JobKey) (sq : Nat) : Bool :=
  (List.range 32).any (fun i => i != sq && (d.square i).serving && ((d.square i).run == some k || (d.square i).kerb == some k))

/-- Every grant that a Square holds with its write-back not ended is withdrawn (R145); a job with no other copy is reissued
(R19, log entry 45). -/
def Dev.withdraw (d : Dev) (sq : Nat) : Dev :=
  forL (d.icx.jobs.filter (fun j => j.st == .writing && j.grant == some sq && !j.written)) (fun j d =>
    let d := d.setJob j.key (fun j => { j with grant := none, st := .running })
    if d.elsewhere j.key sq then d else d.reissue j.key) d

/-- A Square is fenced (R151). Causes: 1 HOST, 2 UE, 3 KAT, 4 WATCHDOG. -/
def Dev.fence (d : Dev) (sq cause : Nat) : Dev :=
  let s := d.square sq
  let ue := if cause = 2 then 3000 else s.ueLeft
  if s.fenced then d.setSquare sq { s with ueLeft := ue }
  else
    let was := s.serving
    -- 1: the Kerb-slot job goes back to the head of its list
    let d : Dev := match s.kerb with
      | none => d
      | some k => match d.job k with
        | none => d
        | some j => (d.setJob k (fun j => { j with st := .ready })).setReady j.lst (k :: d.readyList j.lst)
    -- 2: the running job, unless granted, is reissued ahead of it
    let d : Dev := match s.run with
      | none => d
      | some k => match d.job k with
        | none => d
        | some j => if j.st == .running && !d.elsewhere k sq then d.reissue k else d
    let d := d.withdraw sq
    -- 3, 4
    let d := d.setSquare sq { s with
      kerb := none, fenced := true, fenceAge := 0, blocked := false, cleared := false, kat := .none,
      inPlace := none, katFail := s.katFail || cause == 3, ueLeft := ue }
    let d := (d.setBit Off.ICX_FENCED sq true).raise 0x0303 sq (cause * 256 + sq)
    let d := if s.spare then d.setSpareUse sq false else d
    if was then
      match d.pickSpare sq with
      | none => d
      | some p =>
        (d.setSquare p { d.square p with inPlace := some (if s.spare then s.inPlace.getD sq else sq) }).setSpareUse p true
    else d

/-- A fence is cleared and the known-answer test issued (R154). -/
def Dev.clearFence (d : Dev) (sq : Nat) : Dev :=
  let s := d.square sq
  if s.fenced then
    (d.setSquare sq { s with fenced := false, blocked := false, cleared := true, kat := .running }).setBit Off.ICX_FENCED sq false
  else d

/-- From the second boundary after the fence every write of the Square is blocked, a write-back in progress included (R152). -/
def Dev.blockWrites (d : Dev) (sq : Nat) : Dev :=
  let s := d.square sq
  if s.fenced && decide (2 ≤ s.fenceAge) then (d.withdraw sq).setSquare sq { s with blocked := true } else d

/-- A boundary ages every fence that was made before it (R152). -/
def Dev.fencesBoundary (d : Dev) : Dev :=
  forN 32 (fun i d =>
    let s := d.square i
    if s.fenced then (d.setSquare i { s with fenceAge := s.fenceAge + 1 }).blockWrites i else d) d

/-- The result of a known-answer test (R21, R154). -/
def Dev.katResult (d : Dev) (sq : Nat) (pass : Bool) : Dev :=
  let s := d.square sq
  let d := if s.cleared then d else { d with icx := { d.icx with rotFail := !pass, rotAge := if pass then 0 else d.icx.rotAge } }
  let d := if pass then { d with icx := { d.icx with unitFence := d.icx.unitFence.map (fun l => l.filter (fun i => i != sq)) } } else d
  if pass then d.setSquare sq { s with kat := if s.cleared then .passed else .none, katAge := 0, katFail := false }
  else (d.setSquare sq { s with kat := .none, katFail := true }).fence sq 3

/-- The Squares that `ICX_SPARE_MAP` marks: at most the four lowest bits set (R155). -/
def spareBits (v : Word) : List Nat := ((List.range 32).filter (fun i => v.getLsbD i)).take 4

/-- At a boundary: a passed test brings its Square back and its spare home, a spare as far as the map still marks it (R154, R155,
log entry 161). ICX_FENCED and ICX_SPARE_USE show the fences and the spares as they then stand. -/
def Dev.squaresReturn (d : Dev) : Dev :=
  let d := forN 32 (fun i d =>
    let s := d.square i
    if !s.fenced && s.kat == .passed then
        let d := d.setSquare i { s with kat := .none, cleared := false }
        match (List.range 32).find? (fun p => (d.square p).inPlace == some i && p != i) with
        | none => d
        | some p => (d.setSquare p { d.square p with
            inPlace := none
            spare := (spareBits (d.re Off.ICX_SPARE_MAP)).contains p }).setSpareUse p false
    else d) d
  forN 32 (fun i d => (d.setBit Off.ICX_FENCED i (d.square i).fenced).setSpareUse i (d.square i).inPlace.isSome) d

/-- At a boundary, once the health words have been refreshed: the counts of boundaries go on. -/
def Dev.squaresAge (d : Dev) : Dev :=
  let d := { d with icx := { d.icx with rotAge := min 255 (d.icx.rotAge + 1) } }
  forN 32 (fun i d =>
    let s := d.square i
    d.setSquare i { s with
      crossed := if s.run.isSome then s.crossed + 1 else 0, katAge := if d.quarterGated (i / 8) then s.katAge else min 255 (s.katAge + 1),
      ueLeft := s.ueLeft - 1 }) d

/-- ICX_SPARE_MAP established: at most the four lowest bits are used; a spare in use stays so (R155). -/
def Dev.estSpareMap (d : Dev) (v : Word) : Dev :=
  forN 32 (fun i d =>
    let s := d.square i
    let sp := (spareBits v).contains i || (s.spare && s.inPlace.isSome)
    if s.spare == sp then d else d.setSquare i { s with spare := sp }) d

/-! ### Completion (R145, R153) -/

/-- A running job that no completion decides ends with FAULT: it is FAULTED (R153). -/
def Dev.jobFaulted (d : Dev) (sq : Nat) (k : JobKey) : Dev :=
  (((d.unlist k).setJob k (fun j => { j with st := .faulted })).drainHeld).raise 0x0304 sq (k.flow * 2 ^ 24 + k.sub * 2 ^ 16 + sq)

/-- The answer to one completion report: `status` 0 DONE, 1 FAULT, 2 ABORTED. -/
def Dev.report (d : Dev) (sq status : Nat) (ue : Bool) (runNs : Nat) : Dev :=
  let s := d.square sq
  if s.blocked || decide (3 ≤ status) then d
  else
    match s.run with
    | none => if s.kat == .running then (d.katResult sq (status == 0)).startKerb sq else d
    | some k =>
      let cls := (d.job k).elim 0 (fun j => j.cls)
      let s' : Square := { s with
        run := none, crossed := 0, ns := if cls = 7 then s.ns else s.ns + runNs,
        ns7 := if cls = 7 then s.ns7 + runNs else s.ns7 }
      let d0 := d.setSquare sq s'
      let d' : Dev :=
        match d.job k with
        | none => d0
        | some j =>
          if status = 0 then
            if j.grant.isSome then
              (d0.raise 0x0301 0 (k.flow * 2 ^ 24 + k.sub * 2 ^ 16 + sq)).bump Off.ICX_DUP_CNT
            else if j.st.over || j.st == .faulted then d0
            else (d0.unlist k).setJob k (fun j => { j with st := .writing, grant := some sq, everGranted := true, written := false })
          else if status = 1 then
            if ue then d.fence sq 2 |>.setSquare sq { (d.fence sq 2).square sq with run := none, ns := s'.ns, ns7 := s'.ns7 }
            else if j.st.over || j.grant.isSome then d0
            else d0.jobFaulted sq k
          else if j.st.over || j.grant.isSome then d0
          else d0.retireCancelled [k]
      d'.startKerb sq

/-- The error response to a descriptor fetch: the job fetched last, unless it is over or granted, ends with FAULT and leaves its Square
(R311, log entry 204). -/
def Dev.fetchFault (d : Dev) : Dev :=
  match d.icx.fetched with
  | none => d
  | some (sq, k) =>
    match d.job k with
    | none => d
    | some j =>
      let s := d.square sq
      if j.st.over || j.grant.isSome || j.st == .faulted || (s.run != some k && s.kerb != some k) then d
      else
        let d := { d with icx := { d.icx with fetched := none } }
        let d := d.setSquare sq { s with run := if s.run = some k then none else s.run, kerb := if s.kerb = some k then none else s.kerb }
        (d.jobFaulted sq k).startKerb sq

/-- The state part of the end of a granted write-back (R146). -/
def Dev.writeBackDone (d : Dev) (k : JobKey) : Dev :=
  (d.setJob k (fun j => { j with written := true })).releaseFlow k.flow

/-! ### Lateness (R148, R149) -/

/-- The templates that follow one of `w`, directly or not, among the jobs of one tick; `fuel`: the jobs there are. -/
def closeJobs (jobs : List Job) : Nat → List Nat → List Nat
  | 0, w => w
  | fuel + 1, w =>
    match (jobs.filter (fun j => !w.contains j.tmpl && !j.st.over &&
        jobs.any (fun p => w.contains p.tmpl && p.succ.contains j.tmpl))).map (fun j => j.tmpl) with
    | [] => w
    | new => closeJobs jobs fuel (w ++ new.eraseDups)

/-- Every job of the same tick that follows, directly or not, a template in the list. -/
def followers (jobs : List Job) (tick : Nat) (ts : List Nat) : List Nat :=
  closeJobs (jobs.filter (fun j => j.key.tick == tick)) jobs.length ts

/-- Jobs retired with outputs 0.0 and without lowering counts. -/
def Dev.retireSilent (d : Dev) (js : List Job) : Dev :=
  let d := forN 32 (fun i d =>
    let s := d.square i
    if js.any (fun j => s.run == some j.key || s.kerb == some j.key || (j.st == .writing && j.grant == some i)) then
      d.setSquare i { s with late := true }
    else d) d
  forL js (fun j d => (d.unlist j.key).setJob j.key (fun j => { j with st := .retired })) d

/-- Step 2 of R9 at boundary n: retire what is late and raise LATE_BLOCK once per flow. -/
def Dev.lateStep (d : Dev) (n : Nat) : Dev :=
  let d := d.mapSquares (fun s => { s with late := false })
  let late := d.icx.jobs.filter (fun j => j.cls != 7 && decide (j.key.tick < n) && !j.st.over)
  let f7 := d.icx.jobs.filter (fun j => j.cls == 7 && decide (j.key.tick < n) && j.st == .faulted)
  let withT := (late ++ f7).map (fun j => (j.key.tick, j.tmpl))
  let ticks := (withT.map (fun p => p.1)).eraseDups
  let extra := d.icx.jobs.filter (fun j => !j.st.over && !(late.contains j) && !(f7.contains j) &&
    ticks.any (fun t => j.key.tick == t &&
      (followers d.icx.jobs t ((withT.filter (fun p => p.1 == t)).map (fun p => p.2))).contains j.tmpl))
  let flows := (List.range 256).filter (fun f => late.any (fun j => j.key.flow == f))
  let seqs := fun (f : Nat) => ((late.filter (fun j => j.key.flow == f)).map (fun j => (j.key.tick, j.key.sub))).eraseDups
  let d := (d.retireSilent (late ++ f7 ++ extra)).drainHeld
  let d := forN 256 (fun f d => if d.bit (Off.ICX_FLOW f) 30 && !flows.contains f then d.setBit (Off.ICX_FLOW f) 30 false else d) d
  let d := forL flows (fun f d =>
    let ss := seqs f
    let sub := ss.foldl (fun m p => min m p.2) 63
    ((d.raise 0x0310 0 (f * 2 ^ 24 + sub * 2 ^ 16 + ss.length % 256)).bumpN Off.ICX_LATE_CNT ss.length).setBit (Off.ICX_FLOW f) 30 true) d
  let d := { d with icx := { d.icx with fadeIn := (d.icx.fadeIn ++ flows).eraseDups } }
  forL ((f7 ++ extra).map (fun j => j.key.flow)).eraseDups (fun f d => d.releaseFlow f) d

/-- The jobs that are over are forgotten, but for those a Square still runs. -/
def Dev.dropOver (d : Dev) : Dev :=
  let keep := fun (j : Job) => !j.st.over || (List.range 32).any (fun i => (d.square i).run == some j.key)
  { d with icx := { d.icx with jobs := d.icx.jobs.filter keep } }

/-! ### Cancel (R156, R158) -/

/-- The instance of a template in the current compute tick, with its parts. -/
def Dev.instanceOf (d : Dev) (t : Nat) : List Job :=
  d.icx.jobs.filter (fun j => j.tmpl == t && j.key.tick == d.clk.tick)

/-- ICX_CANCEL: result 1 CANCELLED, 2 NOT_ACTIVE, 3 NO_SUCH. `race`: the job became READY in this very cycle (R158). -/
def Dev.cancelTmpl (d : Dev) (t : Nat) (race : Bool) : Dev × Nat :=
  let js := d.instanceOf t
  if js.isEmpty then (d, 3)
  else if js.all (fun j => j.st == .waiting || j.st == .held || j.st == .ready || j.st == .kerb) then
    let d := if race && js.any (fun j => j.st == .ready) then d.raise 0x0302 0 t else d
    (d.retireCancelled (js.map (fun j => j.key)), 1)
  else (d, 2)

/-! ### Health words (R21, R22) -/

def healthWord (state : Nat) (late ue kat : Bool) (serving spare age : Nat) : Nat :=
  state * 2 ^ 29 + (if late then 2 ^ 28 else 0) + (if ue then 2 ^ 27 else 0) + (if kat then 2 ^ 26 else 0) +
    min serving 255 * 2 ^ 16 + min spare 255 * 2 ^ 8 + min age 255

/-- Is the unit rendering (R21)? From the boundary that begins its first capture tick until its Closure has ended. -/
def Dev.rendersNow (d : Dev) : Bool := d.pipe.from_.isSome

/-- The health word of one Square. -/
def Dev.squareHealth (d : Dev) (i : Nat) : Nat :=
  let s := d.square i
  let ue := decide (0 < s.ueLeft)
  let st := if s.fenced || s.cleared then 3 else if !d.rendersNow then 0 else if s.late || ue || s.katFail then 2 else 1
  healthWord st s.late ue s.katFail (if s.serving then 1 else 0) (if s.idleSpare then 1 else 0) s.katAge

/-- A group's word from its members' (R22); a reserved STATE is read as FENCED (R21). -/
def groupHealth (fenced rendering : Bool) (ws : List Nat) : Nat :=
  let st := fun w => if 5 ≤ w / 2 ^ 29 then 3 else w / 2 ^ 29
  let anyBit := fun (b : Nat) => ws.any (fun w => decide (w / 2 ^ b % 2 = 1))
  let live := ws.filter (fun w => st w != 3 && st w != 4)
  let age := if live.isEmpty then 255 else live.foldl (fun m w => max m (w % 256)) 0
  let late := anyBit 28
  let ue := anyBit 27
  let kat := anyBit 26
  let state := if fenced then 3 else if !rendering then 0
    else if ws.any (fun w => st w == 2 || st w == 3 || st w == 4) || late || ue || kat then 2 else 1
  healthWord state late ue kat ((ws.map (fun w => w / 2 ^ 16 % 256)).foldl (· + ·) 0)
    ((ws.map (fun w => w / 2 ^ 8 % 256)).foldl (· + ·) 0) age

/-- The lead excludes this member's partials: its fence (R20, R289). -/
def Dev.excluded (d : Dev) : Bool :=
  d.ebit Off.TWN_CTL 28 && (if d.bit Off.TWN_DST_CFG 31 then d.fld Off.TWN_DST_EXCLUDE 7 0 else d.twn.exclude).testBit d.dstMember

/-- The unit's fence, by exclusion or by a Closure: in force while that lasts, and after that until every Square that can be tested
has passed a known-answer test since its end (R21, log entries 162 and 163). -/
def Dev.unitFenceNext (d : Dev) : Option (List Nat) :=
  if d.excluded || d.pipe.closure.isSome then some (List.range 32)
  else match d.icx.unitFence with
    | none => none
    | some l => if l.any (fun i => !(d.square i).fenced && !d.quarterGated (i / 8)) then some l else none

/-- The health words of Squares, Quarters and the unit refreshed (R22); the District's word is its own file's. A lone device's fence
is its Closure (R20). -/
def Dev.refreshHealth (d : Dev) : Dev :=
  let d := forN 32 (fun i d => d.wrN (Off.SQ_HEALTH i) (d.squareHealth i)) d
  let d := forN 4 (fun q d => d.wrN (Off.ICX_QHEALTH q)
    (groupHealth (d.quarterFenced q) d.rendersNow ((List.range 8).map (fun i => (d.rd (Off.SQ_HEALTH (8 * q + i))).toNat)))) d
  let qs := (List.range 4).map (fun q => (d.rd (Off.ICX_QHEALTH q)).toNat)
  let fence := d.unitFenceNext
  { d with icx := { d.icx with unitFence := fence } }.wrN Off.SYS_UNIT_HEALTH
    (groupHealth fence.isSome d.rendersNow qs)

/-- The known-answer test that one idle Square receives each tick, in rotation (R284). -/
def Dev.rotateKat (d : Dev) : Dev :=
  match (List.range 32).find? (fun i =>
      let s := d.square ((d.icx.katNext + i) % 32)
      !s.fenced && !s.cleared && !s.busy && s.kerb.isNone && !d.quarterGated (((d.icx.katNext + i) % 32) / 8)) with
  | none => d
  | some i =>
    let sq := (d.icx.katNext + i) % 32
    let d := d.setSquare sq { d.square sq with kat := .running }
    { d with icx := { d.icx with katNext := (sq + 1) % 32 } }

/-- The figures of the last compute tick (ICX_LOAD, ICX_FINISH, SQ_BUSY) and the counts of ICX_STAT. -/
def Dev.icxFigures (d : Dev) : Dev :=
  let sq := ((List.range 32).map d.square).filter Square.serving
  let den := sq.length * 333333
  let share := fun n => if den = 0 then 0 else min 1000 (n * 1000 / den)
  let d := d.setFld Off.ICX_LOAD 25 16 (share ((sq.map (fun s => s.ns)).foldl (· + ·) 0))
  let d := d.setFld Off.ICX_LOAD 9 0 (share ((sq.map (fun s => s.ns7)).foldl (· + ·) 0))
  let d := forN 32 (fun i d => d.wrN (Off.SQ_BUSY i) (min 333333 ((d.square i).ns + (d.square i).ns7))) d
  let d := d.mapSquares (fun s => { s with ns := 0, ns7 := 0 })
  let d := d.wrN Off.ICX_FINISH (min 333333 d.icx.lastRel)
  let d := d.wrN Off.ICX_FINISH_MAX (max (d.rd Off.ICX_FINISH_MAX).toNat (min 333333 d.icx.lastRel))
  { d with icx := { d.icx with lastRel := 0 } }

/-- ICX_STAT, SQ_JOB and UNREL as they stand, for a read. -/
def Dev.icxStat (d : Dev) : Nat :=
  let sq := (List.range 32).map d.square
  d.fld Off.ICX_STAT 31 28 * 2 ^ 28 + (sq.filter Square.serving).length * 2 ^ 22 + (sq.filter Square.idleSpare).length * 2 ^ 19 +
    d.inFlight
def Dev.sqJob (d : Dev) (i : Nat) : Nat :=
  match (d.square i).run.bind d.job with
  | none => 0
  | some j => 2 ^ 31 + j.cls * 2 ^ 28 + j.key.flow * 2 ^ 20 + j.key.sub * 2 ^ 12 + j.tmpl

end Sys2Proof.Machine
end

