-- ==== Sys2Proof/Machine/Crypto.lean ====
section
/-! DEFINITION. The checks the spec names by their standards: CRC-32C (R50), SHA-384 and ECDSA P-384 (R29, R322). The spec
gives CRC-32C whole; SHA-384 and P-384 are taken from FIPS 180-4 and FIPS 186-4 (PRESUMED, log entry 6). -/

namespace Sys2Proof.Machine

/-- One bit of a reflected CRC step. -/
def crcBits (poly : Nat) : Nat → Nat → Nat
  | 0, c => c
  | n + 1, c => crcBits poly n (if c % 2 = 1 then (c / 2) ^^^ poly else c / 2)

/-- CRC-32C: polynomial 0x1EDC6F41 reflected, initial value and final XOR all ones (R50). -/
def crc32c (bs : List Byte) : Nat :=
  (bs.foldl (fun c b => crcBits 0x82F63B78 8 (c ^^^ b.toNat)) 0xFFFFFFFF) ^^^ 0xFFFFFFFF

def m64 : Nat := 2 ^ 64
/-- A 64-bit word turned right by n. -/
def turn64 (n x : Nat) : Nat := x / 2 ^ n + x % 2 ^ n * 2 ^ (64 - n)

/-- The greatest r below 2 ^ bits, on top of `acc`, whose k-th power does not pass n. -/
def rootUp (k n : Nat) : Nat → Nat → Nat
  | 0, acc => acc
  | bits + 1, acc => rootUp k n bits (if (acc + 2 ^ bits) ^ k ≤ n then acc + 2 ^ bits else acc)
/-- The first 64 bits of the fraction of the k-th root of a number below 512. -/
def rootFraction (k n : Nat) : Nat := rootUp k (n * 2 ^ (64 * k)) 69 0 % m64

/-- The first 80 primes: those below 410. -/
def shaPrimes : List Nat :=
  (List.range 410).filter (fun n => decide (2 ≤ n) && [2, 3, 5, 7, 11, 13, 17, 19].all (fun q => n == q || n % q != 0))
/-- SHA-384's constants: the round constants from cube roots, the initial value from square roots of the ninth to sixteenth primes. -/
def shaRoundKeys : List Nat := shaPrimes.map (rootFraction 3)
def shaStart : List Nat := ((shaPrimes.drop 8).take 8).map (rootFraction 2)

/-- A message in 128-byte blocks of sixteen big-endian words: 0x80, zeros, and its length in bits in the last 16 bytes. -/
def shaMessage (m : List Byte) : List (List Nat) :=
  let blocks := (m.length + 17 + 127) / 128
  let all := m ++ [0x80] ++ List.replicate (128 * blocks - 17 - m.length) 0 ++ beBytes 16 (8 * m.length)
  (List.range blocks).map (fun b => (List.range 16).map (fun i => beNat ((all.drop (128 * b + 8 * i)).take 8)))

/-- The word that joins a window of sixteen message words. -/
def shaNext (win : List Nat) : Nat :=
  let lo := win.getD 1 0
  let hi := win.getD 14 0
  (win.headD 0 + win.getD 9 0 + (turn64 1 lo ^^^ turn64 8 lo ^^^ lo / 2 ^ 7) + (turn64 19 hi ^^^ turn64 61 hi ^^^ hi / 2 ^ 6)) % m64

/-- One round on the eight working words: `add` is the round key and the message word. -/
def shaRound (st : List Nat) (add : Nat) : List Nat :=
  let v := fun i => st.getD i 0
  let mux := v 6 ^^^ (v 4 &&& (v 5 ^^^ v 6))
  let most := (v 0 &&& v 1) ||| (v 2 &&& (v 0 ||| v 1))
  let low := add + mux + v 7 + (turn64 14 (v 4) ^^^ turn64 18 (v 4) ^^^ turn64 41 (v 4))
  let top := low + most + (turn64 28 (v 0) ^^^ turn64 34 (v 0) ^^^ turn64 39 (v 0))
  top % m64 :: st.take 3 ++ (v 3 + low) % m64 :: (st.drop 4).take 3

/-- The rounds of one block, each taking the head of the window. -/
def shaBlock (st win : List Nat) : List Nat :=
  let r := shaRoundKeys.foldl (fun (p : List Nat × List Nat) key =>
    (shaRound p.1 (key + p.2.headD 0), p.2.drop 1 ++ [shaNext p.2])) (st, win)
  List.zipWith (fun a b => (a + b) % m64) st r.1

/-- SHA-384: the 48-byte digest. -/
def sha384 (m : List Byte) : List Byte := (((shaMessage m).foldl shaBlock shaStart).take 6).flatMap (beBytes 8)

def p384 : Nat := 0xfffffffffffffffffffffffffffffffffffffffffffffffffffffffffffffffeffffffff0000000000000000ffffffff
def n384 : Nat := 0xffffffffffffffffffffffffffffffffffffffffffffffffc7634d81f4372ddf581a0db248b0a77aecec196accc52973
def b384 : Nat := 0xb3312fa7e23ee7e4988e056be3f82d19181d9c6efe8141120314088f5013875ac656398d8a2ed19d2a85c8edd3ec2aef
def gx384 : Nat := 0xaa87ca22be8b05378eb1c71ef320ad746e1d3b628ba79b9859f741e082542a385502f25dbf55296c3a545e3872760ab7
def gy384 : Nat := 0x3617de4a96262c6f5d9e98bf9292dc29f8f41dbd289a147ce9da3113b5f0b8c00a60b1ce1d7e819d7a431d7c90ea0e5f

/-- x^e mod m over `n` bits of e. -/
def powMod (m : Nat) : Nat → Nat → Nat → Nat
  | 0, _, _ => 1 % m
  | n + 1, x, e => let r := powMod m n (x * x % m) (e / 2); if e % 2 = 1 then r * x % m else r

def invMod (m x : Nat) : Nat := powMod m 384 x (m - 2)

/-- a − b mod p. -/
def sub384 (a b : Nat) : Nat := (a + p384 - b % p384) % p384

/-- Jacobian doubling on P-384 (a = −3); z = 0 is the point at infinity. -/
def dbl384 (q : Nat × Nat × Nat) : Nat × Nat × Nat :=
  let (x, y, z) := q
  if z = 0 ∨ y = 0 then (1, 1, 0)
  else
    let d := z * z % p384
    let g := y * y % p384
    let b := x * g % p384
    let a := 3 * (sub384 x d) * (x + d) % p384
    let x3 := sub384 (a * a) (8 * b)
    let z3 := 2 * y * z % p384
    (x3, sub384 (a * sub384 (4 * b) x3) (8 * g * g), z3)

/-- Jacobian addition on P-384. -/
def add384 (q r : Nat × Nat × Nat) : Nat × Nat × Nat :=
  let (x1, y1, z1) := q
  let (x2, y2, z2) := r
  if z1 = 0 then r
  else if z2 = 0 then q
  else
    let z1s := z1 * z1 % p384
    let z2s := z2 * z2 % p384
    let u1 := x1 * z2s % p384
    let u2 := x2 * z1s % p384
    let s1 := y1 * z2s * z2 % p384
    let s2 := y2 * z1s * z1 % p384
    if u1 = u2 then (if s1 = s2 then dbl384 q else (1, 1, 0))
    else
      let h := sub384 u2 u1
      let rr := sub384 s2 s1
      let h2 := h * h % p384
      let h3 := h * h2 % p384
      let v := u1 * h2 % p384
      let x3 := sub384 (rr * rr) (h3 + 2 * v)
      (x3, sub384 (rr * sub384 v x3) (s1 * h3), h * z1 * z2 % p384)

def mul384 : Nat → Nat → Nat × Nat × Nat → Nat × Nat × Nat
  | 0, _, _ => (1, 1, 0)
  | n + 1, k, q =>
    let r := mul384 n (k / 2) (dbl384 q)
    if k % 2 = 1 then add384 q r else r

/-- ECDSA P-384 verification of a digest under an uncompressed SEC1 public key. -/
def ecdsaVerify (key : List Byte) (digest : List Byte) (r s : Nat) : Bool :=
  let x := beNat ((key.drop 1).take 48)
  let y := beNat ((key.drop 49).take 48)
  let okKey := decide (key.length = 97) && key.headD 0 == 4 && decide (x < p384) && decide (y < p384) &&
    decide (y * y % p384 = (x * x * x + (p384 - 3) * x + b384) % p384)
  let okSig := decide (0 < r) && decide (r < n384) && decide (0 < s) && decide (s < n384)
  if okKey && okSig then
    let w := invMod n384 s
    let e := beNat digest
    let pt := add384 (mul384 384 (e * w % n384) (gx384, gy384, 1)) (mul384 384 (r * w % n384) (x, y, 1))
    if pt.2.2 = 0 then false
    else
      let zi := invMod p384 pt.2.2
      decide (pt.1 * (zi * zi % p384) % p384 % n384 = r)
  else false

end Sys2Proof.Machine
end

