-- ==== Sys2Proof/Machine/Objects.lean ====
section
/-! DEFINITION. Objects, listeners, Kazeo frames and Wardens (file 03). -/

namespace Sys2Proof.Machine

def objBase (o : Nat) : Nat := 0x1000000 + 128 * o
/-- The bits of a byte of an object's or a listener's configuration region that are not reserved (R45, R48, R316). -/
def objMask (r : Nat) : Byte :=
  if r = 2 then 0x3F else if r = 6 ∨ r = 35 then 3 else if r = 3 ∨ r = 38 ∨ r = 39 ∨ (56 ≤ r ∧ r < 64) then 0 else 0xFF
def lisMask (r : Nat) : Byte := if r = 2 then 3 else if r = 3 ∨ r = 30 ∨ r = 31 then 0 else 0xFF
def lisBase (i : Nat) : Nat := 0x1100000 + 64 * i

def Dev.objDyn (d : Dev) (o : Nat) : ObjDyn := mget (fun _ => ObjDyn.init) d.obj.dyn o
def Dev.setObjDyn (d : Dev) (o : Nat) (x : ObjDyn) : Dev :=
  { d with obj := { d.obj with dyn := mset (fun _ => ObjDyn.init) d.obj.dyn o x } }
def Dev.lisDyn (d : Dev) (i : Nat) : LisDyn := mget (fun _ => LisDyn.init) d.obj.lis i
def Dev.setLisDyn (d : Dev) (i : Nat) (x : LisDyn) : Dev :=
  { d with obj := { d.obj with lis := mset (fun _ => LisDyn.init) d.obj.lis i x } }
def Dev.warden (d : Dev) (w : Nat) : Warden := mget (fun _ => Warden.init) d.obj.wardens w
def Dev.setWarden (d : Dev) (w : Nat) (x : Warden) : Dev :=
  { d with obj := { d.obj with wardens := mset (fun _ => Warden.init) d.obj.wardens w x } }

/-! ### Fields of an object entry as established (R45, R47) -/

def Dev.oFlag (d : Dev) (o i : Nat) : Bool := (BitVec.ofNat 16 (d.te16 (objBase o + 2))).getLsbD i
def Dev.oActive (d : Dev) (o : Nat) : Bool := d.oFlag o 0
def Dev.oDoppler (d : Dev) (o : Nat) : Bool := d.oFlag o 2
def Dev.oMute (d : Dev) (o : Nat) : Bool := d.oFlag o 3
def Dev.oLock (d : Dev) (o : Nat) : Bool := d.oFlag o 4
/-- SOURCE: a Roundabout source slot, or none from 2,048 up. -/
def Dev.oSource (d : Dev) (o : Nat) : Option Nat :=
  let v := d.te16 (objBase o + 4); if v < 2048 then some v else none
/-- METHOD: 1 forces PAN on WAVE layouts; every other value follows the layout. -/
def Dev.oForcePan (d : Dev) (o : Nat) : Bool := (d.te (objBase o + 6)).toNat % 4 == 1
/-- The number of virtual sources EXTENT asks for. -/
def extentOf (b : Byte) : Nat := if b = 1 then 4 else if b = 2 then 8 else if b = 3 then 16 else 1
/-- α of DIST_LAW in halves: 0, 1 (0.5) or 2 (1). -/
def Dev.oAlpha (d : Dev) (o : Nat) : Nat :=
  let v := (d.te (objBase o + 35)).toNat % 4; if v = 3 then 0 else v
def Dev.oLayouts (d : Dev) (o : Nat) : BitVec 16 := BitVec.ofNat 16 (d.te16 (objBase o + 36))
def Dev.oZones (d : Dev) (o : Nat) : Word := BitVec.ofNat 32 (d.te32 (objBase o + 40))
/-- REF_DIST as used (R47). -/
def refDist (v : F32) : F32 := if isNaN v then fone else if flt v f001 then f001 else if flt f4096 v then f4096 else v
def Dev.oRef (d : Dev) (o : Nat) : F32 := refDist (d.tef (objBase o + 44))
def Dev.oFarLen (d : Dev) (o : Nat) : Nat := d.te32 (objBase o + 48)
def Dev.oFarBase (d : Dev) (o : Nat) : Nat := d.te32 (objBase o + 52)
def rampUsed (v : Nat) : Nat := min v 3000

/-- A real field bounded to 0 … hi (R47): NaN and negative become 0.0. -/
def boundReal (hi v : F32) : F32 := if isNaN v || fnegative v then 0 else if flt hi v then hi else v
/-- A magnitude bounded to hi. -/
def boundMag (hi v : F32) : F32 := if flt hi v then hi else if flt v (fneg hi) then fneg hi else v

/-- The Cartesian position of a polar one (R49). -/
def polarPos (az el r : F32) : List F32 :=
  let se := sind el
  let ce := cosd el
  let sa := sind az
  let ca := cosd az
  [fneg (fmul (fmul r sa) ce), fmul (fmul r ca) ce, fmul r se]

/-- The position used of written coordinates (R47); `cur` is the position in use. -/
def usedPos (polar : Bool) (p cur : List F32) : List F32 :=
  match p, cur with
  | [a, b, c], [x, y, z] =>
    if polar then
      if isFin a && isFin b && isFin c then
        polarPos (boundMag f360 a) (boundMag f90 b) (boundReal f4096 c)
      else [x, y, z]
    else
      [if isFin a then boundMag f4096 a else x, if isFin b then boundMag f4096 b else y,
       if isFin c then boundMag f4096 c else z]
  | _, _ => cur

/-- The angles used of written ones (R47). -/
def usedAngles (p cur : List F32) : List F32 :=
  (p.zip cur).map (fun q => if isFin q.1 then boundMag f360 q.1 else q.2)

/-! ### Ramps (R60) -/

/-- The value of a ramp at capture tick c, and whether it goes on. -/
def Ramp.at (orient : Bool) (r : Ramp) (c : Nat) : List F32 × Bool :=
  let j := c - r.start + 1
  if r.len = 0 ∨ r.len ≤ j then (r.t, false)
  else
    let w := fdiv (fofNat j) (fofNat r.len)
    ((r.s.zip r.t).map (fun p =>
      let e := fsub p.2 p.1
      let e := if orient && flt f180 e then fsub e f360 else e
      let e := if orient && flt e (fneg f180) then fadd e f360 else e
      ffma w e p.1), true)

/-- The groups of an object: 0 position, 1 gain, 2 spread, 3 diffuse. -/
def ObjDyn.group (x : ObjDyn) : Nat → List F32
  | 0 => x.pos
  | 1 => [x.gain]
  | 2 => [x.spread]
  | _ => [x.diffuse]
def ObjDyn.setGroup (x : ObjDyn) (g : Nat) (v : List F32) : ObjDyn :=
  match g with
  | 0 => { x with pos := v }
  | 1 => { x with gain := v.headD 0 }
  | 2 => { x with spread := v.headD 0 }
  | _ => { x with diffuse := v.headD 0 }

def noRamp : Nat → Ramp := fun _ => ⟨0, 0, [], []⟩

/-- A group of an object gets a target at capture tick c; `len` 0 puts it in use at once (R46, R60). -/
def ObjDyn.target (x : ObjDyn) (g c len : Nat) (t : List F32) : ObjDyn :=
  { x with ramps := mset noRamp x.ramps g ⟨c, len, x.group g, t⟩ }

def LisDyn.group (x : LisDyn) (g : Nat) : List F32 := if g = 0 then x.pos else x.ori
def LisDyn.setGroup (x : LisDyn) (g : Nat) (v : List F32) : LisDyn :=
  if g = 0 then { x with pos := v } else { x with ori := v }
def LisDyn.target (x : LisDyn) (g c len : Nat) (t : List F32) : LisDyn :=
  { x with ramps := mset noRamp x.ramps g ⟨c, len, x.group g, t⟩ }

/-- Every ramp of an object advanced to capture tick c (R60). -/
def ObjDyn.advance (x : ObjDyn) (c : Nat) : ObjDyn :=
  let y := x.ramps.foldl (fun (y : ObjDyn) e => y.setGroup e.1 (e.2.at false c).1) x
  let live := x.ramps.filter (fun e => (e.2.at false c).2)
  { y with ramps := live, rampLeft := live.foldl (fun m e => max m (e.2.len - (c - e.2.start + 1))) 0 }

def LisDyn.advance (x : LisDyn) (c : Nat) : LisDyn :=
  let y := x.ramps.foldl (fun (y : LisDyn) e => y.setGroup e.1 (e.2.at (decide (e.1 ≠ 0)) c).1) x
  { y with ramps := x.ramps.filter (fun e => (e.2.at (decide (e.1 ≠ 0)) c).2) }

/-- All ramps advanced to capture tick c. -/
def Dev.advanceRamps (d : Dev) (c : Nat) : Dev :=
  let d := forL d.obj.dyn (fun e d => d.setObjDyn e.1 (e.2.advance c)) d
  forL d.obj.lis (fun e d => d.setLisDyn e.1 (e.2.advance c)) d

/-! ### Table writes established (R46, R47) -/

/-- Do the ranges [a, a+n) and [b, b+m) meet? -/
def overlap (a n b m : Nat) : Bool := decide (a < b + m) && decide (b < a + n)

/-- The established position of an object read from its entry. -/
def Dev.oPosWritten (d : Dev) (o : Nat) : List F32 :=
  [d.tef (objBase o + 8), d.tef (objBase o + 12), d.tef (objBase o + 16)]

/-- A write to the object table is established for capture tick c: the bytes of the configuration region but ID, then the
ramped fields it touches are in use at once and their ramps end (R45 to R47). -/
def Dev.estObject (d : Dev) (off : Nat) (bs : List Byte) (c : Nat) : Dev :=
  let o := (off - 0x1000000) / 128
  let rel := (off - 0x1000000) % 128
  let cells := ((List.range bs.length).zip bs).filter (fun p => decide (2 ≤ rel + p.1) && decide (rel + p.1 < 64))
  if cells.isEmpty then d
  else
    let polar0 := d.oFlag o 1
    let d := forL cells (fun p d => d.setTabE (off + p.1) [p.2]) d
    let n := bs.length
    let x := d.objDyn o
    let x := if overlap rel n 8 12 || polar0 != d.oFlag o 1
      then x.target 0 c 0 (usedPos (d.oFlag o 1) (d.oPosWritten o) x.pos) else x
    let x := if overlap rel n 20 4 then x.target 1 c 0 [boundReal f16 (d.tef (objBase o + 20))] else x
    let x := if overlap rel n 24 4 then x.target 2 c 0 [boundReal f180 (d.tef (objBase o + 24))] else x
    let x := if overlap rel n 28 4 then x.target 3 c 0 [boundReal fone (d.tef (objBase o + 28))] else x
    d.setObjDyn o { x with lastApply := c }

/-- The same for the listener table (R48). -/
def Dev.estListener (d : Dev) (off : Nat) (bs : List Byte) (c : Nat) : Dev :=
  let i := (off - 0x1100000) / 64
  let rel := (off - 0x1100000) % 64
  let cells := ((List.range bs.length).zip bs).filter (fun p => decide (2 ≤ rel + p.1) && decide (rel + p.1 < 32))
  if cells.isEmpty ∨ 8 ≤ i then d
  else
    let b := lisBase i
    let polar0 := (d.te (b + 2)).getLsbD 0
    let d := forL cells (fun p d => d.setTabE (off + p.1) [p.2]) d
    let polar := (d.te (b + 2)).getLsbD 0
    let n := bs.length
    let x := d.lisDyn i
    let x := if overlap rel n 4 12 || polar0 != polar
      then x.target 0 c 0 (usedPos polar [d.tef (b + 4), d.tef (b + 8), d.tef (b + 12)] x.pos) else x
    let x := if overlap rel n 16 12
      then x.target 1 c 0 (usedAngles [d.tef (b + 16), d.tef (b + 20), d.tef (b + 24)] x.ori) else x
    d.setLisDyn i { x with lastApply := c }

/-- The bytes of an object's state region (R45). -/
def Dev.objState (d : Dev) (o : Nat) : List Byte :=
  let x := d.objDyn o
  let w := fun (v : F32) => leBytes 4 v.toNat
  (x.pos.map w).flatten ++ w x.gain ++ w x.spread ++ w x.diffuse ++ leBytes 8 x.lastApply ++ leBytes 4 x.lastSeq ++
    leBytes 2 x.lastSrc ++ leBytes 2 x.rampLeft ++ leBytes 2 x.waveFb ++ leBytes 2 x.zoneEmpty ++ List.replicate 20 0
/-- The bytes of a listener's state region (R48). -/
def Dev.lisState (d : Dev) (i : Nat) : List Byte :=
  let x := d.lisDyn i
  let w := fun (v : F32) => leBytes 4 v.toNat
  (x.pos.map w).flatten ++ (x.ori.map w).flatten ++ leBytes 8 x.lastApply

/-! ### Kazeo frames (R50 to R57) -/

def fByte (f : List Byte) (i : Nat) : Nat := (f.getD i 0).toNat
def fWord (f : List Byte) (i n : Nat) : Nat := leNat ((f.drop i).take n)
def fReal (f : List Byte) (i : Nat) : F32 := BitVec.ofNat 32 (fWord f i 4)

/-- What the checks of R56 find: the first failure's event, or the frame's data. -/
inductive FrameRes where
  | ok | format (reason : Nat) | crc | duplicate | overflow
  deriving DecidableEq, Repr

def Dev.frameFresh (d : Dev) (t : Nat) : Bool := decide (d.clk.tick < t + 3000)

/-- The records of the KAZEO entries the Ledger holds that are still to be placed in the pending store: room is kept for them
(log entry 171). -/
def Dev.kazeoWaiting (d : Dev) : Nat :=
  ((d.twn.ledger.filter (fun e => !e.done) ++ d.twn.held).filter (fun e => e.ekind == 2)).foldl (fun n e => n + fWord e.body 10 2) 0

/-- The acceptance checks of R56, in order. -/
def Dev.checkFrame (d : Dev) (warden : Bool) (f : List Byte) : FrameRes :=
  let rc := fWord f 10 2
  let src := fWord f 8 2
  let seq := fWord f 12 4
  let asap := decide (fWord f 6 2 % 2 = 1)
  let recent := d.obj.accepted.filter (fun a => d.frameFresh a.2.2)
  if f.length < 36 ∨ f.length ≠ 36 + 48 * rc then .format 1
  else if fWord f 0 4 ≠ 0x464F4C43 then .format 2
  else if fWord f 4 2 ≠ 1 then .format 3
  else if fWord f 6 2 / 2 ≠ 0 ∨ fWord f 25 7 ≠ 0 then .format 4
  else if fByte f 24 ≠ 1 ∧ fByte f 24 ≠ 2 then .format 5
  else if rc < 1 ∨ 169 < rc then .format 6
  else if !warden && decide (crc32c (f.take (f.length - 4)) ≠ fWord f (f.length - 4) 4) then .crc
  else if !warden && decide (0xFFF8 ≤ src) then .format 7
  else if recent.any (fun a => a.1 == src && a.2.1 == seq) then .duplicate
  else if !(recent.any (fun a => a.1 == src)) && decide (64 ≤ (recent.map (fun a => a.1)).eraseDups.length) then .format 9
  else if !asap && decide (d.clk.tick + 3000 < fWord f 16 8) then .format 8
  else if 16384 < d.obj.pending.length + d.kazeoWaiting + rc then .overflow
  else .ok

/-- The VALID bits of an object record whose fields are out of range (R57). -/
def badObjFields (r : List Byte) : Nat :=
  let v := fWord r 2 2
  let on := fun i => decide (v / 2 ^ i % 2 = 1)
  let inR := fun (lo hi x : F32) => fle lo x && fle x hi
  let posOk :=
    if on 10 then isFin (fReal r 4) && fle (fabs (fReal r 4)) f360 && inR (fneg f90) f90 (fReal r 8) && inR 0 f4096 (fReal r 12)
    else [4, 8, 12].all (fun i => isFin (fReal r i) && fle (fabs (fReal r i)) f4096)
  let bad := fun (i : Nat) (ok : Bool) => if on i && !ok then 2 ^ i else 0
  bad 0 posOk + bad 1 (inR 0 f16 (fReal r 16)) + bad 2 (inR 0 f180 (fReal r 20)) + bad 3 (inR 0 fone (fReal r 24)) +
    bad 4 (decide (fWord r 28 2 ≤ 3000)) + bad 5 (decide (fByte r 30 / 4 % 32 = 0)) + bad 9 (inR f001 f4096 (fReal r 40))

/-- The same for a listener record. -/
def badLisFields (r : List Byte) : Nat :=
  let v := fWord r 2 2
  let on := fun i => decide (v / 2 ^ i % 2 = 1)
  let inR := fun (lo hi x : F32) => fle lo x && fle x hi
  let posOk :=
    if on 3 then isFin (fReal r 4) && fle (fabs (fReal r 4)) f360 && inR (fneg f90) f90 (fReal r 8) && inR 0 f4096 (fReal r 12)
    else [4, 8, 12].all (fun i => isFin (fReal r i) && fle (fabs (fReal r i)) f4096)
  let angOk := [16, 20, 24].all (fun i => isFin (fReal r i) && fle (fabs (fReal r i)) f360)
  let bad := fun (i : Nat) (ok : Bool) => if on i && !ok then 2 ^ i else 0
  bad 0 posOk + bad 1 angOk + bad 2 (decide (fWord r 28 2 ≤ 3000))

/-- One record checked on its own (R57): the record kept with its sound fields, or none when it is discarded whole. The id field
of META_RANGE holds the low 12 bits of a larger id (log entry 173). -/
def Dev.checkRecord (d : Dev) (kind : Nat) (r : List Byte) : Dev × Option (List Byte) :=
  let id := fWord r 0 2
  let v := fWord r 2 2
  let whole :=
    if kind = 1 then decide (1024 ≤ id) || decide (2 ^ 15 ≤ v) || d.oFlag id 5
    else decide (8 ≤ id) || decide (16 ≤ v) || (d.te (lisBase id + 2)).getLsbD 1
  if whole then
    ((d.raise 0x0404 0 (kind * 2 ^ 28 + id % 4096 * 65536 + 0xFFFF)).bump Off.OBJ_DROP_CNT, none)
  else
    let bad := if kind = 1 then badObjFields r else badLisFields r
    let d := if bad = 0 then d else d.raise 0x0404 0 (kind * 2 ^ 28 + id % 4096 * 65536 + bad)
    (d, some (r.take 2 ++ leBytes 2 (v - bad) ++ r.drop 4))

/-- The records of an accepted frame, each with its position. -/
def frameRecords (f : List Byte) : List (Nat × List Byte) :=
  (List.range (fWord f 10 2)).map (fun i => (i, (f.drop (32 + 48 * i)).take 48))

/-- SOURCE_ID for the events of R56. -/
def frameSrc (f : List Byte) : Nat := if f.length < 10 then 0 else fWord f 8 2

/-- The apply tick a frame names: with ASAP, the first tick whose compute has not begun (R58). -/
def Dev.frameApply (d : Dev) (f : List Byte) : Nat :=
  if fWord f 6 2 % 2 = 1 then d.clk.tick else fWord f 16 8

/-- A frame discarded whole, other than a duplicate (R56). -/
def Dev.dropFrame (d : Dev) (f : List Byte) : Dev := d.bumpN Off.OBJ_DROP_CNT ((f.length - 36) / 48)

/-- An accepted frame's (SOURCE_ID, SEQUENCE) joins those of the last 3,000 ticks (R56). -/
def Dev.notePair (d : Dev) (f : List Byte) : Dev :=
  { d with obj := { d.obj with
    accepted := d.obj.accepted.filter (fun a => d.frameFresh a.2.2) ++ [(fWord f 8 2, fWord f 12 4, d.clk.tick)] } }

/-- The records of an accepted frame checked (R57): what the discards raise and count, and the records kept, with their places. -/
def Dev.sieve (d : Dev) (f : List Byte) : Dev × List (Nat × List Byte) :=
  forL (frameRecords f) (fun p (acc : Dev × List (Nat × List Byte)) =>
    match acc.1.checkRecord (fByte f 24) p.2 with
    | (d', none) => (d', acc.2)
    | (d', some r) => (d', acc.2 ++ [(p.1, r)])) (d, [])

/-- Records of one frame into the pending store; `due` is the first capture tick they may be established for. -/
def Dev.pendRecords (d : Dev) (f : List Byte) (rs : List (Nat × List Byte)) (apply due : Nat) : Dev :=
  { d with obj := { d.obj with
    frames := d.obj.frames + 1
    pending := d.obj.pending ++ rs.map (fun p =>
      ⟨apply, due, fWord f 8 2, fWord f 12 4, p.1, fByte f 24, p.2, d.obj.frames⟩) } }

/-- A frame of the same header that holds only these records, with its CRC: what the accepting unit journals (R54, R277). -/
def reframe (f : List Byte) (rs : List (Nat × List Byte)) : List Byte :=
  let g := f.take 10 ++ leBytes 2 rs.length ++ (f.drop 12).take 20 ++ (rs.map (fun p => p.2)).flatten
  g ++ leBytes 4 (crc32c g)

/-- A frame checked and, if it passes, its records stored (R56 to R58). `route`: 0–3 UDP, 4 mailbox, 5 Warden. The answer is
the mailbox result code of R54: 1 ACCEPTED to 6 RANGE. -/
def Dev.takeFrame (d : Dev) (route : Nat) (f : List Byte) : Dev × Nat :=
  let src := frameSrc f
  match d.checkFrame (route == 5) f with
  | .format r => ((d.raise 0x0402 0 (r * 2 ^ 24 + route * 2 ^ 16 + src)).dropFrame f, 2)
  | .crc => ((d.raise 0x0403 0 (route * 2 ^ 16 + src)).dropFrame f, 3)
  | .duplicate => (d.bump Off.OBJ_DUP_CNT, 4)
  | .overflow => ((d.raise 0x0405 0 (route * 2 ^ 16 + src)).dropFrame f, 5)
  | .ok =>
    let a := d.frameApply f
    let r := d.notePair f |>.sieve f
    (r.1.pendRecords f r.2 a a, if r.2 = frameRecords f then 1 else 6)

/-! ### Wardens (R62, R63) -/

def Dev.wdnBusy (d : Dev) (w : Nat) : Bool := d.bit Off.WDN_STAT w

/-- A Warden's activation ends: its uncommitted buffer is discarded (R62). WFI discards it as the other ends do (log entry 174). -/
def Dev.wardenStop (d : Dev) (w : Nat) : Dev :=
  let x := d.warden w
  let open_ := if x.sent = some x.cur then 1 - x.cur else x.cur
  let x := if open_ = 0 then { x with stage0 := [] } else { x with stage1 := [] }
  (d.setWarden w x).setBit Off.WDN_STAT w false

/-- A Warden's fault: the event, the FAULT bit, and the end of the activation (R62, R63, R351). -/
def Dev.wardenFault (d : Dev) (w cause : Nat) : Dev :=
  ((d.raise 0x0406 w (cause * 256 + w)).setBit Off.WDN_STAT (8 + w) true).wardenStop w

/-- Every Warden with RUN set starts at boundary n (R62); one still active is abandoned first. The turn to the other staging buffer does
not outlive the activation (log entry 174). -/
def Dev.startWardens (d : Dev) (n : Nat) : Dev :=
  forN 8 (fun w d =>
    let d := if d.wdnBusy w then d.wardenFault w 1 else d
    if d.bit Off.WDN_CTL w then (d.setWarden w { d.warden w with
        n := n
        sent := none }).setBit Off.WDN_STAT w true else d)
    (if d.fld Off.WDN_CTL 7 0 = 0 then d else { d with obj := { d.obj with snap := ⟨d.tabE, d.obj.dyn, d.obj.lis⟩ } })

/-- One byte of the object and listener snapshots, from offset 0 of 0x3000_0000 (R62). -/
def Dev.snapByte (d : Dev) (o : Nat) : Byte :=
  let x := d.obj.snap
  let e := { d with
    tabE := x.tab
    obj := { d.obj with
      dyn := x.dyn
      lis := x.lis } }
  if o < 0x20000 then
    let r := o % 128
    if r < 2 then (leBytes 2 (o / 128)).getD r 0 else if r < 64 then e.te (0x1000000 + o) &&& objMask r else (e.objState (o / 128)).getD (r - 64) 0
  else
    let i := (o - 0x20000) / 64
    let r := o % 64
    if r < 2 then (leBytes 2 i).getD r 0 else if r < 32 then e.te (lisBase i + r) &&& lisMask r else (e.lisState i).getD (r - 32) 0

/-- A staging buffer with bytes stored into it. -/
def stagePut (l : List Byte) (o : Nat) (bs : List Byte) : List Byte :=
  let l := l ++ List.replicate (o - l.length) 0
  (l.take o ++ bs ++ l.drop (o + bs.length)).take 4096

/-- A load of n bytes from a Warden's own map (R62); none outside it. COMMIT is write-only and reads 0 (log entry 22). -/
def Dev.wardenLoad (d : Dev) (w a n : Nat) : Option (List Byte) :=
  let x := d.warden w
  let within := fun (base size : Nat) => decide (base ≤ a) && decide (a + n ≤ base + size)
  let stage := fun (l : List Byte) => (l ++ List.replicate (4096 - l.length) 0).drop (a % 4096) |>.take n
  if within 0 0x10000 then some (getBytes x.imem a n)
  else if within 0x10000000 0x10000 then some (getBytes x.dmem (a - 0x10000000) n)
  else if within 0x20000000 0x1000 then some (stage x.stage0)
  else if within 0x20001000 0x1000 then some (stage x.stage1)
  else if within 0x20002000 16 then
    some (((leBytes 4 0 ++ leBytes 4 x.result ++ leBytes 8 x.n).drop (a - 0x20002000)).take n)
  else if within 0x30000000 0x20200 then some ((List.range n).map (fun i => d.snapByte (a - 0x30000000 + i)))
  else none

/-- A Warden commits a frame of the given length from the buffer it has last written (R55, R62). A length above the 4,096 bytes of
the buffer reads zeros beyond it (log entry 174). -/
def Dev.wardenCommit (d : Dev) (w len : Nat) : Dev :=
  if !d.wdnBusy w then d
  else
    let x := d.warden w
    let buf := if x.cur = 0 then x.stage0 else x.stage1
    let f := (buf ++ List.replicate (len - buf.length) 0).take len
    let f := if 10 ≤ f.length then f.take 8 ++ leBytes 2 (0xFFF8 + w) ++ f.drop 10 else f
    let x := { x with sent := some x.cur }
    if !d.bit Off.OBJ_CTL 2 then d.setWarden w { x with result := 1 }
    else
      let late := decide (fWord f 6 2 % 2 = 0) && decide (fWord f 16 8 < x.n)
      let r := d.takeFrame 5 f
      let res := if r.2 = 1 ∨ r.2 = 6 then (if late then 3 else 0) else if r.2 = 5 then 2
        else if r.2 = 4 then (Config.commitDup w).toNat else 1
      r.1.setWarden w { x with result := res }

/-- A store by a Warden's program to its own map (R62); none outside it. A store to a staging buffer that has just been committed
goes to the other one; stores to what is read-only are ignored (log entry 22). -/
def Dev.wardenStore (d : Dev) (w a : Nat) (bs : List Byte) : Option Dev :=
  let x := d.warden w
  let n := bs.length
  let within := fun (base size : Nat) => decide (base ≤ a) && decide (a + n ≤ base + size)
  if within 0 0x10000 then some (d.setWarden w { x with imem := setBytes x.imem a bs })
  else if within 0x10000000 0x10000 then some (d.setWarden w { x with dmem := setBytes x.dmem (a - 0x10000000) bs })
  else if within 0x20000000 0x1000 || within 0x20001000 0x1000 then
    let k := if a < 0x20001000 then 0 else 1
    let k := if x.sent = some k then 1 - k else k
    some (d.setWarden w (if k = 0 then { x with
      stage0 := stagePut x.stage0 (a % 4096) bs
      cur := 0 } else { x with
      stage1 := stagePut x.stage1 (a % 4096) bs
      cur := 1 }))
  else if within 0x20002000 4 then some (d.wardenCommit w (leNat bs))
  else if within 0x20002004 12 || within 0x30000000 0x20200 then some d
  else none

/-- A read of one of a Warden's counters: 0 under DET, else a free value (R63, log entry 172). -/
def Dev.wardenCount (d : Dev) (w k : Nat) : Dev × Word :=
  if d.bit Off.WDN_CTL (8 + w) then (d, 0)
  else
    let x := d.warden w
    (d.setWarden w { x with counts := x.counts + 1 }, Config.wardenCounter w k x.counts)

/-- One act of an executing Warden's program; what it reads joins the answer. An access outside its map gets an error response and
raises WARDEN_FAULT with cause ACCESS (R63, R306). -/
def Dev.wardenAct (d : Dev) (w : Nat) (act : WardenAct) : Dev :=
  let fault : Dev := { d.wardenFault w 3 with resp := ⟨true, d.resp.data⟩ }
  match act with
  | .load a n => match d.wardenLoad w a n with
    | some v => { d with resp := ⟨false, d.resp.data ++ v⟩ }
    | none => fault
  | .store a bs => (d.wardenStore w a bs).getD fault
  | .counter k =>
    let r := d.wardenCount w k
    { r.1 with resp := ⟨false, d.resp.data ++ leBytes 4 r.2.toNat⟩ }

/-- What a Warden's program does, in order, until it faults (R62, R63); a Warden that is not executing does nothing. -/
def Dev.wardenRun (d : Dev) (w : Nat) (acts : List WardenAct) : Dev :=
  if acts.isEmpty then d
  else forL acts (fun act d => if d.wdnBusy w then d.wardenAct w act else d) { d with resp := ⟨false, []⟩ }

/-- An access to WDN_MEM_DATA (R62): the selected word is read or written, and OFFSET advances by 4. -/
def Dev.wdnMem (d : Dev) (write : Option Word) : Dev × Word :=
  let a := d.rd Off.WDN_MEM_ADDR
  let w := getBits a 31 29
  let data := a.getLsbD 28
  let off := getBits a 15 0 / 4 * 4
  let run := d.bit Off.WDN_CTL w
  let x := d.warden w
  let m := if data then x.dmem else x.imem
  let d' := d.setFld Off.WDN_MEM_ADDR 15 0 ((getBits a 15 0 + 4) % 65536)
  match write with
  | none => (d', if run then 0 else BitVec.ofNat 32 (leNat (getBytes m off 4)))
  | some v =>
    if run then (d', 0)
    else
      let m' := setBytes m off (leBytes 4 v.toNat)
      (d'.setWarden w (if data then { x with dmem := m' } else { x with imem := m' }), 0)

end Sys2Proof.Machine
end

