-- ==== Sys2Proof/Machine/Geometry.lean ====
section
/-! DEFINITION. Layouts and the geometry kernels: PAN, WAVE and HEAD targets (files 04 and 05). -/

namespace Sys2Proof.Machine

/-- A vector of R71. -/
structure V3 where
  x : F32
  y : F32
  z : F32
  deriving DecidableEq, Repr

def v3 (l : List F32) : V3 := ⟨l.getD 0 0, l.getD 1 0, l.getD 2 0⟩
def vdot (a b : V3) : F32 := ffma a.x b.x (ffma a.y b.y (fmul a.z b.z))
def vnorm (a : V3) : F32 := fsqrt (ffma a.x a.x (ffma a.y a.y (fmul a.z a.z)))
def vunit (a : V3) : V3 := let n := vnorm a; ⟨fdiv a.x n, fdiv a.y n, fdiv a.z n⟩
def vcross (a b : V3) : V3 :=
  ⟨ffma a.y b.z (fneg (fmul a.z b.y)), ffma a.z b.x (fneg (fmul a.x b.z)), ffma a.x b.y (fneg (fmul a.y b.x))⟩
def vsub (a b : V3) : V3 := ⟨fsub a.x b.x, fsub a.y b.y, fsub a.z b.z⟩
/-- −0.0 and negatives become +0.0 (R71). -/
def clamp0 (g : F32) : F32 := if flt 0 g then g else 0
/-- tand(a) of R71. -/
def tand (a : F32) : F32 :=
  if isZero a then a
  else
    let s := sinQ (fval a) (2 ^ 149)
    let c := cosQ (fval a) (2 ^ 149)
    roundRatio (if c < 0 then -s else s) c.natAbs

/-! ### Layout tables (R66 to R70) -/

def layBase (l : Nat) : Nat := 0x1200000 + 0x10000 * l
/-- KIND: 1 PAN, 2 WAVE, 3 HEAD; every other value is NONE. -/
def Dev.lKind (d : Dev) (l : Nat) : Nat := let k := (d.te (layBase l)).toNat; if k ≤ 3 then k else 0
def Dev.lDiffuse (d : Dev) (l : Nat) : Bool := (d.te (layBase l + 1)).getLsbD 0
def Dev.lSpk (d : Dev) (l : Nat) : Nat := min (d.te16 (layBase l + 2)) (if d.lKind l = 3 then 32 else 384)
def Dev.lTri (d : Dev) (l : Nat) : Nat := min (d.te16 (layBase l + 4)) 1024
def Dev.vec (d : Dev) (off : Nat) : V3 := ⟨d.tef off, d.tef (off + 4), d.tef (off + 8)⟩
def Dev.lRef (d : Dev) (l : Nat) : V3 := d.vec (layBase l + 8)
def Dev.lUp (d : Dev) (l : Nat) : V3 := d.vec (layBase l + 0x14)
/-- The speed of sound as used (R65): 343.0 outside 250.0–450.0. -/
def Dev.lC (d : Dev) (l : Nat) : F32 :=
  let c := d.tef (layBase l + 0x20); if fle 0x437A0000 c && fle c 0x43E10000 then c else 0x43AB8000
/-- r_min: 0.01 below 0.01 or not finite, 100.0 above. -/
def Dev.lMin (d : Dev) (l : Nat) : F32 :=
  let v := d.tef (layBase l + 0x24)
  if !isFin v || flt v f001 then f001 else if flt 0x42C80000 v then 0x42C80000 else v
def Dev.lLock (d : Dev) (l : Nat) : F32 := let v := d.tef (layBase l + 0x28); if fle 0 v && fle v f90 then v else 0
def Dev.lPanDelay (d : Dev) (l : Nat) : Nat := max (d.te32 (layBase l + 0x2C)) 0x10000

def spkBase (l s : Nat) : Nat := layBase l + 0x400 + 32 * s
def triBase (l t : Nat) : Nat := layBase l + 0x3400 + 48 * t
def Dev.sFeed (d : Dev) (l s : Nat) : Nat := d.te16 (spkBase l s)
def Dev.sGroup (d : Dev) (l s : Nat) : Nat := (d.te (spkBase l s + 2)).toNat % 32
def Dev.sNoPan (d : Dev) (l s : Nat) : Bool := (d.te (spkBase l s + 3)).getLsbD 0
def Dev.sPos (d : Dev) (l s : Nat) : V3 := d.vec (spkBase l s + 4)
def Dev.sNormal (d : Dev) (l s : Nat) : V3 := d.vec (spkBase l s + 16)
def Dev.sDecor (d : Dev) (l s : Nat) : Option Nat := let v := d.te16 (spkBase l s + 28); if v < 512 then some v else none
/-- The unit direction of a speaker (R70). -/
def Dev.sDir (d : Dev) (l s : Nat) : V3 :=
  let p := d.sPos l s; if isZero (vnorm p) then ⟨0, fone, 0⟩ else vunit p

/-- The bus a speaker's FEED names: a feed, or a virtual-speaker bus of the Head target (R68, R99). -/
def Dev.sBus (d : Dev) (l s : Nat) : Option Nat :=
  let f := d.sFeed l s
  if d.lKind l = 3 then
    let t := (d.te (layBase l + 0x80)).toNat
    if f < 32 ∧ t < 8 then some (0x400 + 32 * t + f) else none
  else if f < 512 then some f else none

def Dev.tV (d : Dev) (l t i : Nat) : Nat := d.te16 (triBase l t + 2 * i)
def Dev.tM (d : Dev) (l t i j : Nat) : F32 := d.tef (triBase l t + 12 + 4 * (3 * i + j))

/-- Is a triangle eligible (R69)? -/
def Dev.eligible (d : Dev) (l t : Nat) : Bool :=
  let vs := [d.tV l t 0, d.tV l t 1, d.tV l t 2]
  decide ((vs.filter (fun v => v == 0xFFFF)).length ≤ 1) &&
    vs.all (fun v => v == 0xFFFF || (decide (v < d.lSpk l) && !d.sNoPan l v))

/-- Is a speaker removed by a zone mask (R75)? -/
def Dev.excl (d : Dev) (l : Nat) (zones : Word) (s : Nat) : Bool := zones.getLsbD (d.sGroup l s)

/-! ### pan_one and snap (R73, R74) -/

/-- The speaker `snap` chooses: the greatest dot product, ties to the lower FEED, and of two with one FEED the lower index (log entry
202). -/
def Dev.snapSpk (d : Dev) (l : Nat) (zones : Word) (u : V3) : Option Nat :=
  ((List.range (d.lSpk l)).filter (fun s => !d.sNoPan l s && !d.excl l zones s)).foldl (fun b s =>
    match b with
    | none => some s
    | some c =>
      let x := vdot u (d.sDir l s)
      let y := vdot u (d.sDir l c)
      if flt y x || (feq x y && decide (d.sFeed l s < d.sFeed l c)) then some s else some c) none

def zeros (n : Nat) : List F32 := List.replicate n 0
def oneAt (n i : Nat) : List F32 := (List.range n).map (fun k => if k = i then fone else 0)

def Dev.snap (d : Dev) (l : Nat) (zones : Word) (u : V3) : Dev × List F32 :=
  let n := d.lSpk l
  (d.bump Off.GEO_SNAP_CNT, match d.snapSpk l zones u with
    | some s => oneAt n s
    | none => zeros n)

/-- The three gains of a triangle for a direction. -/
def Dev.triGains (d : Dev) (l t : Nat) (u : V3) : List F32 :=
  (List.range 3).map (fun i => ffma (d.tM l t i 2) u.z (ffma (d.tM l t i 1) u.y (fmul (d.tM l t i 0) u.x)))

def minL (gs : List F32) : F32 := gs.tail.foldl fminv (gs.headD 0)

/-- The search of R73: the first qualifying triangle, or the fallback. -/
def Dev.triSearch (d : Dev) (l : Nat) (u : V3) : Option (Nat × List F32) × Option (Nat × List F32) :=
  (List.range (d.lTri l)).foldl (fun st t =>
    if st.1.isSome || !d.eligible l t then st
    else
      let g := d.triGains l t u
      let m := minL g
      if fle 0xB5800000 m then (some (t, g), st.2)
      else match st.2 with
        | none => (none, some (t, g))
        | some f => if flt (minL f.2) m then (none, some (t, g)) else st) (none, none)

def Dev.panOne (d : Dev) (l : Nat) (zones : Word) (u : V3) : Dev × List F32 :=
  let n := d.lSpk l
  let r := d.triSearch l u
  let chosen := match r.1 with
    | some c => some c
    | none => r.2
  let d := if r.1.isNone && r.2.isSome then d.bump Off.GEO_FALLBACK_CNT else d
  let gv := match chosen with
    | none => zeros n
    | some (t, gs) => (List.range 3).foldl (fun (gv : List F32) i =>
        let v := d.tV l t i
        if v = 0xFFFF ∨ d.excl l zones v then gv else gv.set v (clamp0 (gs.getD i 0))) (zeros n)
  if gv.all isZero then d.snap l zones u
  else
    let s := gv.foldl (fun s g => if isZero g then s else ffma g g s) 0
    let r := fsqrt s
    (d, gv.map (fun g => if isZero g then g else fdiv g r))

/-! ### Streets by object and bus (R99, R101) -/

def strBase (i : Nat) : Nat := 0x1400000 + 32 * i
def Dev.street (d : Dev) (i : Nat) : Str := mget (fun _ => Str.init) d.geo.streets i
def Dev.setStreet (d : Dev) (i : Nat) (x : Str) : Dev :=
  { d with geo := { d.geo with streets := mset (fun _ => Str.init) d.geo.streets i x } }
def busValid (b : Nat) : Bool := decide (b < 0x210) || (decide (0x400 ≤ b) && decide (b < 0x500))
def strInUse (m : NMap Byte) (rate96 : Bool) (i : Nat) : Bool :=
  (bget m (strBase i + 4)).getLsbD 0 && decide (leNat (getBytes m (strBase i) 2) < 1024) &&
    busValid (leNat (getBytes m (strBase i + 2) 2)) && (!rate96 || decide (i < 65536))
/-- The Streets in use, ascending: their FLAGS byte is not 0, so it is listed. -/
def strList (m : NMap Byte) (rate96 : Bool) : List Nat :=
  m.filterMap (fun e =>
    if 0x1400000 ≤ e.1 ∧ e.1 < 0x1800000 ∧ (e.1 - 0x1400000) % 32 = 4 ∧ strInUse m rate96 ((e.1 - 0x1400000) / 32)
    then some ((e.1 - 0x1400000) / 32) else none)
def Dev.usedStreets (d : Dev) : List Nat := strList d.tabE d.div.rate96
def Dev.strObj (d : Dev) (i : Nat) : Nat := d.te16 (strBase i)
def Dev.strBus (d : Dev) (i : Nat) : Nat := d.te16 (strBase i + 2)
def Dev.strManual (d : Dev) (i : Nat) : Bool := (d.te (strBase i + 4)).getLsbD 1

def Dev.findStreet (d : Dev) (o b : Nat) : Option Nat :=
  d.usedStreets.find? (fun i => d.strObj i == o && d.strBus i == b && !d.strManual i)

/-- A completed write of a table byte that no boundary has yet established (R11). -/
def Dev.byteWaits (d : Dev) (off : Nat) : Bool :=
  d.pendW.any (fun p => match p with
    | .tab a bs => decide (a ≤ off) && decide (off < a + bs.length)
    | _ => false)

/-- Geometry writes a target field of a Street, for the boundary in force; a byte that a host write waits to change still reads as
written (R100). -/
def Dev.setStrTarget (d : Dev) (i rel : Nat) (bs : List Byte) : Dev :=
  let off := strBase i + rel
  forL ((List.range bs.length).zip bs) (fun p d => if d.byteWaits (off + p.1) then d else d.setTabW (off + p.1) [p.2]) (d.setTabE off bs)

/-- Geometry writes a target; the delay is left as it was where none is given (R87, R101). -/
def Dev.setTarget (d : Dev) (o b : Nat) (g : F32) (delay : Option Nat) : Dev :=
  match d.findStreet o b with
  | none => d
  | some i =>
    let d := d.setStrTarget i 8 (leBytes 4 g.toNat)
    match delay with
    | none => d
    | some q => d.setStrTarget i 12 (leBytes 4 q)

/-- A speaker's gain is lost: its FEED names no bus, or no Street of the object names it (R80). -/
def Dev.lostStreet (d : Dev) (o l s : Nat) : Bool :=
  match d.sBus l s with
  | none => true
  | some b => !(d.usedStreets.any (fun i => d.strObj i == o && d.strBus i == b))

/-- At the first geometry job of a compute tick every target gain of a geometry Street is cleared (R101). -/
def Dev.geoClear (d : Dev) (n : Nat) : Dev :=
  if d.geo.cleared = n then d
  else
    let d := forL d.usedStreets (fun i d => if d.strManual i then d else d.setStrTarget i 8 (leBytes 4 0)) d
    { d with geo := { d.geo with cleared := n } }

/-! ### Pairs -/

def Dev.pair (d : Dev) (o l : Nat) : GeoPair := mget (fun _ => GeoPair.init) d.geo.pairs (16 * o + l)
def Dev.setPair (d : Dev) (o l : Nat) (p : GeoPair) : Dev :=
  { d with geo := { d.geo with pairs := mset (fun _ => GeoPair.init) d.geo.pairs (16 * o + l) p } }

/-- The previous direction and hull state are forgotten (R72, R85). -/
def Dev.forgetPair (d : Dev) (o l : Nat) : Dev := d.setPair o l { d.pair o l with dir := none, hull := 0 }
/-- The pairs of a layout that hold anything. -/
def Dev.pairsOf (d : Dev) (l : Nat) : List Nat := d.geo.pairs.filterMap (fun e => if e.1 % 16 = l then some (e.1 / 16) else none)


/-- Does the object render on the layout in this tick? -/
def Dev.renders (d : Dev) (o l : Nat) : Bool := d.oActive o && (d.oLayouts o).getLsbD l

/-- Direction and distance (R72). -/
def Dev.direction (d : Dev) (o l : Nat) (p : V3) : Dev × V3 × F32 :=
  let r := vnorm p
  let pr := d.pair o l
  let u := if fle 0x3D4CCCCD r then vunit p else match pr.dir with
    | some v => v3 v
    | none => ⟨0, fone, 0⟩
  (d.setPair o l { pr with dir := some [u.x, u.y, u.z] }, u, r)

/-- The layout is empty for a zone mask (R75). -/
def Dev.layEmpty (d : Dev) (l : Nat) (zones : Word) : Bool :=
  let ss := (List.range (d.lSpk l)).filter (fun s => !d.sNoPan l s)
  !ss.isEmpty && ss.all (fun s => d.excl l zones s)

def Dev.setObjBits (d : Dev) (o l : Nat) (empty : Bool) : Dev :=
  let x := d.objDyn o
  let w : BitVec 16 := BitVec.ofNat 16 x.zoneEmpty
  let v := if empty then w ||| BitVec.ofNat 16 (2 ^ l) else w &&& ~~~ (BitVec.ofNat 16 (2 ^ l))
  d.setObjDyn o { x with zoneEmpty := v.toNat }

/-- ZONE_EMPTY: the state bit, and the event in the first tick of an episode (R75). -/
def Dev.zoneEmpty (d : Dev) (o l : Nat) (empty : Bool) : Dev :=
  let p := d.pair o l
  let d := (d.setObjBits o l empty).setPair o l { p with emptySaid := empty }
  if empty && !p.emptySaid then d.raise 0x0501 0 (o * 65536 + l) else d

/-- N of EXTENT, or 1 when the object is limited in this tick (R77, R78). -/
def Dev.extentN (d : Dev) (o : Nat) : Nat :=
  if d.geo.limited.contains o then 1 else extentOf (d.te (objBase o + 34))

/-- The extent computation (R77). -/
def Dev.panExtent (d : Dev) (l : Nat) (zones : Word) (u : V3) (n : Nat) (spread : F32) : Dev × List F32 :=
  let h := fminv (fmul spread fhalf) 0x42B20000
  let tt := tand h
  let a := vcross u (d.lUp l)
  let small := fun (a : V3) => flt (vnorm a) 0x3A800000
  let a := if small a then vcross ⟨0, fone, 0⟩ u else a
  let a := if small a then ⟨fone, 0, 0⟩ else a
  let a := vunit a
  let b := vcross a u
  let pat := layBase l + (if n = 4 then 0x100 else if n = 8 then 0x120 else 0x160)
  let m := d.lSpk l
  let r := (List.range n).foldl (fun (st : Dev × List F32) k =>
    let pu := d.tef (pat + 8 * k)
    let pv := d.tef (pat + 8 * k + 4)
    let w : V3 := ⟨ffma pu a.x (fmul pv b.x), ffma pu a.y (fmul pv b.y), ffma pu a.z (fmul pv b.z)⟩
    let dk : V3 := ⟨ffma tt w.x u.x, ffma tt w.y u.y, ffma tt w.z u.z⟩
    let uk := if flt 0 (vnorm dk) then vunit dk else u
    let g := st.1.panOne l zones uk
    (g.1, (st.2.zip g.2).map (fun p => fadd p.1 p.2))) (d, zeros m)
  let s := r.2.foldl (fun s g => ffma g g s) 0
  if isZero s then (r.1, zeros m) else (r.1, let q := fsqrt s; r.2.map (fun g => fdiv g q))

/-- The PAN gains with channel lock and extent (R76, R77). -/
def Dev.panGains (d : Dev) (o l : Nat) (zones : Word) (u : V3) : Dev × List F32 :=
  let n := d.extentN o
  let x := d.objDyn o
  let plain := fun (d : Dev) =>
    if n = 1 ∨ isZero x.spread then d.panOne l zones u else d.panExtent l zones u n x.spread
  if d.oLock o then
    match d.snapSpk l zones u with
    | none => plain d
    | some s => if fle (cosd (d.lLock l)) (vdot u (d.sDir l s)) then (d, oneAt (d.lSpk l) s) else plain d
  else plain d

/-- The gains of direct and diffuse parts from a gain and the diffuse fraction. -/
def Dev.splitGain (d : Dev) (o l : Nat) (go : F32) : F32 × F32 :=
  let dd := if d.lDiffuse l then (d.objDyn o).diffuse else 0
  (fmul go (fsqrt (fsub fone dd)), fmul go (fsqrt dd))

/-- PAN targets of one pair from its position relative to the layout (R72 to R80). -/
def Dev.panPair (d : Dev) (o l : Nat) (p : V3) : Dev :=
  let t := d.direction o l p
  let d := t.1
  let u := t.2.1
  let r := t.2.2
  let zones := d.oZones o
  let delay := some (d.lPanDelay l)
  let empty := d.layEmpty l zones
  let d := d.zoneEmpty o l empty
  if empty then
    let d := forN (d.lSpk l) (fun s d => match d.sBus l s with
      | some b => d.setTarget o b 0 delay
      | none => d) d
    d.setTarget o (0x200 + l) 0 delay
  else
    let g := d.panGains o l zones u
    let d := g.1
    let q := fdiv (d.oRef o) (fmaxv r (d.lMin l))
    let gd := if d.oAlpha o = 0 then fone else if d.oAlpha o = 1 then fsqrt q else q
    let go := if d.oMute o then 0 else fmul (d.objDyn o).gain gd
    let sp := d.splitGain o l go
    let d := forL ((List.range g.2.length).zip g.2) (fun e d =>
      let d := if !isZero e.2 && d.lostStreet o l e.1 then d.bump Off.GEO_NOSTREET_CNT else d
      match d.sBus l e.1 with
      | some b => d.setTarget o b (fmul sp.1 e.2) delay
      | none => d) d
    d.setTarget o (0x200 + l) sp.2 delay

/-! ### WAVE (R84 to R89) -/

/-- The outward plane of a hull triangle and a point of it (R85). -/
def Dev.hullPlane (d : Dev) (l t : Nat) : Option (V3 × V3) :=
  if !d.eligible l t || [0, 1, 2].any (fun i => d.tV l t i == 0xFFFF) then none
  else
    let a := d.sPos l (d.tV l t 0)
    let nt := vcross (vsub (d.sPos l (d.tV l t 1)) a) (vsub (d.sPos l (d.tV l t 2)) a)
    if isZero (vnorm nt) then none else some (vunit nt, a)

/-- hmax of R85; none without a hull triangle. -/
def Dev.hmax (d : Dev) (l : Nat) (p : V3) : Option F32 :=
  (List.range (d.lTri l)).foldl (fun m t =>
    match d.hullPlane l t with
    | none => m
    | some (n, a) =>
      let h := vdot n (vsub p a)
      match m with
      | none => some h
      | some v => some (fmaxv v h)) none

/-- A value used as `dflt` outside 0 … hi. -/
def inRange0 (hi dflt v : F32) : F32 := if fle 0 v && fle v hi then v else dflt
def Dev.wAperture (d : Dev) (l : Nat) : F32 := inRange0 f90 f90 (d.tef (layBase l + 0x44))
def Dev.wNorm (d : Dev) (l : Nat) : F32 := let v := d.tef (layBase l + 0x48); if isFin v && flt 0 v then v else fone
def Dev.wAlign (d : Dev) (l : Nat) : F32 := inRange0 f4096 0 (d.tef (layBase l + 0x4C))
def Dev.wHyst (d : Dev) (l : Nat) : F32 := inRange0 0x41200000 0 (d.tef (layBase l + 0x50))
def Dev.fsF (d : Dev) : F32 := fofNat d.fs

/-- The unsigned 16.16 delay of R88. -/
def Dev.to1616 (d : Dev) (dl : F32) : Dev × Nat :=
  let low := !fle fone dl
  let d := if low then d.bump Off.GEO_WAVE_LOW_CNT else d
  let dl := if low then fone else dl
  if fle f65536 dl then (d.bump Off.GEO_WAVE_HIGH_CNT, 0xFFFFFFFF)
  else
    let v := fmag dl                                -- in units of 2⁻¹⁴⁹
    let q := v / 2 ^ 133
    let rem := v % 2 ^ 133
    let q := if 2 ^ 132 < rem ∨ (rem = 2 ^ 132 ∧ q % 2 = 1) then q + 1 else q
    (d, q)
where f65536 : F32 := 0x47800000

/-- One speaker of the WAVE computation; the count of kept speakers is threaded (R87, R89). -/
def Dev.waveSpk (d : Dev) (o l s : Nat) (p : V3) (zones : Word) (gdir : F32) (kept : Nat) : Dev × Nat :=
  let nrm := d.sNormal l s
  if d.sNoPan l s || d.excl l zones s || isZero (vnorm nrm) then (d, kept)
  else
    let e := vsub (d.sPos l s) p
    let pr := vdot (vunit nrm) e
    if !flt 0 pr then (d, kept)
    else
      let rs := vnorm e
      let cth := fdiv pr rs
      let ca := cosd (d.wAperture l)
      let w := if fle ca cth then fone else
        let sn := sind (fmul f90 (fdiv cth ca))
        fmul sn sn
      let kept := kept + 1
      if 256 < kept then (d, kept)
      else
        let inv := fdiv fone (fmaxv rs (d.lMin l))
        let weight := fmul (fmul w inv) (d.wNorm l)
        let spc := fdiv d.fsF (d.lC l)
        let al := fmul (d.wAlign l) spc
        let t := d.to1616 (ffma rs spc (fneg al))
        let d := t.1
        let d := if d.lostStreet o l s then d.bump Off.GEO_NOSTREET_CNT else d
        match d.sBus l s with
        | some b => (d.setTarget o b (fmul gdir weight) (some t.2), kept)
        | none => (d, kept)

/-- No more than 256 speakers were wanted in this rendering (R89). -/
def Dev.limitOver (d : Dev) (o l : Nat) : Dev := d.setPair o l { d.pair o l with limitSaid := false }

def Dev.wavePair (d : Dev) (o l : Nat) (p : V3) : Dev :=
  let zones := d.oZones o
  let go := if d.oMute o then 0 else (d.objDyn o).gain
  let sp := d.splitGain o l go
  let empty := d.layEmpty l zones
  let d := d.zoneEmpty o l empty
  if empty then (d.limitOver o l).setTarget o (0x200 + l) 0 none
  else
    let r := (List.range (d.lSpk l)).foldl (fun (st : Dev × Nat) s => st.1.waveSpk o l s p zones sp.1 st.2) (d, 0)
    let d := if r.2 = 0 then r.1.bump Off.GEO_WAVE_NONE_CNT else r.1
    let pr := d.pair o l
    let past := decide (256 < r.2)
    let d := d.setPair o l { pr with limitSaid := past }
    let d := if past && !pr.limitSaid then d.raise 0x0502 0 (o * 65536 + l) else d
    d.setTarget o (0x200 + l) sp.2 none

/-- The Streets that carry the targets of a pair (R86). -/
def Dev.pairStreets (d : Dev) (o l : Nat) : List Nat :=
  let buses := (0x200 + l) :: (List.range (d.lSpk l)).filterMap (fun s => d.sBus l s)
  d.usedStreets.filter (fun i => d.strObj i == o && !d.strManual i && buses.contains (d.strBus i))

/-- A change between WAVE and PAN marks the pair's Streets with JUMP (R86). -/
def Dev.methodIs (d : Dev) (o l m : Nat) : Dev :=
  let p := d.pair o l
  let d := d.setPair o l { p with method := m }
  if p.method ≠ 0 ∧ m ≠ 0 ∧ p.method ≠ m then
    forL (d.pairStreets o l) (fun i d => d.setStreet i { d.street i with jump := true }) d
  else d

def Dev.setWaveFb (d : Dev) (o l : Nat) (b : Bool) : Dev :=
  let x := d.objDyn o
  let w : BitVec 16 := BitVec.ofNat 16 x.waveFb
  let v := if b then w ||| BitVec.ofNat 16 (2 ^ l) else w &&& ~~~ (BitVec.ofNat 16 (2 ^ l))
  d.setObjDyn o { x with waveFb := v.toNat }

/-- The position of an object relative to a layout (R64). -/
def Dev.relPos (d : Dev) (o l : Nat) : V3 := vsub (v3 (d.objDyn o).pos) (d.lRef l)

/-- An object that is not rendered on a layout (R75, R84, R86, R89). -/
def Dev.pairIdle (d : Dev) (o l : Nat) : Dev := (((d.methodIs o l 0).setWaveFb o l false).zoneEmpty o l false).limitOver o l

/-- One GEOM_PAN item (R81). -/
def Dev.geomPan (d : Dev) (o : Nat) : Dev :=
  forN 16 (fun l d => if d.lKind l ≠ 1 then d
    else if d.renders o l then (((d.methodIs o l 1).setWaveFb o l false).limitOver o l).panPair o l (d.relPos o l) else d.pairIdle o l) d

/-- One GEOM_WAVE item (R84, R85). -/
def Dev.geomWave (d : Dev) (o : Nat) : Dev :=
  forN 16 (fun l d =>
    if d.lKind l ≠ 2 then d
    else if !d.renders o l then d.pairIdle o l
    else
      let p := d.relPos o l
      if d.oForcePan o then
        let d := d.setPair o l { d.pair o l with hull := 0 }
        (((d.methodIs o l 1).setWaveFb o l false).limitOver o l).panPair o l p
      else
        let inside := match d.hmax l p with
          | none => false
          | some h => if (d.pair o l).hull = 1 then flt h (fneg (d.wHyst l)) else flt h 0
        let d := d.setPair o l { d.pair o l with hull := if inside then 2 else 1 }
        if inside then
          let d := { d with geo := { d.geo with hullPairs := d.geo.hullPairs + 1 } }
          (((d.methodIs o l 1).setWaveFb o l true).limitOver o l).panPair o l p
        else ((d.methodIs o l 2).setWaveFb o l false).wavePair o l p) d

/-! ### HEAD (R91 to R93) -/

def Dev.hTarget (d : Dev) (l : Nat) : Option Nat := let t := (d.te (layBase l + 0x80)).toNat; if t < 8 then some t else none
def Dev.hListener (d : Dev) (l : Nat) : Nat := let i := (d.te (layBase l + 0x81)).toNat; if i < 8 then i else 0
def Dev.hTrack (d : Dev) (l : Nat) : Bool := (d.te (layBase l + 0x82)).getLsbD 0

/-- The layout that renders a Head target: the lowest HEAD layout that names it (R91). -/
def Dev.headLayout (d : Dev) (t : Nat) : Option Nat := firstN 16 (fun l => decide (d.lKind l = 3) && d.hTarget l == some t)

/-- The object in the listener's head frame (R92). -/
def Dev.headPos (d : Dev) (o l : Nat) : V3 :=
  let x := d.lisDyn (d.hListener l)
  let p := vsub (v3 (d.objDyn o).pos) (v3 x.pos)
  let a := if d.hTrack l then v3 x.ori else ⟨0, 0, 0⟩
  let cy := cosd a.x
  let sy := sind a.x
  let cp := cosd a.y
  let sp := sind a.y
  let cr := cosd a.z
  let sr := sind a.z
  let x1 := ffma p.x cy (fmul p.y sy)
  let y1 := ffma p.y cy (fneg (fmul p.x sy))
  let z1 := p.z
  let y2 := ffma y1 cp (fmul z1 sp)
  let z2 := ffma z1 cp (fneg (fmul y1 sp))
  ⟨ffma x1 cr (fneg (fmul z2 sr)), y2, ffma z2 cr (fmul x1 sr)⟩

/-- One GEOM_HEAD item (R93). -/
def Dev.geomHead (d : Dev) (o : Nat) : Dev :=
  forN 16 (fun l d =>
    if d.lKind l ≠ 3 then d
    else if d.renders o l ∧ ((d.hTarget l).bind d.headLayout) = some l then
      (((d.methodIs o l 0).setWaveFb o l false).limitOver o l).panPair o l (d.headPos o l)
    else d.pairIdle o l) d

/-- A geometry item is lost: the target gains it was to write, of the object on the layouts of one KIND, are 0.0 (R148). -/
def Dev.geoLost (d : Dev) (o kind : Nat) : Dev :=
  forN 16 (fun l d => if d.lKind l ≠ kind then d
    else forL (d.pairStreets o l) (fun i d => d.setStrTarget i 8 (leBytes 4 0)) d) d

/-! ### What a change of an entry does to geometry -/

/-- What a change of an object's entry, established for capture tick c, does to geometry and histories (R72, R80, R85, R97): the
target gains on a layout the object leaves become 0.0. -/
def Dev.objectChanged (before d : Dev) (o c : Nat) : Dev :=
  let rose := !before.oActive o && d.oActive o
  let masks := (List.range 16).filter (fun l => rose || (!(before.oLayouts o).getLsbD l && (d.oLayouts o).getLsbD l))
  let left := (List.range 16).filter (fun l => before.renders o l && !d.renders o l)
  let d := forL masks (fun l d => d.forgetPair o l) d
  let d := forL left (fun l d => forL (d.pairStreets o l) (fun i d => d.setStrTarget i 8 (leBytes 4 0)) d) d
  if rose || before.oFarLen o != d.oFarLen o || before.oFarBase o != d.oFarBase o then
    { d with geo := { d.geo with histFrom := mset (fun _ => 0) d.geo.histFrom o (c * d.L) } }
  else d

/-! ### Records established (R58, R59) -/

/-- The order of R59. -/
def PRec.before (a b : PRec) : Bool :=
  decide (a.apply < b.apply) || (a.apply == b.apply && (decide (a.src < b.src) || (a.src == b.src &&
    (decide (a.seq < b.seq) || (a.seq == b.seq && decide (a.pos ≤ b.pos))))))

def prInsert (e : PRec) : List PRec → List PRec
  | [] => [e]
  | x :: xs => if PRec.before x e then x :: prInsert e xs else e :: x :: xs

def prSort (es : List PRec) : List PRec := es.foldl (fun acc e => prInsert e acc) []

/-- An object record applied for capture tick c (R51, R60, R61). -/
def Dev.applyObject (d : Dev) (r : PRec) (c : Nat) : Dev :=
  let o := fWord r.bytes 0 2
  let v := fWord r.bytes 2 2
  let on := fun i => decide (v / 2 ^ i % 2 = 1)
  let b := objBase o
  let cp := fun (cond : Bool) (dst src n : Nat) (d : Dev) =>
    if cond then d.setTab (b + dst) ((r.bytes.drop src).take n) else d
  let flag := fun (cond : Bool) (i : Nat) (val : Bool) (d : Dev) =>
    if cond then
      let w := putBits (BitVec.ofNat 32 (d.te16 (b + 2))) i i (if val then 1 else 0)
      let w' := putBits (BitVec.ofNat 32 (d.tw16 (b + 2))) i i (if val then 1 else 0)
      (d.setTabE (b + 2) (leBytes 2 w.toNat)).setTabW (b + 2) (leBytes 2 w'.toNat)
    else d
  let d := cp (on 0) 8 4 12 d
  let d := flag (on 0) 1 (on 10) d
  let d := cp (on 1) 20 16 4 d
  let d := cp (on 2) 24 20 4 d
  let d := cp (on 3) 28 24 4 d
  let d := cp (on 4) 32 28 2 d
  let d := if on 5 then d.setTab (b + 6) [BitVec.ofNat 8 (fByte r.bytes 30 % 4)] else d
  let d := flag (on 5) 4 (decide (128 ≤ fByte r.bytes 30)) d
  let d := cp (on 6) 7 31 1 d
  let d := cp (on 7) 36 32 2 d
  let d := cp (on 8) 40 36 4 d
  let d := cp (on 9) 44 40 4 d
  let d := flag (on 11) 3 (on 12) d
  let d := flag (on 13) 2 (on 14) d
  let len := rampUsed (d.te16 (b + 32))
  let x := d.objDyn o
  let x := if on 0 then x.target 0 c len
    (if on 10 then polarPos (fReal r.bytes 4) (fReal r.bytes 8) (fReal r.bytes 12)
     else [fReal r.bytes 4, fReal r.bytes 8, fReal r.bytes 12]) else x
  let x := if on 1 then x.target 1 c len [fReal r.bytes 16] else x
  let x := if on 2 then x.target 2 c len [fReal r.bytes 20] else x
  let x := if on 3 then x.target 3 c len [fReal r.bytes 24] else x
  d.setObjDyn o { x with lastApply := c, lastSeq := r.seq, lastSrc := r.src }

/-- A listener record applied for capture tick c (R52, R60). -/
def Dev.applyListener (d : Dev) (r : PRec) (c : Nat) : Dev :=
  let i := fWord r.bytes 0 2
  let v := fWord r.bytes 2 2
  let on := fun k => decide (v / 2 ^ k % 2 = 1)
  let b := lisBase i
  let d := if on 0 then d.setTab (b + 4) ((r.bytes.drop 4).take 12) else d
  let d := if on 0 then
      (d.setTabE (b + 2) [BitVec.ofNat 8 ((d.te (b + 2)).toNat / 2 * 2 + (if on 3 then 1 else 0))]).setTabW (b + 2)
        [BitVec.ofNat 8 ((d.tw (b + 2)).toNat / 2 * 2 + (if on 3 then 1 else 0))] else d
  let d := if on 1 then d.setTab (b + 16) ((r.bytes.drop 16).take 12) else d
  let d := if on 2 then d.setTab (b + 28) ((r.bytes.drop 28).take 2) else d
  let len := rampUsed (d.te16 (b + 28))
  let x := d.lisDyn i
  let x := if on 0 then x.target 0 c len
    (if on 3 then polarPos (fReal r.bytes 4) (fReal r.bytes 8) (fReal r.bytes 12)
     else [fReal r.bytes 4, fReal r.bytes 8, fReal r.bytes 12]) else x
  let x := if on 1 then x.target 1 c len [fReal r.bytes 16, fReal r.bytes 20, fReal r.bytes 24] else x
  d.setLisDyn i { x with lastApply := c }

/-- One record established for capture tick c, counted late where it is (R58). -/
def Dev.estRecord (d : Dev) (r : PRec) (c : Nat) : Dev :=
  let d := if r.apply < c then
      let d := d.bump Off.OBJ_LATE_CNT
      if d.obj.lateSaid.contains r.frame then d
      else
        let d := { d with obj := { d.obj with lateSaid := r.frame :: d.obj.lateSaid } }
        d.raise 0x0401 0 (r.src * 65536 + min (c - r.apply) 0xFFFF)
    else d
  if r.kind = 1 then Dev.objectChanged d (d.applyObject r c) (fWord r.bytes 0 2) c else d.applyListener r c

/-- The pending records due at or before capture tick c, in the order of R59 and within its limits. -/
def Dev.dueRecords (d : Dev) (c : Nat) : List PRec :=
  let due := prSort (d.obj.pending.filter (fun r => decide (r.due ≤ c)))
  ((due.filter (fun r => r.kind == 1)).take 4096) ++ ((due.filter (fun r => r.kind != 1)).take 64)

/-- Step 5 of R9, records: established for capture tick c. -/
def Dev.establishRecords (d : Dev) (c : Nat) : Dev :=
  let rs := d.dueRecords c
  let rs := prSort rs
  let d := { d with obj := { d.obj with pending := d.obj.pending.filter (fun r => !rs.contains r) } }
  let d := forL rs (fun r d => d.estRecord r c) d
  { d with obj := { d.obj with lateSaid := d.obj.lateSaid.filter (fun f => d.obj.pending.any (fun r => r.frame == f)) } }

/-! ### Extent capacity at a boundary (R78) -/

/-- The active objects, ascending: their FLAGS byte is not 0, so it is listed. -/
def Dev.activeObjects (d : Dev) : List Nat :=
  d.tabE.filterMap (fun e =>
    if 0x1000000 ≤ e.1 ∧ e.1 < 0x1020000 ∧ (e.1 - 0x1000000) % 128 = 2 ∧ e.2.getLsbD 0
    then some ((e.1 - 0x1000000) / 128) else none)

def Dev.extentStep (d : Dev) : Dev :=
  let r := d.activeObjects.foldl (fun (st : Nat × List Nat) o =>
    let n := extentOf (d.te (objBase o + 34))
    if n = 1 then (st.1 + 1, st.2)
    else if 4096 < st.1 + n then (st.1 + 1, st.2 ++ [o]) else (st.1 + n, st.2)) (0, [])
  let said := d.geo.limitSaid
  let d := forL (r.2.filter (fun o => !said.contains o)) (fun o d =>
    d.raise 0x0503 0 (o * 65536 + extentOf (d.te (objBase o + 34)))) d
  { d with geo := { d.geo with limited := r.2, limitSaid := r.2 } }.wrN Off.GEO_VS_TOTAL r.1

end Sys2Proof.Machine
end

