-- ==== Sys2Proof/Machine/Streets.lean ====
section
/-! DEFINITION. Object histories and the Street mixing kernels (file 06), with the diffuse and shelf steps of a bus. -/

namespace Sys2Proof.Machine

/-! ### Histories (R95 to R97) -/

/-- FAR_LEN as used (R96). -/
def Dev.farLen (d : Dev) (o : Nat) : Nat :=
  let v := d.oFarLen o / 32 * 32
  if v < 4096 then 0 else min v (if d.div.rate96 then 131072 else 65536)
def Dev.reach (d : Dev) (o : Nat) : Nat := let f := d.farLen o; if f = 0 then 4096 else f
/-- The far ring lies within populated SDRAM outside the staging area (R96). -/
def Dev.farOk (d : Dev) (o : Nat) : Bool :=
  decide (d.farLen o ≠ 0) && decide (d.oFarBase o * 128 + d.farLen o * 4 ≤ d.stagingBase)
/-- The SDRAM byte address of a history sample in the far ring. -/
def Dev.farAddr (d : Dev) (o n : Nat) : Nat := d.oFarBase o * 128 + 4 * (n % d.farLen o)

/-- A capture block is appended to the history of an active object: the far ring takes it as well (R95). -/
def Dev.farWrite (d : Dev) (o t : Nat) : Dev :=
  if d.oActive o && d.farOk o then
    let seen := mget (fun _ => (0, [])) d.geo.displaced o
    let old := if seen.1 = t then seen.2 else (List.range d.L).map (fun k => d.sdWord (d.farAddr o (t * d.L + k)))
    { d with geo := { d.geo with displaced := mset (fun _ => (0, [])) d.geo.displaced o (t, old) }, sdBy := 4 }.sdRing (d.oFarBase o * 128) (d.farLen o) (t * d.L) (d.blockOf (Sig.objIn o) t)
  else d

/-- A capture tick is taken into the histories: the ticks since the last one, if there are any, had no capture, and their samples do not
exist (R97). -/
def Dev.captureTick (d : Dev) (t : Nat) : Dev :=
  let near := d.geo.gaps.filter (fun g => decide (t * d.L < g.2 + 131072))
  let gaps := if d.geo.capEnd ≠ 0 ∧ d.geo.capEnd < t then near ++ [(d.geo.capEnd * d.L, t * d.L)] else near
  { d with geo := { d.geo with
    gaps := gaps
    capEnd := t + 1 } }

/-- hist(o, n + … − a): the history sample at index m for an output at index n (R95 to R97). A sample of an age below the
reach is read even where the tick's own block has taken its place in the far ring (R96). -/
def Dev.hist (d : Dev) (o n : Nat) (m : Int) : F32 :=
  let age := (n : Int) - m
  let gap := d.geo.gaps.any (fun g => decide ((g.1 : Int) ≤ m) && decide (m < (g.2 : Int)))
  if m < mget (fun _ => 0) d.geo.histFrom o ∨ m < d.geo.firstCap.getD 0 * d.L ∨ (d.reach o : Int) ≤ age ∨ gap = true then 0
  else if age < 4096 then d.sget (Sig.objIn o) m.toNat
  else if !d.farOk o then 0
  else
    let x := mget (fun _ => (0, [])) d.geo.displaced o
    let later := m.toNat + d.farLen o
    if x.1 * d.L ≤ later ∧ later < x.1 * d.L + x.2.length then x.2.getD (later - x.1 * d.L) 0
    else d.sdWord (d.farAddr o m.toNat)

/-! ### One Street (R104 to R107) -/

def c6 : F32 := 0x40C00000

/-- The interpolation of R105. -/
def Dev.interp (d : Dev) (o n b dl : Nat) : F32 :=
  let a : Int := (b + dl / 65536 : Nat)
  let f := roundInt false ((dl % 65536 : Nat) : Int) (-16)
  let fp1 := fadd f fone
  let fm1 := fsub f fone
  let fm2 := fsub f f2
  let hm1 := fneg (fdiv (fmul (fmul f fm1) fm2) c6)
  let h0 := fmul (fmul (fmul fp1 fm1) fm2) fhalf
  let h1 := fneg (fmul (fmul (fmul fp1 f) fm2) fhalf)
  let h2 := fdiv (fmul (fmul fp1 f) fm1) c6
  let h := fun (k : Int) => d.hist o n ((n : Int) - (a + k))
  ffma h2 (h 2) (ffma h1 (h 1) (ffma h0 (h 0) (fmul hm1 (h (-1)))))

/-- w = (k+1)/L, exact in binary32. -/
def tickW (k L : Nat) : F32 := if k + 1 = L then fone else fdiv (fofNat (k + 1)) (fofNat L)

/-- The effective base, delay and CLAMPED of a Street (R104). -/
def Dev.strTargets (d : Dev) (i : Nat) : Nat × Nat × Bool :=
  let r := d.reach (d.strObj i)
  let b1 := min (min (d.te32 (strBase i + 24)) 131071) (r - 4)
  let dl := (r - 3 - b1) * 65536
  let d1 := max (d.te32 (strBase i + 12)) 0x10000
  if dl < d1 then (b1, dl, true) else (b1, d1, false)

/-- The target gain a Street mixes with (R101). -/
def Dev.strGain (d : Dev) (i : Nat) : F32 :=
  if d.strManual i && !d.oActive (d.strObj i) then 0 else d.tef (strBase i + 8)

/-- One Street through capture tick t, added to its lane's partial (R104 to R107). -/
def Dev.streetTick (d : Dev) (i t : Nat) (part : List F32) : Dev × List F32 :=
  let o := d.strObj i
  let x := d.street i
  let tg := d.strTargets i
  let b1 := tg.1
  let d1 := tg.2.1
  let g0 := x.cur
  let g1 := d.strGain i
  let L := d.L
  let d := if tg.2.2 then d.bump Off.STR_REACH_CNT else d
  let x := { x with clamped := tg.2.2 }
  if isZero g0 && isZero g1 then (d.setStreet i { x with delay := d1, base := b1, xfade := false }, part)
  else
    let silent := isZero g0
    let d0 := if silent then d1 else x.delay
    let b0 := if silent then b1 else x.base
    let far := decide (0x8000 < ((d1 : Int) - d0).natAbs)
    let cross := !silent && (x.jump || decide (b0 ≠ b1) || (!d.oDoppler o && far))
    let n0 := t * L
    let ks := (List.range part.length).zip part
    if cross then
      let part := ks.map (fun p =>
        let w := tickW p.1 L
        let ga := if p.1 + 1 = L then 0 else ffma (fneg w) g0 g0
        let gb := if p.1 + 1 = L then g1 else fmul w g1
        ffma gb (d.interp o (n0 + p.1) b1 d1) (ffma ga (d.interp o (n0 + p.1) b0 d0) p.2))
      ((d.setStreet i { x with cur := g1, delay := d1, base := b1, xfade := true }).bump Off.STR_XFADE_CNT, part)
    else
      let lim : Int := (L * 0x2000 : Nat)
      let full : Int := (d1 : Int) - d0
      let dd := max (-lim) (min lim full)
      let d := if dd ≠ full then d.bump Off.STR_SLEW_CNT else d
      let part := ks.map (fun p =>
        let g := if p.1 + 1 = L then g1 else ffma (tickW p.1 L) (fsub g1 g0) g0
        let dl := (d0 : Int) + (dd * (p.1 + 1 : Nat)).tdiv L
        ffma g (d.interp o (n0 + p.1) b1 dl.toNat) p.2)
      (d.setStreet i { x with cur := g1, delay := ((d0 : Int) + dd).toNat, base := b1, xfade := false }, part)

/-! ### Lanes and buses (R102, R103) -/

def Dev.laneStreets (d : Dev) (lane : Nat) : List Nat := d.usedStreets.filter (fun i => i / 64 == lane)
/-- A lane's bus: that of its lowest Street in use. -/
def Dev.laneBus (d : Dev) (lane : Nat) : Option Nat := (d.laneStreets lane).head?.map d.strBus

/-- One lane mixed for capture tick t. -/
def Dev.mixLane (d : Dev) (lane t : Nat) (fade : Bool) : Dev :=
  match d.laneBus lane with
  | none => { d with geo := { d.geo with laneSaid := d.geo.laneSaid.filter (fun x => x != lane) } }
  | some b =>
    let ss := d.laneStreets lane
    let bad := ss.filter (fun i => d.strBus i != b)
    let d := d.bumpN Off.STR_LANE_ERR_CNT bad.length
    let said := d.geo.laneSaid.contains lane
    let d := { d with geo := { d.geo with
      laneSaid := if bad.isEmpty then d.geo.laneSaid.filter (fun x => x != lane) else if said then d.geo.laneSaid else lane :: d.geo.laneSaid } }
    let d := if bad.isEmpty || said then d else d.raise 0x0504 0 lane
    let r := (ss.filter (fun i => d.strBus i == b)).foldl (fun (st : Dev × List F32) i => st.1.streetTick i t st.2)
      (d, List.replicate d.L 0)
    r.1.sputs (Sig.lane lane) (t * d.L) (fadeBlock' fade d.L r.2)
where fadeBlock' (fade : Bool) (n : Nat) (vs : List F32) : List F32 :=
  if fade then ((List.range vs.length).zip vs).map (fun p => fmul p.2 (tickW p.1 n)) else vs

/-- The lanes of a bus, ascending. -/
def Dev.busLanes (d : Dev) (b : Nat) : List Nat :=
  ((d.usedStreets.map (fun i => i / 64)).eraseDups).filter (fun l => d.laneBus l == some b)

/-- The WAVE layout that shelves a feed (R90). -/
def Dev.shelfLayout (d : Dev) (f : Nat) : Option Nat :=
  firstN 16 (fun l => decide (d.lKind l = 2) && (d.te (layBase l + 0x40)).getLsbD 0 &&
    (List.range (d.lSpk l)).any (fun s => d.sBus l s == some f))

/-- The shelf of R90 over a block; the state is x1, x2, y1, y2. -/
def shelfRun (c : List F32) : List F32 → List F32 → List F32 × List F32
  | [], st => ([], st)
  | x :: xs, st =>
    let g := fun i => st.getD i 0
    let y := fmul (c.getD 0 0) x
    let y := ffma (c.getD 1 0) (g 0) y
    let y := ffma (c.getD 2 0) (g 1) y
    let y := ffma (fneg (c.getD 3 0)) (g 2) y
    let y := ffma (fneg (c.getD 4 0)) (g 3) y
    let r := shelfRun c xs [x, g 0, y, g 2]
    (y :: r.1, r.2)

/-- One bus formed for capture tick t: its lanes in ascending order, then the shelf (R103, R90). A diffuse bus keeps its past samples by
the KIND they were formed under (R79). -/
def Dev.formBus (d : Dev) (b t : Nat) (fade : Bool) : Dev :=
  let sum := (d.busLanes b).foldl (fun (acc : List F32) l => (acc.zip (d.blockOf (Sig.lane l) t)).map (fun p => fadd p.1 p.2))
    (List.replicate d.L 0)
  if 0x200 ≤ b ∧ b < 0x210 ∧ d.lKind (b - 0x200) = 0 then d       -- not formed: its samples read 0.0 (R79)
  else
  let r : Dev × List F32 :=
    if b < 512 then
      match d.shelfLayout b with
      | none => (d, sum)
      | some l =>
        let c := (List.range 5).map (fun i => d.tef (layBase l + 0x54 + 4 * i))
        let s := shelfRun c sum (mget (fun _ => []) d.geo.shelf b)
        ({ d with geo := { d.geo with shelf := mset (fun _ => []) d.geo.shelf b s.2 } }, s.1)
    else (d, sum)
  let vs := if fade then ((List.range d.L).zip r.2).map (fun p => fmul p.2 (tickW p.1 d.L)) else r.2
  let d := r.1.sputs (Sig.feedBus b) (t * d.L) vs
  if 0x200 ≤ b ∧ b < 0x210 then d.sputs (Sig.diffuse (16 * d.lKind (b - 0x200) + (b - 0x200))) (t * d.L) vs else d

/-- One STREET_MIX item for capture tick t (R139): a lane, or a bus. -/
def Dev.streetMixItem (d : Dev) (i param t : Nat) (fade : Bool) : Dev :=
  if param = 0 then (if i < 2048 then d.mixLane i t fade else d)
  else if busValid i then d.formBus i t fade else d

/-- Does a layout render? A HEAD layout does where it is the lowest that names its target (R67, R91). -/
def Dev.layRenders (d : Dev) (l : Nat) : Bool :=
  d.lKind l == 1 || d.lKind l == 2 || (d.lKind l == 3 && (d.hTarget l).bind d.headLayout == some l)

/-- One DIFFUSE_DECOR item: speaker s of layout l (R79; R87 and R93 give WAVE and HEAD layouts the same). -/
def Dev.decorItem (d : Dev) (l s t : Nat) (fade : Bool) : Dev :=
  if 16 ≤ l ∨ !d.layRenders l ∨ d.lSpk l ≤ s ∨ !d.lDiffuse l then d
  else
    match d.sDecor l s, d.sBus l s with
    | some f, some b =>
      let sig := Sig.diffuse (16 * d.lKind l + l)
      let vs := (List.range d.L).map (fun k =>
        let n := t * d.L + k
        let acc := (List.range 512).foldl (fun acc i =>
          ffma (d.tef (0x1300000 + 0x800 * f + 4 * i)) (if n < i then 0 else d.sget sig (n - i)) acc) 0
        let y := fadd (d.sget (Sig.feedBus b) n) acc
        if fade then fmul y (tickW k d.L) else y)
      d.sputs (Sig.feedBus b) (t * d.L) vs
    | _, _ => d

/-! ### Establishing Street and object changes (R97, R100) -/

/-- The window writes a Street accepts, judged as the completed writes stand (R100): bytes outside the writable fields, and
targets of a Street whose MANUAL is 0, are ignored. -/
def Dev.strWritable (d : Dev) (off : Nat) (bs : List Byte) : List (Nat × Byte) :=
  let cells := ((List.range bs.length).zip bs).map (fun p => (off + p.1, p.2))
  -- FLAGS counts as written first within one access
  let manual : Nat → Bool := fun i =>
    match cells.find? (fun c => c.1 == strBase i + 4) with
    | some c => c.2.getLsbD 1
    | none => (d.tw (strBase i + 4)).getLsbD 1
  let accept : Nat × Byte → Option (Nat × Byte) := fun c =>
    let i : Nat := (c.1 - 0x1400000) / 32
    let r : Nat := (c.1 - 0x1400000) % 32
    if decide (r < 4) || (decide (24 ≤ r) && decide (r < 28)) then some c
    else if r = 4 then some (c.1, c.2 &&& 3)
    else if decide (8 ≤ r) && decide (r < 16) && manual i then some c
    else none
  cells.filterMap accept

/-- IN_USE, OBJECT and BUS as established: what starts a Street afresh when it changes (R100). -/
def Dev.strKey (d : Dev) (i : Nat) : List Byte × Byte :=
  let b := getBytes d.tabE (strBase i) 5
  (b.take 4, (b.getD 4 0) &&& 1)

/-- A Street started afresh, from what the boundary has established (R100). -/
def Dev.startStreet (d : Dev) (i : Nat) : Dev :=
  d.setStreet i { d.street i with
    cur := 0
    delay := (d.strTargets i).2.1
    base := min (d.te32 (strBase i + 24)) 131071 }

/-- KIND of a layout has changed: where it no longer renders, the states and reports of its pairs end (R75, R84, R86, R89). -/
def Dev.kindChanged (d : Dev) (l : Nat) : Dev :=
  if d.lKind l ≠ 0 then d
  else forL (d.pairsOf l) (fun o d => d.pairIdle o l) d

/-- The shelf states that the boundary's writes have made zero: the feeds of the speakers then in use (R90). -/
def Dev.shelfClear (d : Dev) : Dev :=
  let d' := forL d.geo.shelfNew (fun l d => forN (d.lSpk l) (fun s d => match d.sBus l s with
    | some b => { d with geo := { d.geo with shelf := mset (fun _ => []) d.geo.shelf b [] } }
    | none => d) d) d
  { d' with geo := { d'.geo with shelfNew := [] } }

/-- A compute tick begins: JUMP was for the tick before, and so were the bits of the state region (R75, R84, R98). -/
def Dev.geoTick (d : Dev) : Dev :=
  let d := forL (d.geo.streets.filter (fun e => e.2.jump)) (fun e d => d.setStreet e.1 { e.2 with jump := false }) d
  forL (d.obj.dyn.filter (fun e => e.2.waveFb != 0 || e.2.zoneEmpty != 0)) (fun e d => d.setObjDyn e.1 { e.2 with
    waveFb := 0
    zoneEmpty := 0 }) d

/-- A layout write is established: what it makes the device forget (R72, R90, R93). -/
def Dev.estLayout (d : Dev) (off : Nat) (bs : List Byte) : Dev :=
  let before := d
  let d := d.setTabE off bs
  if 0x1300000 ≤ off then d
  else
    let l := (off - 0x1200000) / 0x10000
    let rel := (off - 0x1200000) % 0x10000
    let kind := overlap rel bs.length 0 1
    let head := decide (d.lKind l = 3) && (overlap rel bs.length 0x80 2 ||
      (overlap rel bs.length 0x82 1 && before.hTrack l != d.hTrack l) || overlap rel bs.length 0x82 1)
    let d := if kind || head then forL (d.pairsOf l) (fun o d => d.forgetPair o l) d else d
    let shelfOn := (d.te (layBase l + 0x40)).getLsbD 0 && !(before.te (layBase l + 0x40)).getLsbD 0
    let d := if before.lKind l = d.lKind l then d else d.kindChanged l
    if kind || shelfOn then { d with geo := { d.geo with shelfNew := l :: d.geo.shelfNew } } else d

/-- The read-only fields of a Street entry, for a read (R98). -/
def Dev.strByte (d : Dev) (off : Nat) : Byte :=
  let i := (off - 0x1400000) / 32
  let r := (off - 0x1400000) % 32
  let x := d.street i
  let fl : Byte := (if x.jump then 4 else 0) ||| (if x.xfade then 8 else 0) ||| (if x.clamped then 16 else 0)
  if r = 4 then (d.tw off &&& 3) ||| fl
  else if r = 5 then 0
  else if 6 ≤ r ∧ r < 8 then (leBytes 2 (i / 64)).getD (r - 6) 0
  else if 16 ≤ r ∧ r < 20 then (leBytes 4 x.cur.toNat).getD (r - 16) 0
  else if 20 ≤ r ∧ r < 24 then (leBytes 4 x.delay).getD (r - 20) 0
  else if 28 ≤ r then (leBytes 4 x.base).getD (r - 28) 0
  else d.tw off

/-- The counts at a boundary (STR_STAT, STR_LANES, GEO_HULL_PAIRS). -/
def Dev.streetCounts (d : Dev) : Dev :=
  let ss := d.usedStreets
  let d := d.wrN Off.STR_STAT ss.length
  let d := d.wrN Off.STR_LANES ((ss.map (fun i => i / 64)).eraseDups).length
  let d := d.wrN Off.GEO_HULL_PAIRS d.geo.hullPairs
  { d with geo := { d.geo with hullPairs := 0 } }

end Sys2Proof.Machine
end

