-- ==== Sys2Proof/Machine/Conv.lean ====
section
/-! DEFINITION. Room correction (file 07): the transform, the partitioned convolution, bank swap, bank protection and the
Head outputs of R94. -/

namespace Sys2Proof.Machine

/-! ### Segments (R109, R111) -/

/-- A bank or history length as used (R109). -/
def lenUsed (v : Nat) : Nat := min (v / 16 * 16) 32768

def segB (s : Nat) : Nat := if s = 1 then 16 else if s = 2 then 256 else 2048
def segOff (s : Nat) : Nat := if s = 1 then 0 else if s = 2 then 16 else 272
def segLag (s : Nat) : Nat := if s = 3 then 2 else 1
def ceilDiv (a b : Nat) : Nat := (a + b - 1) / b
/-- P1, P2, P3 of R111. -/
def segP (len s : Nat) : Nat :=
  if s = 1 then min 16 ((len - 16) / 16)
  else if s = 2 then min 16 (ceilDiv (len - 272) 256)
  else min 14 (ceilDiv (len - 4368) 2048)

/-- Near units of a bank (R113); a bank without taps has none. -/
def nearUnits (len : Nat) : Nat := if len < 16 then 0 else 1 + 2 * segP len 1
/-- Far granules of a bank (R113). -/
def farGranules (len : Nat) : Nat := 16 * segP len 2 + 128 * segP len 3

/-! ### The transform (R115, R116) -/

abbrev Cx := F32 × F32

/-- twiddle(N, m). -/
def twiddle (n m : Nat) : Cx := (roundFix (cosQ (360 * m : Nat) n), fneg (roundFix (sinQ (360 * m : Nat) n)))
def cmul (t w : Cx) : Cx :=
  (ffma t.1 w.1 (fneg (fmul t.2 w.2)), ffma t.1 w.2 (fmul t.2 w.1))

/-- The two outputs of one stage over a block of 2·span points: sums, then differences times the twiddles. -/
def butterflies (inverse : Bool) (size : Nat) (xs : List Cx) : List Cx × List Cx :=
  let span := size / 2
  let ab := (xs.take span).zip (xs.drop span)
  (ab.map (fun p => (fadd p.1.1 p.2.1, fadd p.1.2 p.2.2)),
   ((List.range span).zip ab).map (fun (e : Nat × Cx × Cx) =>
     let w := twiddle size e.1
     cmul (fsub e.2.1.1 e.2.2.1, fsub e.2.1.2 e.2.2.2) (if inverse then (w.1, fneg w.2) else w)))

def interleave {α : Type} : List α → List α → List α
  | [], bs => bs
  | a :: as, bs => match bs with
    | [] => a :: as
    | b :: bs => a :: b :: interleave as bs

/-- fft of 2^k points (R115). The blocks of a stage are independent: the sums feed the even outputs and the products the
odd ones, which is the bit reversal of the text. -/
def fft (inverse : Bool) : Nat → List Cx → List Cx
  | 0, xs => xs
  | k + 1, xs =>
    let r := butterflies inverse (2 ^ (k + 1)) xs
    interleave (fft inverse k r.1) (fft inverse k r.2)

/-- rfft_pack of a block of B values followed by B zeros; N = 2B = 2^k. -/
def rfftPack (k : Nat) (v : List F32) : List F32 :=
  let x := fft false k ((v ++ List.replicate (2 ^ k - v.length) 0).map (fun a => (a, (0 : F32))))
  let h := 2 ^ k / 2
  (x.getD 0 (0, 0)).1 :: (x.getD h (0, 0)).1 ::
    (((x.take h).drop 1).map (fun (c : Cx) => [c.1, c.2])).flatten

def pairs : List F32 → List Cx
  | a :: b :: r => (a, b) :: pairs r
  | _ => []

/-- irfft_unpack. -/
def irfftUnpack (k : Nat) (p : List F32) : List F32 :=
  let mid := pairs (p.drop 2)
  let x : List Cx := (p.getD 0 0, 0) :: mid ++ (p.getD 1 0, 0) :: (mid.map (fun c => (c.1, fneg c.2))).reverse
  (fft true k x).map (fun z => fmul z.1 (roundRatio 1 (2 ^ k)))

/-- mac of R118, over packed spectra. -/
def macPairs : List F32 → List F32 → List F32 → List F32
  | a :: b :: acc, xr :: xi :: x, hr :: hi :: h =>
    ffma (fneg xi) hi (ffma xr hr a) :: ffma xi hr (ffma xr hi b) :: macPairs acc x h
  | acc, _, _ => acc
def mac (acc x h : List F32) : List F32 :=
  match acc, x, h with
  | a :: b :: acc, x0 :: x1 :: x, h0 :: h1 :: h => ffma x0 h0 a :: ffma x1 h1 b :: macPairs acc x h
  | acc, _, _ => acc

def segN (s : Nat) : Nat := 2 * segB s
/-- log2 of the transform length. -/
def segK (s : Nat) : Nat := if s = 1 then 5 else if s = 2 then 9 else 12

/-- y_s[n] from the transforms Z (R118). -/
def overlapSum (z : Int → List F32) (s n : Nat) : F32 :=
  let r : Int := (n : Int) - segOff s
  let p := r / segB s
  let j := (r % segB s).toNat
  fadd ((z p).getD j 0) ((z (p - 1)).getD (segB s + j) 0)

/-- y0 and the sum of segments at sample n (R118). `h` is segment 0, `ys` gives y_s[n]. -/
def convSum (h : List F32) (x : Int → F32) (len : Nat) (ys : Nat → Nat → F32) (n : Nat) : F32 :=
  let y0 := ((List.range 16).zip h).foldl (fun y e => ffma e.2 (x ((n : Int) - e.1)) y) 0
  [1, 2, 3].foldl (fun y s => if 0 < segP len s then fadd y (ys s n) else y) y0

/-! ### Banks -/

/-- Bank b (0 A, 1 B) of feed f, as established and as written. -/
def bankOff (f b : Nat) : Nat := Off.RCF_F_LEN_A f + 12 * b
def Dev.bankLen (d : Dev) (f b : Nat) : Nat := lenUsed (d.re (bankOff f b)).toNat
def Dev.bankNear (d : Dev) (f b : Nat) : Nat := (d.re (bankOff f b + 4)).toNat
def Dev.bankFar (d : Dev) (f b : Nat) : Nat := (d.re (bankOff f b + 8)).toNat
def Dev.bankLenW (d : Dev) (f b : Nat) : Nat := lenUsed (d.rd (bankOff f b)).toNat
def Dev.bankNearW (d : Dev) (f b : Nat) : Nat := (d.rd (bankOff f b + 4)).toNat
def Dev.bankFarW (d : Dev) (f b : Nat) : Nat := (d.rd (bankOff f b + 8)).toNat
def Dev.activeBank (d : Dev) (f : Nat) : Nat := d.fld (Off.RCF_F_CTL f) 29 29
def Dev.xlen (d : Dev) (f : Nat) : Nat := lenUsed (d.efld (Off.RCF_F_CTL f) 15 0)
def Dev.bankFade (d : Dev) (f : Nat) : Nat × Nat := mget (fun _ => (0, 0)) d.conv.fade f

/-- HRIR set h: capacity as used (R125). -/
def capUsed (v : Nat) : Nat := min (v / 16 * 16) 1024
def Dev.hrirCap (d : Dev) (h : Nat) : Nat := capUsed (d.re (Off.RCF_H_CAP h)).toNat
def Dev.hrirCapW (d : Dev) (h : Nat) : Nat := capUsed (d.rd (Off.RCF_H_CAP h)).toNat

def filterStore : Nat := 0x1800000

/-- `n` words of the filter store from unit u, and of SDRAM from granule g. -/
def Dev.storeWords (d : Dev) (u n : Nat) : List F32 := (List.range n).map (fun i => d.tef (filterStore + 64 * u + 4 * i))
def Dev.sdramWords (d : Dev) (g n : Nat) : List F32 :=
  (List.range n).map (fun i => d.sdWord (128 * g + 4 * i))

/-- H_s[k] of a filter with its near part at `near` and its far part at `far` (R112, R113). -/
def Dev.filterPart (d : Dev) (near far len s k : Nat) : List F32 :=
  if s = 1 then d.storeWords (near + 1 + 2 * k) 32
  else if s = 2 then d.sdramWords (far + 16 * k) 512
  else d.sdramWords (far + 16 * segP len 2 + 128 * k) 4096

/-- Parts outside the ranges of R113. -/
def Dev.partsBad (d : Dev) (near units far granules : Nat) : Bool :=
  decide (32768 < near + units) || (decide (0 < granules) && decide (d.stagingBase < (far + granules) * 128))
def Dev.bankBad (d : Dev) (f b : Nat) : Bool :=
  let len := d.bankLen f b
  d.partsBad (d.bankNear f b) (nearUnits len) (d.bankFar f b) (farGranules len)

/-- The banks that compute in capture tick t: the active one and, while a crossfade runs, the one it replaces (R122). -/
def Dev.banksAt (d : Dev) (f t : Nat) : List Nat :=
  let a := d.activeBank f
  let x := d.bankFade f
  if x.2 ≠ 0 ∧ t < x.1 + x.2 then [a, 1 - a] else [a]

/-! ### Spectra, sums and transforms (R117 to R119) -/

def Dev.convIn (d : Dev) (f : Nat) (n : Int) : F32 :=
  if n < mget (fun _ => 0) d.conv.xFrom f then 0 else d.sgetI (Sig.bass f) n

def xKey (f s : Nat) : Nat := 4 * f + s
def aKey (f s b : Nat) : Nat := 2 * (4 * f + s) + b

/-- The granules of an input history (R114). -/
def histGranules (xlen : Nat) : Nat := (segP xlen 2 + 1) * 16 + (segP xlen 3 + 1) * 128
/-- Spectra at granule g of SDRAM, which a history wholly outside the staging area and within populated SDRAM holds. -/
def Dev.putWords (d : Dev) (ok : Bool) (g : Nat) (v : List F32) : Dev :=
  if ok then d.sdWrite (128 * g) (v.map (fun w => leBytes 4 w.toNat)).flatten else d
def Dev.granulesOk (d : Dev) (g n : Nat) : Bool := decide ((g + n) * 128 ≤ d.stagingBase)

/-- The granule of X_m of segment 2 or 3 in a feed's history: slot m mod (P + 1) of its segment (R114, log entry 71). -/
def Dev.specGranule (d : Dev) (f s m : Nat) : Nat :=
  let xl := d.xlen f
  let base := (d.re (Off.RCF_F_XHIST f)).toNat
  if s = 2 then base + 16 * (m % (segP xl 2 + 1)) else base + (segP xl 2 + 1) * 16 + 128 * (m % (segP xl 3 + 1))
def Dev.feedHistOk (d : Dev) (f : Nat) : Bool := d.granulesOk (d.re (Off.RCF_F_XHIST f)).toNat (histGranules (d.xlen f))

/-- X_m of a segment; nothing, read as 0.0, where it has not been formed. -/
def Dev.spectrum (d : Dev) (f s : Nat) (m : Int) : List F32 :=
  if m < 0 then []
  else
    let v := mget (fun _ => []) (mget (fun _ => []) d.conv.x (xKey f s)) m.toNat
    if s ≠ 1 ∧ v = [fone] then (if d.feedHistOk f then d.sdramWords (d.specGranule f s m.toNat) (segN s) else []) else v
/-- The slots of an input history's segment (R114). -/
def Dev.histSlots (d : Dev) (f s : Nat) : Nat := segP (d.xlen f) s + 1
/-- The spectrum whose slot X_m is to take is kept: a sum of R118 may still be in need of it. -/
def Dev.keepSpectrum (d : Dev) (f s m : Nat) (xs : NMap (List F32)) : NMap (List F32) :=
  let o := m - d.histSlots f s
  if s = 1 ∨ m < d.histSlots f s ∨ mget (fun _ => []) xs o ≠ [fone] then xs else mset (fun _ => []) xs o (d.spectrum f s o)
def Dev.setSpectrum (d : Dev) (f s m : Nat) (v : List F32) : Dev :=
  let k := xKey f s
  let old := d.keepSpectrum f s m (mkeep (fun i => decide (m < i + 20)) (mget (fun _ => []) d.conv.x k))
  let d := if s = 1 then d else d.putWords (d.feedHistOk f) (d.specGranule f s m) v
  { d with conv := { d.conv with x := mset (fun _ => []) d.conv.x k (mset (fun _ => []) old m (if s = 1 then v else [fone])) } }
def Dev.nextBlock (d : Dev) (f s : Nat) : Nat := mget (fun _ => 0) d.conv.xNext (xKey f s)
def Dev.setNextBlock (d : Dev) (f s m : Nat) : Dev :=
  { d with conv := { d.conv with xNext := mset (fun _ => 0) d.conv.xNext (xKey f s) m } }
def Dev.accAt (d : Dev) (f s b p : Nat) : ConvAcc :=
  mget (fun _ => ConvAcc.init) (mget (fun _ => []) d.conv.acc (aKey f s b)) p
def Dev.setAcc (d : Dev) (f s b p : Nat) (a : ConvAcc) : Dev :=
  let k := aKey f s b
  { d with conv := { d.conv with
      acc := mset (fun _ => []) d.conv.acc k (mset (fun _ => ConvAcc.init) (mget (fun _ => []) d.conv.acc k) p a) } }

/-- One FFT_FWD item: the spectra of every complete input block not yet formed (R117). -/
def Dev.fftFwdItem (d : Dev) (f s t : Nat) : Dev :=
  let b := segB s
  let total := (t + 1) * d.L / b
  let from_ := max (d.nextBlock f s) (total - 18)
  let d := forN (total - from_) (fun i d =>
    let m := from_ + i
    d.setSpectrum f s m (rfftPack (segK s) ((List.range b).map (fun j => d.convIn f (m * b + j : Nat))))) d
  d.setNextBlock f s (max total (d.nextBlock f s))

/-- The first sample index this feed's engine can have seen. -/
def Dev.convStart (d : Dev) (f : Nat) : Nat :=
  max (mget (fun _ => 0) d.conv.xFrom f) (match d.pipe.from_ with | some c => c * d.L | none => 0)
/-- X_m stands: it has been formed, or its block lies before everything the engine has seen. -/
def Dev.blockReady (d : Dev) (f s : Nat) (m : Int) : Bool :=
  decide (m < d.nextBlock f s) || decide ((m + 1) * segB s ≤ d.convStart f)

/-- The transforms that jobs of capture tick t can work on: from the oldest an output of t needs, to the one a block
beyond the newest spectrum. -/
def Dev.openBlocks (d : Dev) (f s t : Nat) : List Nat :=
  let lo := (t * d.L - segOff s) / segB s - 1
  let hi := max (d.nextBlock f s) (d.convStart f / segB s) + segLag s
  (List.range (hi + 1 - lo)).map (fun i => lo + i)

/-- A sum, begun where it had not been. -/
def Dev.accBegun (d : Dev) (f s b p : Nat) : ConvAcc :=
  let a := d.accAt f s b p
  if a.begun then a else ⟨true, segP (d.bankLen f b) s, zeros (segN s), false, [], []⟩

/-- The terms k of the list added to one sum, in the order given, as far as the sum has come and the spectra stand; and how many of
them had a zero spectrum for want of history (R114). -/
def Dev.macRun (d : Dev) (f s b p : Nat) (ks : List Nat) : ConvAcc × Nat :=
  let len := d.bankLen f b
  ks.foldl (fun (st : ConvAcc × Nat) (k : Nat) =>
    let m : Int := (p : Int) - (segLag s : Int) - (k : Int)
    if st.1.rem = k + 1 ∧ d.blockReady f s m = true then
      if s ≠ 1 ∧ segP (d.xlen f) s ≤ k then
        ({ st.1 with rem := k, acc := mac st.1.acc (zeros (segN s)) (d.filterPart (d.bankNear f b) (d.bankFar f b) len s k) }, st.2 + 1)
      else
        let x := d.spectrum f s m
        ({ st.1 with
            rem := k,
            acc := mac st.1.acc (if x.isEmpty then zeros (segN s) else x)
              (d.filterPart (d.bankNear f b) (d.bankFar f b) len s k) }, st.2)
    else st) (d.accBegun f s b p, 0)

def Dev.macTerms (d : Dev) (f s b p : Nat) (ks : List Nat) : Dev :=
  let r := d.macRun f s b p ks
  (d.setAcc f s b p r.1).bumpN Off.RCF_TRUNC_CNT r.2

/-- Terms that a lost job was to add (R148, log entry 177): the accumulator it was to leave reads 0.0, and later jobs continue it. -/
def Dev.macLost (d : Dev) (f s b p : Nat) (ks : List Nat) : Dev :=
  let r := d.macRun f s b p ks
  if r.1.rem = (d.accBegun f s b p).rem then d else d.setAcc f s b p { r.1 with acc := zeros (segN s) }

/-- One CONV_PART item: terms hi down to lo of every sum they continue (R119), or their loss. -/
def Dev.convPartItem (d : Dev) (f s hi lo t : Nat) (lost : Bool) : Dev :=
  let ks := ((List.range (min hi 15 + 1 - lo)).map (fun i => lo + i)).reverse
  forL (d.banksAt f t) (fun b d =>
    if segP (d.bankLen f b) s = 0 then d
    else forL (d.openBlocks f s t) (fun p d =>
      if (d.accAt f s b p).done then d else if lost then d.macLost f s b p ks else d.macTerms f s b p ks) d) d

/-- A complete sum becomes its output transform and, with the tail of the one before, its output block (R118, R119). -/
def Dev.invert (d : Dev) (f s b p : Nat) : Dev :=
  let a := d.accAt f s b p
  if a.begun ∧ a.rem = 0 ∧ !a.done then
    let z := irfftUnpack (segK s) a.acc
    let before := if p = 0 then [] else (d.accAt f s b (p - 1)).z
    d.setAcc f s b p { a with
      done := true
      acc := []
      z := z
      y := (List.range (segB s)).map (fun j => fadd (z.getD j 0) (before.getD (segB s + j) 0)) }
  else d

/-- One FFT_INV item (R119). -/
def Dev.fftInvItem (d : Dev) (f s t : Nat) : Dev :=
  forL (d.banksAt f t) (fun b d => forL (d.openBlocks f s t) (fun p d => d.invert f s b p) d) d

/-- y_s[n] of a bank; 0.0 where no FFT_INV has formed it. -/
def Dev.segOut (d : Dev) (f b s n : Nat) : F32 :=
  let r := n - segOff s
  if n < segOff s then 0 else (d.accAt f s b (r / segB s)).y.getD (r % segB s) 0

/-- The block of one bank's output for capture tick t (R118, R124). -/
def Dev.bankBlock (d : Dev) (f b t : Nat) : List F32 :=
  let len := d.bankLen f b
  let ns := (List.range d.L).map (fun k => t * d.L + k)
  if len = 0 then ns.map (fun n => d.sget (Sig.bass f) n)
  else if d.bankBad f b then ns.map (fun _ => 0)
  else
    let h := d.storeWords (d.bankNear f b) 16
    ns.map (fun n => convSum h (d.convIn f) len (fun s n => d.segOut f b s n) n)

/-- BANK_INVALID in the first tick a bank or set in use lies outside its ranges; key: kind·2²⁴ + feed or set. -/
def Dev.sayBank (d : Dev) (key : Nat) (bad : Bool) : Dev :=
  let said := d.conv.badSaid.contains key
  if bad && !said then { d with conv := { d.conv with badSaid := key :: d.conv.badSaid } }.raise 0x0603 0 key
  else if !bad && said then { d with conv := { d.conv with badSaid := d.conv.badSaid.filter (fun k => k != key) } }
  else d

/-- The crossfade weights at position i of K·L (R122): w_new, w_old. -/
def swapWeights (i kl : Nat) : F32 × F32 :=
  let a := fmul f90 (fdiv (fofNat (i + 1)) (fofNat kl))
  let sn := sind a
  let cs := cosd a
  (fmul sn sn, fmul cs cs)

/-- The engine's output block of feed f for capture tick t (R118, R122). -/
def Dev.convBlock (d : Dev) (f t : Nat) : List F32 :=
  let a := d.activeBank f
  let new := d.bankBlock f a t
  let x := d.bankFade f
  if x.2 ≠ 0 ∧ t < x.1 + x.2 then
    let old := d.bankBlock f (1 - a) t
    ((List.range d.L).zip (new.zip old)).map (fun e =>
      let w := swapWeights ((t - x.1) * d.L + e.1) (x.2 * d.L)
      ffma w.1 e.2.1 (fmul w.2 e.2.2))
  else new

def fadeVals (fade : Bool) (n : Nat) (vs : List F32) : List F32 :=
  if fade then ((List.range vs.length).zip vs).map (fun e => fmul e.2 (tickW e.1 n)) else vs

/-- One CONV_DIRECT item. -/
def Dev.convDirectItem (d : Dev) (f t : Nat) (fade : Bool) : Dev :=
  let d := forN 2 (fun b d => d.sayBank (b * 2 ^ 24 + f) ((d.banksAt f t).contains b && d.bankBad f b)) d
  d.sputs (Sig.conv f) (t * d.L) (fadeVals fade d.L (d.convBlock f t))

/-- Everything the sums of a bank lack and the spectra allow, at the boundary that brings the bank into use: both banks
share one input history, so a swap waits for nothing (R114, R122). -/
def Dev.convCatchUp (d : Dev) (f b t : Nat) : Dev :=
  forL [1, 2, 3] (fun s d =>
    if segP (d.bankLen f b) s = 0 then d
    else forL (d.openBlocks f s t) (fun p d => (d.macTerms f s b p (List.range 16).reverse).invert f s b p) d) d

/-- A change of XLEN or XHIST established for capture tick c (R114). -/
def Dev.convHistoryChanged (d : Dev) (f c : Nat) : Dev :=
  let d := { d with conv := { d.conv with xFrom := mset (fun _ => 0) d.conv.xFrom f (c * d.L) } }
  forL [1, 2, 3] (fun s d =>
    let k := xKey f s
    let clear := fun (b : Nat) (d : Dev) =>
      let as := mget (fun _ => []) d.conv.acc (aKey f s b)
      let as : NMap ConvAcc := as.map (fun (e : Nat × ConvAcc) =>
        (e.1, { e.2 with
          acc := if e.2.done then [] else zeros (segN s)
          z := []
          y := [] }))
      { d with conv := { d.conv with acc := mset (fun _ => []) d.conv.acc (aKey f s b) as } }
    clear 1 (clear 0 { d with conv := { d.conv with x := mset (fun _ => []) d.conv.x k [] } })) d

/-- What a job of these kinds leaves behind when its results are lost (R148): the spectra, sums and transforms it was to form
read 0.0. -/
def Dev.convLost (d : Dev) (kind f s hi lo t : Nat) : Dev :=
  if kind = 0x21 then d.convPartItem f s hi lo t true
  else if kind = 0x22 then d.setNextBlock f s (max (d.nextBlock f s) ((t + 1) * d.L / segB s))
  else if kind = 0x23 then
    forL (d.banksAt f t) (fun b d => forL (d.openBlocks f s t) (fun p d =>
      let a := d.accAt f s b p
      if a.begun ∧ a.rem = 0 ∧ !a.done then d.setAcc f s b p { a with done := true, acc := [], z := [], y := [] } else d) d) d
  else d

/-! ### Swaps (R122, R123) -/

def Pend.isSwap (f : Nat) : Pend → Bool
  | .swap g _ => f == g
  | _ => false
def Dev.swapAccepted (d : Dev) (f : Nat) : Bool := d.pendW.any (Pend.isSwap f) || d.conv.ldgSwap.contains f

/-- The reason a SWAP write is refused for (R123). -/
def Dev.swapRefusal (d : Dev) (f : Nat) : Option Nat :=
  if d.bit (Off.RCF_F_CTL f) 30 then some 1 else if d.swapAccepted f then some 2 else none

/-- A swap established for capture tick c; `ledger`: carried by a Ledger entry. Its sums are formed once the boundary has established what
was written to the bank before (R124). -/
def Dev.swapEstablish (d : Dev) (f c : Nat) (ledger : Bool) : Dev :=
  let d := if ledger then { d with conv := { d.conv with ldgSwap := d.conv.ldgSwap.erase f } } else d
  if ledger && d.bit (Off.RCF_F_CTL f) 30 then d.raise 0x0602 0 (2 ^ 24 + f)
  else
    let new := 1 - d.activeBank f
    let k := d.efld (Off.RCF_F_CTL f) 21 16 + 1
    let d := d.setFldBoth (Off.RCF_F_CTL f) 30 29 (2 + new)
    let d := { d with conv := { d.conv with
      fade := mset (fun _ => (0, 0)) d.conv.fade f (c, k)
      begun := d.conv.begun ++ [(f, c)] } }
    forL [1, 2, 3] (fun s d =>
      { d with conv := { d.conv with acc := mset (fun _ => []) d.conv.acc (aKey f s new) [] } }) d

/-- After step 5 of R9: the sums of every bank that the boundary brought into use. -/
def Dev.swapsBegin (d : Dev) : Dev :=
  forL d.conv.begun (fun e d => d.convCatchUp e.1 (d.activeBank e.1) e.2) { d with conv := { d.conv with begun := [] } }

/-- The end of a crossfade, at boundary A + K + 1 (R122, R124). -/
def Dev.swapEnd (d : Dev) (f : Nat) : Dev :=
  let x := d.bankFade f
  if x.2 ≠ 0 ∧ x.1 + x.2 + 1 ≤ d.clk.tick then
    { d with conv := { d.conv with fade := mset (fun _ => (0, 0)) d.conv.fade f (0, 0) } }.setFldBoth (Off.RCF_F_CTL f) 30 30 0
  else d

/-! ### Protection (R124, R125) -/

/-- R124 protects only while rendering or closing. -/
def Dev.protecting (d : Dev) : Bool := d.rendering || d.pipe.closure.isSome

def Dev.bankProtected (d : Dev) (f b : Nat) : Bool :=
  let x := d.bankFade f
  d.protecting && (d.activeBank f == b || d.swapAccepted f || (x.2 != 0 && decide (d.clk.tick < x.1 + x.2 + 1)))
def Dev.hrirProtected (d : Dev) (h : Nat) : Bool :=
  d.protecting && (List.range 16).any (fun l => decide (d.lKind l = 3) && d.te16 (layBase l + 0x88) == h)

def meets (a n b m : Nat) : Bool := decide (a < b + m) && decide (b < a + n) && decide (0 < n) && decide (0 < m)

/-- The protected bank or set whose near part or far part meets the granules or bytes given: its event parameter. -/
def Dev.rcfOwner (d : Dev) (hit : (near units far granules : Nat) → Bool) : Option Nat :=
  match (List.range 1024).find? (fun i =>
      let f := i / 2
      let b := i % 2
      let len := d.bankLenW f b
      decide (16 ≤ len) && hit (d.bankNearW f b) (nearUnits len) (d.bankFarW f b) (farGranules len) && d.bankProtected f b) with
  | some i => some (i % 2 * 2 ^ 24 + i / 2)
  | none =>
    ((List.range 16).find? (fun h =>
      let cap := d.hrirCapW h
      decide (16 ≤ cap) && hit (d.rd (Off.RCF_H_NEAR h)).toNat (64 * nearUnits cap) (d.rd (Off.RCF_H_FAR h)).toNat (64 * 16 * segP cap 2) &&
        d.hrirProtected h)).map (fun h => 2 * 2 ^ 24 + h)

/-- A write that R124 refuses, by BAR0 offset: the parameter of its event. -/
def Dev.rcfGuard (d : Dev) (off n : Nat) : Option Nat :=
  if 0x0A1000 ≤ off ∧ off < 0x0A5000 then
    let f := (off - 0x0A1000) / 0x20
    let r := (off - 0x0A1000) % 0x20
    if 4 ≤ r ∧ r < 0x10 then (if d.bankProtected f 0 then some f else none)
    else if 0x10 ≤ r ∧ r < 0x1C then (if d.bankProtected f 1 then some (2 ^ 24 + f) else none)
    else none
  else if 0x0A5000 ≤ off ∧ off < 0x0A5100 ∧ (off - 0x0A5000) % 16 < 12 then
    let h := (off - 0x0A5000) / 16
    if d.hrirProtected h then some (2 * 2 ^ 24 + h) else none
  else if filterStore ≤ off ∧ off < 0x1A00000 ∧ d.protecting = true then
    d.rcfOwner (fun near units _ _ => meets (off - filterStore) n (64 * near) (64 * units))
  else none

/-- The same for a write to SDRAM by byte address. -/
def Dev.rcfGuardSdram (d : Dev) (addr n : Nat) : Option Nat :=
  if d.protecting then d.rcfOwner (fun _ _ far granules => meets addr n (128 * far) (128 * granules)) else none

/-- The refusal itself (R124). -/
def Dev.rcfRefuse (d : Dev) (param : Nat) : Dev := (d.raise 0x0601 0 param).bump Off.RCF_REFUSE_CNT

/-! ### Head outputs (R94, R125) -/

/-- HRIR_LEN as used (R91). -/
def Dev.hrirLen (d : Dev) (l : Nat) : Nat := max 16 (min 1024 (d.te16 (layBase l + 0x8A) / 16 * 16))

/-- The granule of X_m in the history of a virtual-speaker bus: slot m mod 4 of its 64 granules (R125, log entry 71). -/
def Dev.headGranule (d : Dev) (h m : Nat) : Nat := (d.re (Off.RCF_T_XHIST (h / 32))).toNat + 64 * (h % 32) + 16 * (m % 4)
def Dev.headHistOk (d : Dev) (h : Nat) : Bool := d.granulesOk ((d.re (Off.RCF_T_XHIST (h / 32))).toNat + 64 * (h % 32)) 64

/-- The blocks of a virtual-speaker bus before this one are past. -/
def Dev.headPast (d : Dev) (h m : Nat) : Dev :=
  { d with conv := { d.conv with hNext := mset (fun _ => 0) d.conv.hNext h (max m (mget (fun _ => 0) d.conv.hNext h)) } }

/-- The spectra of every complete block of a virtual-speaker bus not yet formed, into its history. -/
def Dev.headForm (d : Dev) (h t : Nat) : Dev :=
  let total := (t + 1) * d.L / 256
  let from_ := max (mget (fun _ => 0) d.conv.hNext h) (total - 4)
  let d := forN (total - from_) (fun i d =>
    let m := from_ + i
    let v := rfftPack 9 ((List.range 256).map (fun j => d.sget (Sig.feedBus (0x400 + h)) (m * 256 + j)))
    let hx := mget (fun _ => []) d.conv.hx h
    let old := if 4 ≤ m ∧ hx.contains (m - 4) = true ∧ d.headHistOk h = true then (m - 4, d.sdramWords (d.headGranule h m) 512) else (0, [])
    let d := d.putWords (d.headHistOk h) (d.headGranule h m) v
    { d with conv := { d.conv with
      hx := mset (fun _ => []) d.conv.hx h (m :: (hx.filter (fun i => decide (m < i + 4))))
      hOld := mset (fun _ => (0, [])) d.conv.hOld h old } }) d
  d.headPast h total

/-- The spectra that a lost HEAD_CONV item was to form for a virtual-speaker bus: they read 0.0 (R148). -/
def Dev.headLost (d : Dev) (h t : Nat) : Dev := d.headPast h ((t + 1) * d.L / 256)

/-- X_m of a virtual-speaker bus: segment 1 on the die, segment 2 from its history. -/
def Dev.headSpectrum (d : Dev) (h s : Nat) (m : Int) : List F32 :=
  if s = 1 then rfftPack 5 ((List.range 16).map (fun (j : Nat) => d.sgetI (Sig.feedBus (0x400 + h)) (m * 16 + (j : Int))))
  else if 0 ≤ m ∧ (mget (fun _ => []) d.conv.hx h).contains m.toNat = true ∧ d.headHistOk h = true then
    d.sdramWords (d.headGranule h m.toNat) 512
  else
    let o := mget (fun _ => (0, [])) d.conv.hOld h
    if 0 ≤ m ∧ o.1 = m.toNat ∧ !o.2.isEmpty then o.2 else zeros 512

/-- The convolution of virtual-speaker bus h with one stored filter, segments 0 to 2, over capture tick t (R118). -/
def Dev.earBlock (d : Dev) (h near far len cap t : Nat) : List F32 :=
  let sig := Sig.feedBus (0x400 + h)
  let x := fun (n : Int) => d.sgetI sig n
  let zs := [1, 2].map (fun s =>
    let b := segB s
    let lo : Int := ((t * d.L : Nat) - (segOff s : Int)) / b - 1
    let hi : Int := (((t + 1) * d.L - 1 : Nat) - (segOff s : Int)) / b
    (List.range (hi + 1 - lo).toNat).map (fun (i : Nat) =>
      let p : Int := lo + (i : Int)
      (p, irfftUnpack (segK s) ((List.range (segP len s)).reverse.foldl (fun (acc : List F32) (k : Nat) =>
        let m : Int := p - (segLag s : Int) - (k : Int)
        mac acc (d.headSpectrum h s m) (d.filterPart near far cap s k)) (zeros (segN s))))))
  let z := fun (s : Nat) (p : Int) => (((zs.getD (s - 1) []).find? (fun e => e.1 == p)).map (fun e => e.2)).getD []
  let h0 := if len < 16 then [] else d.storeWords near 16
  (List.range d.L).map (fun k => convSum h0 x len (fun s n => overlapSum (z s) s n) (t * d.L + k))

/-- BANK_INVALID of a Head target whose layout, or HRIR set, is a new bad one in this tick (R124, R125). -/
def Dev.sayHead (d : Dev) (i : Nat) (bad : Option (Nat × Nat)) : Dev :=
  let mine := fun (k : Nat) => k / 2 ^ 40 == i + 1
  let d' := { d with conv := { d.conv with badSaid := d.conv.badSaid.filter (fun k => !mine k) } }
  match bad with
  | none => d'
  | some (l, set) =>
    let param := 2 * 2 ^ 24 + set
    let key := (i + 1) * 2 ^ 40 + l * 2 ^ 32 + param
    let said := d.conv.badSaid.contains key
    let d' := { d' with conv := { d'.conv with badSaid := key :: d'.conv.badSaid } }
    if said then d' else d'.raise 0x0603 0 param

/-- One HEAD_CONV item: Head target i (R94, R125). -/
def Dev.headConvItem (d : Dev) (i t : Nat) (fade : Bool) : Dev :=
  match d.headLayout i with
  | none => d.sayHead i none
  | some l =>
    let set := d.te16 (layBase l + 0x88)
    let cap := d.hrirCap set
    let len := min (d.hrirLen l) cap
    let nu := nearUnits cap
    let fg := 16 * segP cap 2
    let near := (d.re (Off.RCF_H_NEAR set)).toNat
    let far := (d.re (Off.RCF_H_FAR set)).toNat
    let bad := decide (16 ≤ set) || d.partsBad near (64 * nu) far (64 * fg)
    let d := d.sayHead i (if bad then some (l, set) else none)
    let d := forN (d.lSpk l) (fun s d => if d.sFeed l s < 32 then d.headForm (32 * i + d.sFeed l s) t else d) d
    let ear := fun (e : Nat) =>
      if bad then zeros d.L
      else (List.range (d.lSpk l)).foldl (fun (acc : List F32) s =>
        let b := d.sFeed l s
        if 32 ≤ b then acc
        else
          let j := 2 * b + e
          (acc.zip (d.earBlock (32 * i + b) (near + j * nu) (far + j * fg) len cap t)).map (fun p => fadd p.1 p.2)) (zeros d.L)
    let put := fun (off e : Nat) (d : Dev) =>
      let f := d.te16 (layBase l + off)
      if f < 512 then d.sputs (Sig.feedBus f) (t * d.L) (fadeVals fade d.L (ear e)) else d
    put 0x86 1 (put 0x84 0 d)

/-! ### Figures at a boundary (RCF_STAT, RCF_POOL, RCF_NEAR_USED) -/


/-- Taps counted against the pool, and near units, from a reading of lengths (R109, R113). -/
def Dev.rcfFigures (d : Dev) : Dev :=
  let d := d.wrN Off.RCF_STAT (countN 512 (fun f => d.bit (Off.RCF_F_CTL f) 30))
  let d := d.wrN Off.RCF_POOL (sumN 512 (fun f => d.bankLen f 0 + d.bankLen f 1))
  d.wrN Off.RCF_NEAR_USED (min 32768 (sumN 512 (fun f => nearUnits (d.bankLen f 0) + nearUnits (d.bankLen f 1)) +
    sumN 16 (fun h => 64 * nearUnits (d.hrirCap h))))

end Sys2Proof.Machine
end

