-- ==== Sys2Proof/Machine/Listening.lean ====
section
/-! DEFINITION. The Listening Post (file 14): decimation, synchronisation, compensation banks, levels and estimators. -/

namespace Sys2Proof.Machine

def Dev.lpCh (d : Dev) (c : Nat) : LpCh := mget (fun _ => LpCh.init) d.lpo.ch c
def Dev.setLpCh (d : Dev) (c : Nat) (x : LpCh) : Dev :=
  { d with lpo := { d.lpo with ch := mset (fun _ => LpCh.init) d.lpo.ch c x } }
def lpEn (ctl : Word) : Bool := ctl.getLsbD 31
def lpOn (ctl : Word) (c : Nat) : Bool := ctl.getLsbD 31 && ctl.getLsbD c
/-- CIC order N of LPO_CTL. -/
def cicOrder (ctl : Word) : Nat := let v := getBits ctl 29 28; if v = 0 then 3 else if v = 2 then 5 else 4

/-! ### Coefficients (R228) -/

/-- c[i] of a half-band stage whose window has half-length h: 14 for HB1, 30 for HB2; i = 0 reads 0.5. -/
def lpCoef (h i : Nat) : F32 :=
  if i = 0 then fhalf
  else
    let n := 2 * i - 1
    let w : Int := 42 * 2 ^ 600 / 100 + cosQ (n * 180 : Nat) h / 2 + 8 * cosQ (n * 360 : Nat) h / 100
    let v := w * 2 ^ 600 / ((piFix * n : Nat) : Int)
    roundFix (if i % 2 = 1 then v else -v)

/-! ### The chain (R227) -/

/-- The integrators after one PDM bit. -/
def integrate (n : Nat) (a : List Word) (b : Bool) : List Word :=
  ((List.range a.length).zip a).foldl (fun (acc : List Word) (e : Nat × Word) =>
    if n ≤ e.1 then acc ++ [e.2]
    else acc ++ [e.2 + (match acc.getLast? with | some v => v | none => if b then 1 else -1)]) []
/-- One output of the combs: the new comb states and v. -/
def combs (n : Nat) (z : List Word) (v : Word) : List Word × Word :=
  ((List.range z.length).zip z).foldl (fun (st : List Word × Word) (e : Nat × Word) =>
    if n ≤ e.1 then (st.1 ++ [e.2], st.2) else (st.1 ++ [st.2], st.2 - e.2)) ([], v)

/-- A half-band decimator's output m, reading input from index `from_` on (R227). -/
def hbOut (x : Int → F32) (h p m : Nat) : F32 :=
  let b : Int := 2 * (m : Int) - 2 * (p : Int)
  let v := ((List.range p).map (fun k => p - k)).foldl (fun v (i : Nat) =>
    ffma (lpCoef h i) (fadd (x (b + 2 - 2 * (i : Int))) (x (b + 2 * (i : Int)))) v) 0
  ffma fhalf (x (b + 1)) v

/-- PDM bits of one channel from PDM sample p on: integrators, combs and CIC outputs. -/
def Dev.cicRun (d : Dev) (c n p : Nat) (bits : List Bool) : Dev :=
  forL ((List.range bits.length).zip bits) (fun (e : Nat × Bool) d =>
    let x := d.lpCh c
    let a := integrate n x.a e.2
    let q := p + e.1
    if q % 16 = 0 then
      let r := combs n x.z (a.getD (n - 1) 0)
      (d.setLpCh c { x with a := a, z := r.1 }).sput (Sig.cic c) (q / 16) (roundInt false r.2.toInt (-(4 * n : Nat)))
    else d.setLpCh c { x with a := a }) d

/-- A synchronisation takes place at M instant j0: every state of the channel is zero, and those after it still stand (R230, R232,
R233). -/
def Dev.lpZero (d : Dev) (c j0 : Nat) : Dev :=
  let x := d.lpCh c
  (d.setLpCh c { LpCh.init with
    from_ := j0
    fade := x.fade
    sync := x.sync.filter (fun j => decide (j0 < j)) }).setBit (Off.LPO_CH_CTL c) 27 false

/-- One bank's compensation output j (R227). -/
def Dev.lpFir (d : Dev) (c bank j from_ : Nat) : F32 :=
  (List.range 33).foldl (fun (y : F32) (i : Nat) =>
    let m : Int := (j : Int) - (i : Int)
    ffma (d.re (if bank = 0 then Off.LPO_CH_TAP_A c i else Off.LPO_CH_TAP_B c i))
      (if m < from_ then 0 else d.sgetI (Sig.hb2 c) m) y) 0

/-- lp[j] before settling (R227, R231). -/
def Dev.lpOut (d : Dev) (c j from_ : Nat) : F32 :=
  let a := d.fld (Off.LPO_CH_CTL c) 29 29
  let x := (d.lpCh c).fade
  let i := j - 16 * x.1
  let y := if x.2 ≠ 0 ∧ 16 * x.1 ≤ j ∧ i < 16 * x.2 then
      let w := swapWeights i (16 * x.2)
      ffma w.1 (d.lpFir c a j from_) (fmul w.2 (d.lpFir c (1 - a) j from_))
    else d.lpFir c a j from_
  if d.ebit (Off.LPO_CH_CTL c) 28 then fneg y else y

/-- The tick that fades a channel in (R230). -/
def fadeTick (j0 : Nat) : Nat := (j0 + 96 + 15) / 16

/-- M outputs j, up to `n` of them, once the CIC outputs they need are formed: the half-band stages, the compensation FIR and the
fade-in (R227, R230). -/
def Dev.lpForm (d : Dev) (c j n : Nat) : Dev :=
  let j0 := (d.lpCh c).from_
  let src := fun (sig scale : Nat) (d : Dev) (i : Int) => if i < (scale * j0 : Nat) then 0 else d.sgetI sig i
  let d := forN (2 * n) (fun i d => d.sput (Sig.hb1 c) (2 * j + i) (hbOut (src (Sig.cic c) 4 d) 14 7 (2 * j + i))) d
  let d := forN n (fun i d => d.sput (Sig.hb2 c) (j + i) (hbOut (src (Sig.hb1 c) 2 d) 30 15 (j + i))) d
  let lps := (List.range n).map (fun i =>
    let v := d.lpOut c (j + i) j0
    let t := (j + i) / 16
    if t < fadeTick j0 then 0 else if t = fadeTick j0 then fmul v (tickW ((j + i) % 16) 16) else v)
  let d := d.sputs (Sig.lpM c) j lps
  if d.div.rate96 then d else d.sputs (Sig.lpIn c) j lps

/-- PDM bits from the edge of M instant j on, and the M outputs of their instants. -/
def Dev.lpRun (d : Dev) (c order j : Nat) (bits : List Bool) : Dev := (d.cicRun c order (64 * j) bits).lpForm c j (bits.length / 64)

/-- The bits from the edge of M instant j on, with the synchronisations that fall among their instants, in order. -/
def Dev.lpRuns (c order : Nat) : List Nat → Nat → List Bool → Dev → Dev
  | [], j, bits, d => d.lpRun c order j bits
  | j0 :: js, j, bits, d =>
    let k := j0 - j
    Dev.lpRuns c order js (j + k) (bits.drop (64 * k)) ((d.lpRun c order j (bits.take (64 * k))).lpZero c j0)

/-- One channel through capture tick t, with the bits of the tick (R226 to R230): each synchronisation within it leaves the outputs before
its instant. -/
def Dev.lpTick (d : Dev) (c order t : Nat) (bits : List Bool) : Dev :=
  d.lpRuns c order ((d.lpCh c).sync.filter (fun j => decide (j < 16 * (t + 1)))) (16 * t)
    ((List.range 1024).map (fun i => bits.getD i false))

/-- The bits of channel c: even channels take their ball's level at the rising edges, odd ones at the falling edges (R226). -/
def lpBits (pdm : PdmBits) (c : Nat) : List Bool :=
  match pdm.find? (fun e => e.1 == c / 2) with
  | some e => e.2.map (fun (b : Bool × Bool) => if c % 2 = 0 then b.1 else b.2)
  | none => []

/-! ### Levels (R232, R233) -/

def thrOne (v : F32) : F32 := if isFin v && flt 0 v then v else fone

/-- The level of one channel over capture tick t, with thresholds from `old`; ms begins at the last synchronisation (R232, R233). -/
def Dev.lpLevel (d old : Dev) (c t : Nat) : Dev :=
  let x := d.lpCh c
  let lps := (List.range 16).map (fun k => d.sget (Sig.lpM c) (16 * t + k))
  let lvl := old.re (Off.LPO_CH_LVL c)
  let tau := max 1 (min 10000 (getBits lvl 29 16))
  let a := roundFix (expNegFix 1 (tau * 48))
  let pk := lps.foldl (fun m v => fmaxv m (fabs v)) 0
  let ms := (lps.drop (x.from_ - 16 * t)).foldl (fun ms v => let x2 := fmul v v; ffma a (fsub ms x2) x2) x.ms
  let x := { x with pks := (pk :: x.pks).take 256, ms := ms }
  let d := d.setLpCh c x
  let level := if lvl.getLsbD 31 then fsqrt ms else (x.pks.take (getBits lvl 7 0 + 1)).foldl fmaxv 0
  let d := d.wr (Off.LPO_CH_LEVEL c) level
  let high := thrOne (old.re (Off.LPO_CH_HIGH c))
  let clear := thrOne (old.re (Off.LPO_CH_CLEAR c))
  let clear := if fle high clear then high else clear
  let par := level.toNat / 65536 * 65536 + c
  if d.bit (Off.LPO_CH_CTL c) 27 then
    if fle level clear then (d.setBit (Off.LPO_CH_CTL c) 27 false).raise 0x0B02 0 par else d
  else if fle high level then (d.setBit (Off.LPO_CH_CTL c) 27 true).raise 0x0B01 0 par
  else d

/-! ### Synchronisation (R230) -/

/-- M instant j0 joins the synchronisations a channel has before it. -/
def LpCh.await (x : LpCh) (j0 : Nat) : LpCh := { x with sync := x.sync.filter (fun j => decide (j < j0)) ++ [j0] }
/-- Every channel synchronises at M instant j0. What calls for the same instant twice, as a GO and the rising edge of the pulse it drives,
makes one synchronisation (R376; DEDUCED, log 203). -/
def Dev.lpSync (d : Dev) (j0 : Nat) : Dev :=
  if (List.range 16).all (fun c => (d.lpCh c).sync.contains j0) then d
  else
    let d := forN 16 (fun c d => d.setLpCh c ((d.lpCh c).await j0)) d
    let d := d.setFld Off.LPO_STAT 15 0 (d.fld Off.LPO_STAT 15 0 + 1)
    d.setBit Off.LPO_STAT 31 true
/-- Has a synchronisation of channel c passed in the tick being captured? Its ON reads 0 (R233). -/
def Dev.lpSynced (d : Dev) (c : Nat) : Bool := (d.lpCh c).sync.any (fun j => decide (j ≤ d.nowIndex 48000))
/-- The next M instant after now. -/
def Dev.nextM (d : Dev) : Nat := d.nowIndex 48000 + 1

/-- DEC_SYNC_EDGE. -/
def Dev.decSync (d : Dev) : Dev := if d.bit Off.LPO_SYNC 30 then d.lpSync d.nextM else d
/-- LPO_SYNC_GO: pin 1 is DEC_SYNC, low for 1 µs. -/
def Dev.syncGo (d : Dev) : Dev :=
  let d := d.lpSync d.nextM
  if d.ebit Off.LPO_CTL 30 then d.emit (.pulse 1 1000) else d

/-- A channel still settling at the present M index; before the first boundary of valid time every channel is. -/
def Dev.settling (d : Dev) (c : Nat) : Bool :=
  lpOn (d.re Off.LPO_CTL) c && (!d.clk.started ||
    decide (d.nowIndex 48000 < (d.lpCh c).sync.getLastD (d.lpCh c).from_ + 96))
/-- SETTLING_END: the status clears once no channel settles. -/
def Dev.settleEnd (d : Dev) (c : Nat) : Dev :=
  if d.settling c then d else d.setBit Off.LPO_STAT 31 ((List.range 16).any d.settling)

/-! ### Banks (R231) -/

def Pend.isLpoSwap (c : Nat) : Pend → Bool
  | .lpoSwap e _ => c == e
  | _ => false
/-- Is a write of 1 to LPO_CH_CTL.SWAP refused (R123, R231)? -/
def Dev.lpoSwapRefused (d : Dev) (c : Nat) : Bool := d.bit (Off.LPO_CH_CTL c) 30 || d.pendW.any (Pend.isLpoSwap c)
/-- A swap established for capture tick t. -/
def Dev.lpoSwapEstablish (d : Dev) (c t : Nat) : Dev :=
  let new := 1 - d.fld (Off.LPO_CH_CTL c) 29 29
  let k := d.efld (Off.LPO_CH_CTL c) 21 16 + 1
  (d.setLpCh c { d.lpCh c with fade := (t, k) }).setFldBoth (Off.LPO_CH_CTL c) 30 29 (2 + new)
/-- LPO_SWAP_END. -/
def Dev.lpoSwapEnd (d : Dev) (c : Nat) : Dev :=
  let x := (d.lpCh c).fade
  if x.2 ≠ 0 ∧ x.1 + x.2 + 1 ≤ d.clk.tick then
    (d.setLpCh c { d.lpCh c with fade := (0, 0) }).setFldBoth (Off.LPO_CH_CTL c) 30 30 0
  else d
/-- Is the bank a tap register belongs to protected (R231)? Answers the channel. -/
def Dev.lpoGuard (d : Dev) (off : Nat) : Option Nat :=
  if off < 0x0E1000 ∨ 0x0E3000 ≤ off then none
  else
    let c := (off - 0x0E1000) / 0x200
    let r := (off - 0x0E1000) % 0x200
    let bank := if 0x40 ≤ r ∧ r < 0xC4 then some 0 else if 0x100 ≤ r ∧ r < 0x184 then some 1 else none
    match bank with
    | none => none
    | some b =>
      let x := (d.lpCh c).fade
      if (d.re Off.LPO_CTL).getLsbD c && (d.fld (Off.LPO_CH_CTL c) 29 29 == b || d.pendW.any (Pend.isLpoSwap c) ||
          (x.2 != 0 && decide (d.clk.tick < x.1 + x.2 + 1))) then some c else none
def Dev.lpoRefuse (d : Dev) (c : Nat) : Dev := d.raise 0x0B04 0 (2 * 256 + c)

/-! ### Estimators (R234 to R238) -/

def estArea (d : Dev) (e : Nat) : Nat := ((d.re Off.LPO_MEAS_BASE).toNat + 4096 * e) * 128
/-- The 8 MiB lie in populated SDRAM below the staging area (R237). -/
def Dev.measOk (d : Dev) : Bool := decide (((d.re Off.LPO_MEAS_BASE).toNat + 65536) * 128 ≤ d.stagingBase)
def Dev.estEn (d : Dev) (e : Nat) : Bool := d.ebit (Off.LPO_EST_CFG e) 31
def Dev.putF (d : Dev) (addr : Nat) (v : F32) : Dev := d.sdWrite addr (leBytes 4 v.toNat)
def Dev.getF (d : Dev) (addr : Nat) : F32 := d.sdWord addr
def Dev.putFs (d : Dev) (addr : Nat) (vs : List F32) : Dev :=
  d.sdWrite addr ((vs.map (fun v => leBytes 4 v.toNat)).flatten)
def Dev.getFs (d : Dev) (addr n : Nat) : List F32 := (List.range n).map (fun i => d.getF (addr + 4 * i))

/-- x[j] of R234: the M sample centred on output-plane index j, two ticks after it was formed. -/
def Dev.measX (d : Dev) (ref j : Nat) : F32 :=
  d.sgetI (if d.div.rate96 then Sig.measRef ref else Sig.dest (5 * 65536 + ref)) ((j : Int) - 32)

/-- The y ring of one estimator takes its microphone's samples of capture tick t. -/
def Dev.estMic (d : Dev) (e t : Nat) : Dev :=
  if d.estEn e && d.measOk then
    (d.by 12).sdRing (estArea d e + 0x10000) 16384 (16 * t)
      ((List.range 16).map (fun k => d.sget (Sig.lpM (d.efld (Off.LPO_EST_CFG e) 27 24)) (16 * t + k)))
  else d
/-- The rings of one estimator take the samples of capture tick t (R234). -/
def Dev.estRings (d : Dev) (e t : Nat) : Dev :=
  if d.estEn e && d.measOk then
    ((d.by 12).sdRing (estArea d e) 16384 (16 * t)
      ((List.range 16).map (fun k => d.measX (d.efld (Off.LPO_EST_CFG e) 23 20) (16 * t + k)))).estMic e t
  else d

def hann (n : Nat) : F32 := let s := sind (fdiv (fmul f180 (fofNat n)) 0x46000000); fmul s s

/-- The tables of one bin: Sxx, Syy, Sre, Sim. -/
abbrev Bin := F32 × F32 × F32 × F32

/-- One frame's update of a bin (R235). -/
def binStep (first : Bool) (beta : F32) (s : Bin) (x y : Cx) : Bin :=
  let p : Bin := (ffma x.1 x.1 (fmul x.2 x.2), ffma y.1 y.1 (fmul y.2 y.2), ffma x.1 y.1 (fmul x.2 y.2), ffma x.1 y.2 (fneg (fmul x.2 y.1)))
  let f := fun (s p : F32) => if first then p else ffma beta (fsub p s) s
  (f s.1 p.1, f s.2.1 p.2.1, f s.2.2.1 p.2.2.1, f s.2.2.2 p.2.2.2)
def binH (s : Bin) : Cx := if isZero s.1 then (0, 0) else (fdiv s.2.2.1 s.1, fdiv s.2.2.2 s.1)
def binCoh (s : Bin) : F32 :=
  let p := fmul s.1 s.2.1
  if isZero p then 0 else fminv fone (fdiv (ffma s.2.2.1 s.2.2.1 (fmul s.2.2.2 s.2.2.2)) p)

/-- Bins of a packed spectrum. -/
def packedBins (p : List F32) : List Cx := (p.getD 0 0, 0) :: pairs (p.drop 2)

/-- One MEAS_XSPEC item of compute tick n; `started`: the tick in which the job began (R235, R236, R238). -/
def Dev.measItem (d : Dev) (e n started : Nat) : Dev :=
  if !d.estEn e || !d.measOk then d
  else if n + 128 ≤ started then
    let said := d.lpo.skips.contains e
    let d := d.bump (Off.LPO_EST_SKIP e)
    if said then d else { d with lpo := { d.lpo with skips := e :: d.lpo.skips } }.raise 0x0B05 0 e
  else
    let d := { d with lpo := { d.lpo with skips := d.lpo.skips.filter (fun x => x != e) } }
    let a := estArea d e
    let cfg := d.re (Off.LPO_EST_CFG e)
    let dl := min 4096 (getBits cfg 12 0)
    let beta : F32 := BitVec.ofNat 32 ((127 - getBits cfg 30 28) * 2 ^ 23)
    let reset := d.lpo.reset.contains e
    let frames := if reset then 0 else (d.rd (Off.LPO_EST_FRAMES e)).toNat
    let jf : Int := (16 * n : Nat) - 1
    let at_ := fun (base : Nat) (j : Int) => d.getF (base + 4 * (j % 16384).toNat)
    let xv := (List.range 8192).map (fun (k : Nat) => fmul (hann k) (at_ a (jf - 8191 + (k : Int) - (dl : Int))))
    let yv := (List.range 8192).map (fun (k : Nat) => fmul (hann k) (at_ (a + 0x10000) (jf - 8191 + (k : Int))))
    let xs := packedBins (rfftPack 13 xv)
    let ys := packedBins (rfftPack 13 yv)
    let olds := (List.range 4096).map (fun (m : Nat) =>
      (d.getF (a + 0x20000 + 4 * m), d.getF (a + 0x24000 + 4 * m), d.getF (a + 0x28000 + 8 * m), d.getF (a + 0x28004 + 8 * m)))
    let bins := (olds.zip (xs.zip ys)).map (fun (b : Bin × Cx × Cx) => binStep (frames == 0) beta b.1 b.2.1 b.2.2)
    let d := d.putFs (a + 0x20000) (bins.map (fun b => b.1))
    let d := d.putFs (a + 0x24000) (bins.map (fun b => b.2.1))
    let d := d.putFs (a + 0x28000) ((bins.map (fun b => [b.2.2.1, b.2.2.2])).flatten)
    let hs := bins.map binH
    let d := d.putFs (a + 0x30000) ((hs.map (fun h => [h.1, h.2])).flatten)
    let d := d.putFs (a + 0x38000) (bins.map binCoh)
    let frames := min (frames + 1) (2 ^ 32 - 1)
    let d := (d.wrN (Off.LPO_EST_FRAMES e) frames).putF (a + 0x48004) (BitVec.ofNat 32 frames)
    let d := d.putF (a + 0x48000) (d.getF (a + 0x48000) + 2)
    let d := d.sdWrite (a + 0x48008) (leBytes 8 n)
    let d := if d.lpo.ir.contains e then
        let p := (hs.getD 0 (0, 0)).1 :: 0 :: ((hs.drop 1).map (fun h => [h.1, h.2])).flatten
        (d.putFs (a + 0x40000) (irfftUnpack 13 p)).putF (a + 0x48010) (d.getF (a + 0x48010) + 1)
      else d
    { d with lpo := { d.lpo with reset := d.lpo.reset.filter (fun x => x != e), ir := d.lpo.ir.filter (fun x => x != e) } }

/-- MEAS_RESET and MEAS_IR wait for the estimator's next job (R238). -/
def Dev.measReset (d : Dev) (e : Nat) : Dev := { d with lpo := { d.lpo with reset := (e :: d.lpo.reset).eraseDups } }
def Dev.measIr (d : Dev) (e : Nat) : Dev := { d with lpo := { d.lpo with ir := (e :: d.lpo.ir).eraseDups } }

/-! ### Boundaries -/

/-- What the Listening Post does with the capture tick that boundary t + 1 closes; `old` is the state before the boundary
established anything. A channel that the boundary disables gets no level (R233). -/
def Dev.lpoBoundary (old d : Dev) (t : Nat) (pdm : PdmBits) : Dev :=
  let ctl := old.re Off.LPO_CTL
  let d := if d.clk.valid then
      forN 16 (fun c d =>
        if lpOn ctl c && !d.sharedIn 3 c then
          let d := d.lpTick c (cicOrder ctl) t (lpBits pdm c)
          if lpOn (d.re Off.LPO_CTL) c then d.lpLevel old c t else d
        else d.setLpCh c { d.lpCh c with sync := (d.lpCh c).sync.getLast?.toList }) d
    else d
  forN 16 (fun e d => d.estRings e t) d

/-- The first boundary n of valid local time: PDM_CLK has only begun to run, and what waits to synchronise does so (R226, R230). -/
def Dev.lpoFirst (d : Dev) (n : Nat) : Dev :=
  forN 16 (fun c d => let x := d.lpCh c; d.setLpCh c { x with sync := if x.sync.isEmpty then [] else [16 * n] }) d

/-- LPO_CTL, LPO_EST_CFG and LPO_MEAS_BASE established at boundary n (R230, R233, R237, R238). -/
def Dev.lpoEstablished (d : Dev) (off : Nat) (old new : Word) (n : Nat) : Dev :=
  if off = Off.LPO_CTL then
    let d := if lpEn new then d.free .pdmClk else d
    let d := if lpEn new ∧ !lpEn old ∨ getBits old 29 28 ≠ getBits new 29 28 then d.lpSync (16 * n) else d
    forN 16 (fun c d =>
      if lpEn new ∧ new.getLsbD c = true ∧ old.getLsbD c = false then
        (d.setLpCh c ((d.lpCh c).await (16 * n))).setBit Off.LPO_STAT 31 true
      else if old.getLsbD c = true ∧ new.getLsbD c = false then d.setBit (Off.LPO_CH_CTL c) 27 false
      else d) d
  else if off = Off.LPO_MEAS_BASE then (if d.measOk then d else d.raise 0x0B06 0 0)
  else if 0x0E3000 ≤ off ∧ off < 0x0E3100 ∧ (off - 0x0E3000) % 16 = 0 then
    if new.getLsbD 31 then d.measReset ((off - 0x0E3000) / 16) else d
  else d

end Sys2Proof.Machine
end

