-- ==== Sys2Proof/Machine/Records.lean ====
section
/-! DEFINITION. The records of R26 and R27, as images, Ledger entries and Epoch contents carry them: how a record is cut from
its bytes, the checks of step 5 of R31, and the targets of R39 and R277. -/

namespace Sys2Proof.Machine

/-- One record: its type and its payload with the padding. -/
structure Rec where
  type : Nat
  body : List Byte
  deriving DecidableEq, Repr

/-- What a record body may hold: the image KINDs of R25, a Ledger RECORDS entry, or an EPOCH content. -/
inductive RecUse where
  | plan | diversion | firmware | ledger | epoch
  deriving DecidableEq, Repr

def stFormat : Nat := 3
def stRange : Nat := 10

def recOptional (t : Nat) : Bool := 0x8000 ≤ t
def allZero (bs : List Byte) : Bool := bs.all (fun b => b == 0)

/-- The stream registers of NET (R32). -/
def isStreamReg (off : Nat) : Bool := decide (0x0F1000 ≤ off) && decide (off < 0x0F3000)
/-- DRV_CH_CFG of a channel. -/
def isDrvCfg (off : Nat) : Bool := (List.range 12).any (fun c => Off.DRV_CH_CFG c == off)

/-- Register targets of R39: blocks OBJ, GEO, RCF, OUT, RBT, PRT, AES, LPO, the stream registers and DRV_CH_CFG. -/
def regTarget (off : Nat) : Bool :=
  (decide (0x060000 ≤ off) && decide (off < 0x090000)) || (decide (0x0A0000 ≤ off) && decide (off < 0x0F0000)) ||
    isStreamReg off || isDrvCfg off
/-- Table targets of R39: every byte of a range of n bytes. -/
def inRange (lo hi off n : Nat) : Bool := decide (lo ≤ off) && decide (off + n ≤ hi)
def tableTarget (off n : Nat) : Bool :=
  inRange 0x1000000 0x1020000 off n || inRange 0x1200000 0x1400000 off n || inRange 0x1800000 0x1A00000 off n ||
    inRange 0x1C00000 0x1C44000 off n
def listenerTarget (off n : Nat) : Bool := inRange 0x1100000 0x1100200 off n

/-- SDRAM ranges of filter banks and HRIR sets are named by their registers (R113, R125). -/
abbrev FarOk := Nat → Nat → Bool

/-- A register offset is a legal one, and a permitted target of the use. -/
def regOffCheck (u : RecUse) (off : Nat) : Option Nat :=
  if off % 4 ≠ 0 then some stFormat
  else if 0x1000000 ≤ off then some stRange
  else match u with
    | .plan => none
    | .firmware => some stFormat
    | _ => if regTarget off then none else some stRange

/-- The same for the n bytes of a table record; a count of 0 writes no byte, wherever its offset lies. -/
def tableCheck (u : RecUse) (off n : Nat) : Option Nat :=
  if u == .firmware then some stFormat
  else if n = 0 then none
  else if !inRange 0x1000000 0x4000000 off n then some stRange
  else match u with
    | .diversion => if tableTarget off n then none else some stRange
    | .ledger | .epoch => if tableTarget off n || listenerTarget off n then none else some stRange
    | _ => none

/-- First failure of a list of checks. -/
def firstFail (l : List (Option Nat)) : Option Nat := l.findSome? (fun x => x)

/-- The checks of R26, R27 and step 5 of R31 on one record. `staging`: the staging area's first byte and the byte behind its last.
An SDRAM_WRITE that touches it is out of range (R30); one wholly beyond populated SDRAM fails when it is performed (R394). -/
def Rec.check (u : RecUse) (staging : Nat × Nat) (farOk : FarOk) (r : Rec) : Option Nat :=
  let b := r.body
  let n := b.length
  let w := fun (i : Nat) => fWord b i 4
  if (u == .ledger || u == .epoch) && ([6, 7, 8].contains r.type || recOptional r.type) then some stFormat
  else if u == .epoch && [0x10, 0x11, 0x12].contains r.type then none
  else if recOptional r.type then none
  else if u == .firmware && r.type != 8 && r.type != 0xFF then some stFormat
  else if r.type = 1 then firstFail ((List.range (n / 8)).map (fun i => regOffCheck u (w (8 * i))))
  else if r.type = 2 then
    if u == .epoch then some stFormat
    else if !allZero (b.drop (n / 12 * 12)) then some stFormat
    else firstFail ((List.range (n / 12)).map (fun i => regOffCheck u (w (12 * i))))
  else if r.type = 3 then
    if n < 8 + w 4 ∨ n < 8 ∨ allZero (b.drop (8 + w 4)) = false then some stFormat else tableCheck u (w 0) (w 4)
  else if r.type = 4 then
    if u == .epoch || n < 12 || !allZero (b.drop 12) || w 0 % 4 != 0 || w 4 % 4 != 0 then some stFormat
    else tableCheck u (w 0) (w 4)
  else if r.type = 5 then
    if n < 16 ∨ n < 16 + w 8 ∨ w 12 ≠ 0 ∨ allZero (b.drop (16 + w 8)) = false ∨ fWord b 0 8 % 128 ≠ 0 ∨ w 8 % 128 ≠ 0 then
      some stFormat
    else if u == .diversion then some stRange
    else if staging.1 < fWord b 0 8 + w 8 ∧ fWord b 0 8 < staging.2 ∧ w 8 ≠ 0 then some stRange
    else if (u == .ledger || u == .epoch) && !farOk (fWord b 0 8) (w 8) then some stRange
    else none
  else if r.type = 6 then
    if n < 16 || !allZero (b.drop 16) || w 0 % 4 != 0 then some stFormat
    else if u != .plan then some stRange
    else if 0x1000000 ≤ w 0 then some stRange else none
  else if r.type = 7 then
    if n < 16 || !allZero (b.drop 12) || w 0 % 4 != 0 then some stFormat
    else if u != .plan then some stRange
    else if 0x1000000 ≤ w 0 then some stRange else none
  else if r.type = 8 then
    if u != .firmware || n < 8 || w 4 != 0 || decide (n < 8 + w 0) || !allZero (b.drop (8 + w 0)) then some stFormat
    else none
  else if r.type = 0xFF then (if allZero b && u != .ledger && u != .epoch then none else some stFormat)
  else some stFormat

/-- The result of walking a body: the records, and the status and index of a failure. -/
structure Walk where
  recs : List Rec
  fail : Option (Nat × Nat)
  deriving DecidableEq, Repr

/-- A walk of the bytes from record index i on. `fuel` bounds the records; `end_`: the body ends with END. -/
def walkRecs (chk : Rec → Option Nat) (end_ : Bool) : Nat → Nat → List Byte → Walk
  | 0, i, _ => ⟨[], some (stFormat, i)⟩
  | fuel + 1, i, bs =>
    if bs.isEmpty then ⟨[], if end_ then some (stFormat, i) else none⟩
    else if bs.length < 8 then ⟨[], some (stFormat, i)⟩
    else
      let rlen := fWord bs 4 4
      if fWord bs 2 2 ≠ 0 ∨ rlen < 8 ∨ rlen % 8 ≠ 0 ∨ bs.length < rlen then ⟨[], some (stFormat, i)⟩
      else
        let r : Rec := ⟨fWord bs 0 2, (bs.drop 8).take (rlen - 8)⟩
        match chk r with
        | some s => ⟨[], some (s, i)⟩
        | none =>
          if end_ && r.type == 0xFF then
            ⟨[r], if bs.length = rlen then none else some (stFormat, i)⟩
          else
            let t := walkRecs chk end_ fuel (i + 1) (bs.drop rlen)
            ⟨r :: t.recs, t.fail⟩

/-! ### The writes a record stands for (R27) -/

/-- One write of a record. -/
inductive RWrite where
  | reg (off : Nat) (v : Word)
  | field (off : Nat) (mask v : Word)
  | table (off : Nat) (bytes : List Byte)
  | sdram (addr : Nat) (bytes : List Byte)
  | wait (off : Nat) (mask expect : Word) (us : Nat)
  | require_ (off : Nat) (mask expect : Word)
  | code (bytes : List Byte)
  deriving DecidableEq, Repr

def repeatBytes (p : List Byte) (n : Nat) : List Byte := (List.replicate n p).flatten

/-- The writes of a record, in payload order. -/
def Rec.writes (r : Rec) : List RWrite :=
  let b := r.body
  let w := fun (i : Nat) => BitVec.ofNat 32 (fWord b i 4)
  let n := fun (i : Nat) => fWord b i 4
  if r.type = 1 then (List.range (b.length / 8)).map (fun i => .reg (n (8 * i)) (w (8 * i + 4)))
  else if r.type = 2 then (List.range (b.length / 12)).map (fun i => .field (n (12 * i)) (w (12 * i + 4)) (w (12 * i + 8)))
  else if r.type = 3 then [.table (n 0) ((b.drop 8).take (n 4))]
  else if r.type = 4 then [.table (n 0) (repeatBytes ((b.drop 8).take 4) (n 4 / 4))]
  else if r.type = 5 then [.sdram (fWord b 0 8) ((b.drop 16).take (n 8))]
  else if r.type = 6 then [.wait (n 0) (w 4) (w 8) (n 12)]
  else if r.type = 7 then [.require_ (n 0) (w 4) (w 8)]
  else if r.type = 8 then [.code ((b.drop 8).take (n 0))]
  else []

end Sys2Proof.Machine
end

