-- ==== Sys2Proof/Machine/Twin.lean ====
section
/-! DEFINITION. The Twin engine (file 16): claims and states, the Bell line, the frames of the Twin link, and the taking of
Ledger entries. -/

namespace Sys2Proof.Machine

def Dev.setTwn (d : Dev) (x : Twn) : Dev := { d with twn := x }
def Dev.planId (d : Dev) : Nat := (d.rd Off.DIV_PLAN_ID_LO).toNat + 2 ^ 32 * (d.rd Off.DIV_PLAN_ID_HI).toNat
def Dev.planValid (d : Dev) : Bool := d.bit Off.DIV_IMG_STAT 0
/-- The Twin engine runs (R251). -/
def Dev.twnOn (d : Dev) : Bool := d.twn.st != 0
def Dev.unitNo (d : Dev) : Nat := if d.straps.twinB then 1 else 0

/-! ### Claims and states (R252 to R254) -/

def Dev.baseClaim (d : Dev) : Nat := min 254 (d.fld Off.TWN_CLAIM 7 0)
def Dev.claimNow (d : Dev) : Nat := d.fld Off.TWN_CLAIM 15 8
/-- Equal non-zero bases (R252). -/
def Dev.claimConflict (d : Dev) : Bool := d.twn.present && d.baseClaim != 0 && d.twn.pBase == d.baseClaim

/-- A parity fault with the claim-dropping action is in force (R318). -/
def Dev.parityDrops (d : Dev) : Bool :=
  d.sys.actBad || (d.bit Off.SYS_PARITY_STAT 30 && (d.fld Off.SYS_PARITY_ACT 1 0 == 1 || d.fld Off.SYS_PARITY_ACT 1 0 == 3))

/-- The first playout tick has begun (R16). -/
def Dev.playing (d : Dev) : Bool :=
  match d.pipe.from_ with
  | some b => decide (b + 2 ≤ d.clk.tick)
  | none => false

/-- HEALTHY (R253). -/
def Dev.healthy (d : Dev) : Bool :=
  let st := d.fld Off.SYS_UNIT_HEALTH 31 29
  d.rendering && d.playing && d.planValid && d.clk.valid && (st == 1 || st == 2) && !d.ebit Off.TWN_CTL 29 &&
    d.pipe.closure.isNone && !d.parityDrops

/-- The effective claim by R252. -/
def Dev.effClaim (d : Dev) : Nat :=
  if d.healthy && (d.twn.st == 1 || d.twn.st == 3) && !d.claimConflict then d.baseClaim else 0

/-- CLAIM_CHANGE. -/
def Dev.claimUpdate (d : Dev) : Dev :=
  let old := d.claimNow
  let new := d.effClaim
  if new = old then d else (d.setFld Off.TWN_CLAIM 15 8 new).raise 0x0D08 0 (old * 256 + new)

/-- CLAIM_CONFLICT for equal bases, once while they are equal. -/
def Dev.conflictCheck (d : Dev) : Dev :=
  if d.claimConflict && !d.twn.baseSaid then (d.setTwn { d.twn with baseSaid := true }).raise 0x0D05 0 1
  else if !d.claimConflict then d.setTwn { d.twn with baseSaid := false }
  else d

/-- The Ledger's primary (R276). -/
def Dev.primary (d : Dev) : Bool :=
  decide (d.twn.st ≤ 1) || decide (d.twn.pEff < d.claimNow) || (d.twn.pEff == d.claimNow && !d.straps.twinB)

def Dev.planMatch (d : Dev) : Bool := d.twn.pPlan == some d.planId

/-- Timeouts in ns (R262). -/
def Dev.tmoNs (d : Dev) (off : Nat) : Nat := 1000 * max 200 (min 100000 (d.fld off 16 0))
def Dev.pathUp (d : Dev) (at_ off : Nat) : Bool := at_ != 0 && decide (d.nsNow + 1 < at_ + d.tmoNs off)
def Dev.bellUp (d : Dev) : Bool := d.pathUp d.twn.bellAt Off.TWN_BELL_TMO
def Dev.courUp (d : Dev) : Bool := d.pathUp d.twn.courAt Off.TWN_COURIER_TMO

/-- The boundary at which a hold-off that starts now ends (R255). -/
def Dev.holdTo (d : Dev) : Nat := d.clk.tick + 3000 * max 1 (min 600 (d.fld Off.TWN_HOLDOFF 9 0))

/-- The unit enters a state; leaving the pair ends step and hold-off. A SERVING unit that becomes JOINING keeps its count of matching ticks;
if it is in step its hold-off starts now (R255). -/
def Dev.twnState (d : Dev) (st : Nat) : Dev :=
  if d.twn.st = st then d
  else if st = 2 then
    let keep := decide (d.twn.st = 3)
    d.setTwn { d.twn with
      st := st
      inStep := keep && d.twn.inStep
      run := if keep then d.twn.run else 0
      holdEnd := if keep && d.twn.inStep then some d.holdTo else none
      seeded := []
      epochOk := false }
  else if st = 3 then d.setTwn { d.twn with st := st, holdEnd := none }
  else d.setTwn { d.twn with st := st, inStep := false, run := 0, holdEnd := none }

/-- At a boundary a SERVING unit that has ceased to be HEALTHY becomes JOINING (R254). -/
def Dev.twnWatch (d : Dev) : Dev := if d.twn.st = 3 ∧ d.healthy = false then d.twnState 2 else d

/-- A tick that has not matched ends the in-step state, and hold-off with it (R255). -/
def Dev.stepLost (d : Dev) : Dev := d.setTwn { d.twn with run := 0, inStep := false, holdEnd := none }

/-- FAILING lasts until reset (R254). -/
def Dev.twnFailing (d : Dev) : Dev := if d.twnOn then (d.setTwn { d.twn with failing := true }).twnState 4 else d

/-! ### The health word and TWN_STAT (R285) -/

/-- An event of the last 3,000 ticks, given as tick + 1; 0: none. -/
def Dev.within (d : Dev) (at_ : Nat) : Bool := at_ != 0 && decide (d.clk.tick < at_ + 2999)
def b2n (b : Bool) : Nat := if b then 1 else 0

def Dev.healthWord (d : Dev) : Nat :=
  let u := Off.SYS_UNIT_HEALTH
  let t := d.twn
  t.st * 2 ^ 61 + d.unitNo * 2 ^ 60 + b2n d.healthy * 2 ^ 59 + b2n t.inStep * 2 ^ 58 + b2n t.holdEnd.isSome * 2 ^ 57 +
    b2n (t.present && d.planMatch) * 2 ^ 56 + d.claimNow * 2 ^ 48 + b2n d.clk.valid * 2 ^ 47 + b2n (d.ptp.slew != 0) * 2 ^ 46 +
    b2n (d.ptp.src == 4) * 2 ^ 45 + b2n (d.bellUp && !d.within t.bellBad) * 2 ^ 44 +
    b2n (d.courUp && !d.within t.courBad) * 2 ^ 43 + b2n (t.held.isEmpty && !d.within t.ldgBad) * 2 ^ 42 +
    b2n (d.within t.scrubBad) * 2 ^ 41 + b2n d.icx.rotFail * 2 ^ 40 + min 63 (d.fld u 23 16) * 2 ^ 32 + min 4 (d.fld u 15 8) * 2 ^ 28 +
    min 4095 t.run * 2 ^ 16 + min 255 t.lateTicks.length * 2 ^ 8 + d.icx.rotAge

/-- TWN_STAT and TWN_HEALTH refreshed. -/
def Dev.twnRefresh (d : Dev) : Dev :=
  let t := d.twn
  let left := match t.holdEnd with | some e => min 1023 ((e - d.clk.tick) / 3000) | none => 0
  let d := d.wrN Off.TWN_STAT (t.st * 2 ^ 29 + d.unitNo * 2 ^ 28 + b2n t.present * 2 ^ 27 + b2n t.failed * 2 ^ 26 +
    b2n d.bellUp * 2 ^ 25 + b2n d.courUp * 2 ^ 24 + t.lanes * 2 ^ 22 + b2n d.primary * 2 ^ 21 + b2n t.inStep * 2 ^ 20 +
    b2n (t.present && d.planMatch) * 2 ^ 19 + b2n (t.seeded.length == 24) * 2 ^ 18 + left)
  let h := d.healthWord
  (d.wrN Off.TWN_HEALTH_LO (h % 2 ^ 32)).wrN Off.TWN_HEALTH_HI (h / 2 ^ 32)

/-- TWN_CTL established: EN moves the unit between OFF and ALONE; one that is failing goes on failing (R251, R254). -/
def Dev.twnEstablished (d : Dev) (new : Word) : Dev :=
  if new.getLsbD 31 then (if d.twn.st = 0 then d.setTwn { d.twn with st := if d.twn.failing then 4 else 1 } else d)
  else if d.twn.st = 0 then d
  else d.setTwn { d.twn with st := 0, present := false, inStep := false, run := 0, holdEnd := none }

/-! ### The Bell line (R260, R262, R263) -/

/-- CRC-8, polynomial 0x07, initial value 0. -/
def crc8 (bs : List Byte) : Nat :=
  bs.foldl (fun c b => forN 8 (fun _ (c : Nat) => if 128 ≤ c then ((c * 2) % 256) ^^^ 7 else c * 2) (c ^^^ b.toNat)) 0

/-- The health word as the last boundary refreshed it (R285): what Bell words and Couriers carry. -/
def Dev.healthSent (d : Dev) : Nat := (d.rd Off.TWN_HEALTH_LO).toNat + 2 ^ 32 * (d.rd Off.TWN_HEALTH_HI).toNat

/-- BELL_WORD_TX: the word sent, and SEQ advances. -/
def Dev.bellSend (d : Dev) : Dev :=
  if !d.twnOn then d
  else
    let seq := d.twn.bellSeq
    let h := d.healthSent
    let v := seq * 2 ^ 52 + (seq % 4) * 2 ^ 50 + d.unitNo * 2 ^ 49 + b2n (d.twn.st == 4) * 2 ^ 48 + d.claimNow * 2 ^ 40 +
      d.baseClaim * 2 ^ 32 + (h / 2 ^ (16 * (seq % 4)) % 2 ^ 16) * 2 ^ 16 + (h / 2 ^ 56) * 2 ^ 8
    let crc := crc8 (beBytes 7 (v / 256))
    (d.setTwn { d.twn with bellSeq := (seq + 1) % 4096 }).emit (.bell (BitVec.ofNat 64 (v + crc)))

/-- A unit that hears its own UNIT treats its partner as absent (R251). -/
def Dev.hearSelf (d : Dev) : Dev :=
  let d := if d.twn.sameId then d else d.raise 0x0D05 0 2
  (d.setTwn { d.twn with sameId := true, present := false, since := 0 }).twnState (if d.twn.st = 4 then 4 else 1)

/-- Valid traffic arrives on a path; `live`: some path's timer was running. Traffic that had ceased begins anew (R263). -/
def Dev.heard (d : Dev) (failing live : Bool) : Dev :=
  let t := d.twn
  d.setTwn { t with pFailing := failing, sameId := false, since := if failing then 0 else if t.since = 0 || !live then d.nsNow + 1 else t.since }

/-- A TSTATE of 5 to 7 is read as FAILING (R285). -/
def failingState (hw : Nat) : Bool := decide (5 ≤ bitsOf hw 63 61)

/-- BELL_WORD_RX. -/
def Dev.bellTake (d : Dev) (w : BitVec 64) : Dev :=
  let v := w.toNat
  if !d.twnOn ∨ crc8 (beBytes 7 (v / 256)) ≠ v % 256 then
    if d.twnOn then d.setTwn { d.twn with bellBad := d.clk.tick + 1 } else d
  else if bitsOf v 49 49 = d.unitNo then d.hearSelf
  else
    let seq := bitsOf v 63 52
    let t := d.twn
    let gap := match t.bellLast with | some s => decide ((s + 1) % 4096 ≠ seq) | none => false
    let ph := bitsOf v 51 50
    let hw := t.pHealth.toNat
    let put := fun (w hi lo v : Nat) => w - bitsOf w hi lo * 2 ^ lo + v * 2 ^ lo
    let hw := put (put hw (16 * ph + 15) (16 * ph) (bitsOf v 31 16)) 63 56 (bitsOf v 15 8)
    let live := d.bellUp || d.courUp
    let d := d.setTwn { t with
      bellLast := some seq
      bellAt := d.nsNow + 1
      bellBad := if gap then d.clk.tick + 1 else t.bellBad
      pEff := bitsOf v 47 40
      pBase := bitsOf v 39 32
      pHealth := BitVec.ofNat 64 hw }
    let d := (d.wrN Off.TWN_PARTNER_LO (hw % 2 ^ 32)).wrN Off.TWN_PARTNER_HI (hw / 2 ^ 32)
    ((d.heard (bitsOf v 48 48 == 1 || failingState hw) live).conflictCheck)

/-- A transfer from the partner comes to nothing: LEDGER_PARTIAL for an EPOCH not committed (R281). -/
def Dev.dropXfers (d : Dev) : Dev :=
  let some_ := d.twn.xfers.any (fun x => x.content == 1)
  let d := d.setTwn { d.twn with xfers := [] }
  if some_ then d.raise 0x0D03 0 (d.rd Off.TWN_LEDGER_SEQ_LO).toNat else d

/-- PARTNER_FAILED: both timers have passed, or FAILING has arrived (R262). -/
def Dev.partnerFail (d : Dev) : Dev :=
  if d.twnOn && d.twn.present && (d.twn.pFailing || (!d.bellUp && !d.courUp)) then
    let ann := d.twn.pFailing
    let d := d.setTwn { d.twn with
      present := false
      failed := true
      since := 0
      bellAlarm := false
      courAlarm := false
      pEff := 0
      gateRx := []
      couriers := []
      compares := []
      held := [] }
    let d := d.raise 0x0D01 0 (if ann then 256 else 0)
    let d := if d.twn.st = 4 then d else d.twnState 1
    d.dropXfers.conflictCheck
  else d

/-- PATH_ALARM: one path silent while the other delivers, or its return (R262). -/
def Dev.pathAlarmGo (d : Dev) (courier lost : Bool) : Dev :=
  let t := d.twn
  let at_ := if courier then t.courAt else t.bellAt
  let other := if courier then t.bellAt else t.courAt
  let tmo := d.tmoNs (if courier then Off.TWN_COURIER_TMO else Off.TWN_BELL_TMO)
  let on := if courier then t.courAlarm else t.bellAlarm
  let set := fun (b : Bool) => d.setTwn (if courier then { t with courAlarm := b } else { t with bellAlarm := b })
  let par := if courier then 2 else 1
  if !d.twnOn then d
  else if lost && !on && t.present && decide (at_ + tmo < other) then (set true).raise 0x0D02 0 (256 + par)
  else if !lost && on && (if courier then d.courUp else d.bellUp) then (set false).raise 0x0D02 0 par
  else d

/-- PARTNER_RETURNED: valid traffic without FAILING for 10 ms (R263). -/
def Dev.partnerBack (d : Dev) : Dev :=
  let t := d.twn
  if d.twnOn && !t.present && !t.pFailing && !t.sameId && t.since != 0 && (d.bellUp || d.courUp) && decide (t.since + 10000000 ≤ d.nsNow + 1) then
    let d := d.setTwn { t with present := true, failed := false, expect := none }
    let d := d.raise 0x0D06 0 0
    let d := if d.twn.st = 1 then d.twnState (if d.healthy && d.rendering then 3 else 2) else d
    d.conflictCheck
  else d

/-- TWIN_LANE; without a lane the link is lost (R281). -/
def Dev.twinLaneGo (d : Dev) (lane : Nat) (up : Bool) : Dev :=
  let old := d.twn.lanes / 2 ^ lane % 2
  if old = b2n up then d
  else
    let d := (d.setTwn { d.twn with lanes := d.twn.lanes - old * 2 ^ lane + b2n up * 2 ^ lane }).raise 0x0D0B 0
      ((if up then 0 else 256) + lane)
    if d.twn.lanes = 0 then d.dropXfers else d

/-- IN_STEP_REACHED (R255). -/
def Dev.inStepGo (d : Dev) : Dev :=
  let t := d.twn
  if d.twnOn && t.present && !t.inStep && decide (3000 ≤ t.run) then
    d.setTwn { t with inStep := true, holdEnd := if t.st = 2 then some d.holdTo else none }
  else d

/-- HOLDOFF_END (R255). -/
def Dev.holdoffGo (d : Dev) : Dev :=
  match d.twn.holdEnd with
  | some e => if d.twn.st = 2 ∧ d.twn.inStep = true ∧ e ≤ d.clk.tick then (d.twnState 3).claimUpdate else d
  | none => d

/-! ### Frames of the Twin link (R264 to R271) -/

/-- A frame sent. -/
def Dev.twinSend (d : Dev) (type tick : Nat) (payload : List Byte) : Dev :=
  let body := leBytes 1 type ++ leBytes 1 d.unitNo ++ leBytes 2 payload.length ++ leBytes 4 d.twn.fseq ++ leBytes 8 tick ++ payload
  (d.setTwn { d.twn with fseq := (d.twn.fseq + 1) % 2 ^ 32 }).emit (.twin (body ++ leBytes 4 (crc32c body)))

/-- A frame received: its TYPE, sender, TICK and payload. -/
structure TFrame where
  type : Nat
  unit : Nat
  fseq : Nat
  tick : Nat
  body : List Byte
  deriving DecidableEq, Repr

/-- A frame whole and with a good CRC (R264, R265). -/
def parseFrame (f : List Byte) : Option TFrame :=
  let len := fWord f 2 2
  if f.length < 20 ∨ f.length ≠ len + 20 ∨ 9216 < len ∨ len % 4 ≠ 0 ∨ 2 ≤ fByte f 1 ∨
      crc32c (f.take (len + 16)) ≠ fWord f (len + 16) 4 ∨ fByte f 0 = 0 ∨ 7 < fByte f 0 then none
  else some ⟨fByte f 0, fByte f 1, fWord f 4 4, fWord f 8 8, (f.drop 16).take len⟩

/-- The receive rules of R264: the frame taken, or none. `type` is the TYPE of the command's row. A frame of the unit's own number is no
partner's; a Courier of that kind tells that both units have one TWIN_ID (R251). -/
def Dev.twinTake (d : Dev) (type : Nat) (f : List Byte) : Dev × Option TFrame :=
  if !d.twnOn && !d.sys.waitTwin then (d, none)
  else match parseFrame f with
    | none => (d.bump Off.TWN_LINK_ERR, none)
    | some t =>
      if t.type ≠ type then (d, none)
      else if t.unit = d.unitNo ∧ d.twnOn = true then (if type = 1 then d.hearSelf else d, none)
      else
        let ahead := match d.twn.expect with | some e => (t.fseq + 2 ^ 32 - e) % 2 ^ 32 | none => 0
        if 2 ^ 31 ≤ ahead then (d.bump Off.TWN_LINK_ERR, none)
        else
          let d := if ahead = 0 then d
            else (d.bumpN Off.TWN_LINK_ERR ahead).setTwn { d.twn with courBad := d.clk.tick + 1 }
          (d.setTwn { d.twn with expect := some ((t.fseq + 1) % 2 ^ 32) }, some t)

/-- The CFLAGS of an own Courier (R266). -/
def Dev.courierFlags (d : Dev) : Nat :=
  let t := d.twn
  b2n (t.st == 4) + 2 * b2n (d.straps.bootSel == 2 && d.sys.phase == 2 && !d.planValid) +
    4 * b2n (t.st == 2 && d.planMatch && !t.rendered && !t.epochOk) + 8 * b2n d.primary +
    16 * b2n d.sys.waitTwin

def Dev.ledgerSeq (d : Dev) : Nat := (d.rd Off.TWN_LEDGER_SEQ_LO).toNat + 2 ^ 32 * (d.rd Off.TWN_LEDGER_SEQ_HI).toNat
def Dev.setLedgerSeq (d : Dev) (v : Nat) : Dev := (d.wrN Off.TWN_LEDGER_SEQ_LO (v % 2 ^ 32)).wrN Off.TWN_LEDGER_SEQ_HI (v / 2 ^ 32)

/-- COURIER_TX (R261, R266). -/
def Dev.courierSend (d : Dev) : Dev :=
  if !d.twnOn then d
  else d.twinSend 1 d.clk.tick (leBytes 8 d.healthSent ++ leBytes 1 d.claimNow ++ leBytes 1 d.baseClaim ++
    leBytes 2 d.courierFlags ++ leBytes 4 0 ++ leBytes 8 d.planId ++ leBytes 8 d.ledgerSeq ++
    leBytes 8 (if d.primary then d.twn.nextSeq else 0) ++ leBytes 4 d.twn.sent.length ++ leBytes 4 0)

/-- NEED_FIRMWARE_COURIER: the ROM asks its partner for firmware (R337). -/
def Dev.firmwareAsk (d : Dev) : Dev :=
  if d.sys.waitTwin then
    d.twinSend 1 0 (leBytes 8 (2 * 2 ^ 61 + d.unitNo * 2 ^ 60) ++ leBytes 1 0 ++ leBytes 1 0 ++ leBytes 2 16 ++ leBytes 4 0 ++
      leBytes 8 0 ++ leBytes 8 0 ++ leBytes 8 0 ++ leBytes 4 0 ++ leBytes 4 0)
  else d

/-- Is an entry accepted and not yet established at boundary n + 1 (R276)? A DIV_ACT entry acts at receipt and counts until the boundary of
its apply tick has passed. -/
def LEntry.open_ (e : LEntry) (n : Nat) : Bool := !e.done || (e.ekind == 3 && decide (n ≤ e.apply))

/-- COURIER_RX (R266). A sender with NEED_FIRMWARE is not made present (R337). -/
def Dev.courierTake (d : Dev) (f : List Byte) : Dev :=
  match d.twinTake 1 f with
  | (d, none) => d
  | (d, some t) =>
    if t.body.length ≠ 48 ∨ d.twnOn = false then d
    else
      let b := t.body
      let flags := fWord b 10 2
      if flags / 16 % 2 = 1 then d.setTwn { d.twn with pFlags := flags }
      else
        let hw := fWord b 0 8
        let failing := decide (flags % 2 = 1) || failingState hw
        let live := d.bellUp || d.courUp
        let acked := fWord b 24 8
        let d := d.setTwn { d.twn with
          courAt := d.nsNow + 1
          pEff := fByte b 8
          pFlags := flags
          pPlan := some (fWord b 16 8)
          pLedger := acked
          pNext := fWord b 32 8
          pHealth := BitVec.ofNat 64 hw
          couriers := if failing then d.twn.couriers else mset (fun _ => 0) d.twn.couriers t.tick (fByte b 8 + 1)
          ledger := d.twn.ledger.filter (fun e => e.open_ d.clk.tick || decide (acked < e.seq)) }
        let d := (d.wrN Off.TWN_PARTNER_LO (hw % 2 ^ 32)).wrN Off.TWN_PARTNER_HI (hw / 2 ^ 32)
        let d := if d.planMatch then d.setTwn { d.twn with planSaid := false }
          else if d.twn.planSaid then d
          else (d.setTwn { d.twn with planSaid := true }).raise 0x0D0E 0 0
        (d.heard failing live).conflictCheck

/-- GATE_BLOCK_RX: a slot keeps its first copy (R267). Whether the partner is present is judged at the boundary (R256). -/
def Dev.gateTake (d : Dev) (f : List Byte) : Dev :=
  match d.twinTake 2 f with
  | (d, none) => d
  | (d, some t) =>
    let b := t.body
    let n := fWord b 2 2
    if n = 0 ∨ 64 < n ∨ b.length ≠ 24 + 4 * n * d.L then d
    else
      let first := fWord b 0 2
      let none_ : GateRx := ⟨false, false, []⟩
      let old := mget (fun _ => []) d.twn.gateRx t.tick
      let slot := fun (i : Nat) => GateRx.mk (decide (fWord b 8 8 / 2 ^ i % 2 = 1)) (decide (fWord b 16 8 / 2 ^ i % 2 = 1))
        ((List.range d.L).map (fun k => fReal b (24 + 4 * (i * d.L + k))))
      let new := forN n (fun i (m : NMap GateRx) =>
        if m.any (fun e => e.1 == first + i) then m else mset (fun _ => none_) m (first + i) (slot i)) old
      d.setTwn { d.twn with gateRx := mset (fun _ => []) d.twn.gateRx t.tick new }

/-- COMPARE_RX (R271): what arrived for a tick is kept as COUNT and the CRCs, so that a COMPARE of no slots is one too. -/
def Dev.compareTake (d : Dev) (f : List Byte) : Dev :=
  match d.twinTake 7 f with
  | (d, none) => d
  | (d, some t) =>
    let n := fWord t.body 0 2
    if t.body.length ≠ 4 + 4 * n then d
    else
      let crcs := (List.range n).map (fun i => fWord t.body (4 + 4 * i) 4)
      d.setTwn { d.twn with compares := mset (fun _ => []) d.twn.compares t.tick (n :: crcs) }

/-- A crossfade over a tick (R258): sample k of the weights. -/
def xfadeAt (L k : Nat) (old new : F32) : F32 :=
  let w := fdiv (fofNat (k + 1)) (fofNat L)
  let ga := if k + 1 = L then 0 else fsub fone w
  let gb := if k + 1 = L then fone else w
  ffma gb new (fmul ga old)

/-- The signal a shared input stands in, and its samples a tick (R268). -/
def shareSig (kind i : Nat) : Nat := if kind = 1 then Sig.serialIn i else if kind = 2 then Sig.asrcOut i else Sig.lpM i
def Dev.shareNs (d : Dev) (kind : Nat) : Nat := if kind = 3 then 16 else d.L
/-- The block of an input for a capture tick. -/
def Dev.putShare (d : Dev) (kind i t : Nat) (vs : List F32) : Dev :=
  let d := d.sputs (shareSig kind i) (t * d.shareNs kind) vs
  if kind = 3 ∧ d.div.rate96 = false then d.sputs (Sig.lpIn i) (t * 16) vs else d

/-- What the non-owner reads for capture tick t (R273 to R275): the shared samples, 0.0 until they arrive, and a crossfade from
its own in the tick of a return. The estimators that use a shared microphone take its samples too (R234). -/
def Dev.useShare (d : Dev) (kind i t : Nat) : Dev :=
  let ns := d.shareNs kind
  let new := (List.range ns).map (fun k => if d.shareArrived kind i t then d.sget (Sig.own (4 + kind) i) (t * ns + k) else 0)
  let old := fun (k : Nat) => d.sget (Sig.own kind i) (t * ns + k)
  let d := d.putShare kind i t (if d.twn.xfadeAt = t + 1 ∧ kind ≠ 3 then
    (List.range ns).map (fun k => xfadeAt ns k (old k) (new.getD k 0)) else new)
  if kind = 3 then forN 16 (fun e d => if d.efld (Off.LPO_EST_CFG e) 27 24 = i then d.estMic e t else d) d else d

/-- SHARED_INPUT_RX: before the render deadline of the compute tick that takes it (R274). -/
def Dev.shareTake (d : Dev) (f : List Byte) : Dev :=
  match d.twinTake 3 f with
  | (d, none) => d
  | (d, some t) =>
    let b := t.body
    let kind := fByte b 0
    let n := fWord b 4 2
    let ns := fWord b 6 2
    if kind = 0 ∨ 3 < kind ∨ n = 0 ∨ 64 < n ∨ ns ≠ d.shareNs kind ∨ b.length ≠ 16 + 4 * n * ns ∨ d.twn.present = false ∨
        t.tick + 1 < d.clk.tick ∨ (t.tick + 1 = d.clk.tick ∧ d.clk.past = true) then d
    else forN n (fun i d =>
      let x := fWord b 2 2 + i
      if !d.partnerOwns kind x then d
      else
        let key := kind * 65536 + x
        let d := d.sputs (Sig.own (4 + kind) x) (t.tick * ns) ((List.range ns).map (fun k => fReal b (16 + 4 * (i * ns + k))))
        let ok := decide (fWord b 8 8 / 2 ^ i % 2 = 1)
        let d := d.setTwn { d.twn with
          shareAt := mset (fun _ => 0) d.twn.shareAt key (t.tick + 1)
          shareOk := if ok then mset (fun _ => 0) d.twn.shareOk key (t.tick + 1) else d.twn.shareOk }
        if d.sharedIn kind x && decide (t.tick < d.clk.tick) then d.useShare kind x t.tick else d) d

/-! ### Queued activations (R40 to R43) -/

/-- QUEUED and RESIDENT of DIV_STAT follow the queue and the resident slots. -/
def Dev.divCounts (d : Dev) : Dev :=
  let d := d.setFld Off.DIV_STAT 23 20 d.div.queue.length
  d.setFld Off.DIV_STAT 15 0 (sumN 16 (fun i => if d.div.resident.any (fun e => e.1 == i) then 2 ^ i else 0))
/-- LAST_RESULT and LAST_INDEX: of a GO, or of an activation established or cancelled. -/
def Dev.divResult (d : Dev) (res index : Nat) : Dev :=
  ((d.setFld Off.DIV_STAT 31 28 res).setFld Off.DIV_STAT 27 24 index).divCounts
def Dev.isResident (d : Dev) (index : Nat) : Bool := d.div.resident.any (fun e => e.1 == index)

/-- The refusals of R40, in its order: 6 NOT_RESIDENT, 4 LATE, 5 CONFLICT, 7 QUEUE_FULL. -/
def Dev.divRefusal (d : Dev) (index a : Nat) (accept : Bool) : Option Nat :=
  if !d.isResident index then some 6
  else if accept && decide (a < d.clk.tick + 2) then some 4
  else if d.div.queue.any (fun q => q.tick == a) then some 5
  else if accept && decide (8 ≤ (d.div.queue.filter (fun q => !q.detour)).length) then some 7
  else none

/-- An activation takes its place in the queue (R40); `accept`: at acceptance, where all of R40 is judged. -/
def Dev.divQueue (d : Dev) (index a : Nat) (accept detour : Bool) : Dev :=
  match d.divRefusal index a (accept && !detour) with
  | some r => (if detour then d else d.divResult r index).raise 0x1004 0 (r * 2 ^ 28 + index)
  | none =>
    let d := { d with div := { d.div with queue := d.div.queue ++ [Act.mk index a detour] } }
    if detour then d.divCounts else d.divResult 1 index

/-- A cancel removes the activation of the index at tick `a`, whose boundary has not begun (R41). -/
def Dev.divCancelGo (d : Dev) (index a : Nat) : Dev :=
  match d.div.queue.find? (fun q => q.index == index && q.tick == a) with
  | none => d.divResult 8 index
  | some q => { d with div := { d.div with queue := d.div.queue.filter (fun x => x != q) } }.divResult 3 index

/-! ### Ledger entries (R276, R277, R279) -/

/-- LEDGER_ENTRY payload (R269). -/
def LEntry.bytes (e : LEntry) : List Byte :=
  leBytes 8 e.seq ++ leBytes 8 e.apply ++ leBytes 1 e.ekind ++ leBytes 1 e.origin ++ leBytes 2 e.rtag ++ leBytes 4 e.body.length ++ e.body
def padded4 (bs : List Byte) : List Byte := bs ++ List.replicate ((4 - bs.length % 4) % 4) 0
def Dev.ledgerSend (d : Dev) (e : LEntry) : Dev :=
  if decide (2 ≤ d.twn.st) && d.twn.present then d.twinSend 4 d.clk.tick (padded4 e.bytes) else d

def parseEntry (b : List Byte) : Option LEntry :=
  let n := fWord b 20 4
  if b.length < 24 ∨ 8192 < n ∨ b.length ≠ (24 + n + 3) / 4 * 4 then none
  else some ⟨fWord b 0 8, fWord b 8 8, fByte b 16, fByte b 17, fWord b 18 2, (b.drop 24).take n, false, false⟩

/-- SDRAM ranges of room-correction banks and HRIR sets (R277). -/
def Dev.farRange (d : Dev) (addr n : Nat) : Bool :=
  (List.range 1024).any (fun i =>
    let len := d.bankLenW (i / 2) (i % 2)
    let far := d.bankFarW (i / 2) (i % 2) * 128
    decide (len ≠ 0) && decide (far ≤ addr) && decide (addr + n ≤ far + farGranules len * 128)) ||
  (List.range 16).any (fun h =>
    let far := (d.rd (Off.RCF_H_FAR h)).toNat * 128
    decide (far ≤ addr) && decide (addr + n ≤ far + 64 * 16 * segP (d.hrirCapW h) 2 * 128))

/-- The rules of R277 on a body: 4 FORMAT, 5 RANGE. -/
def Dev.bodyCheck (d : Dev) (ekind : Nat) (body : List Byte) : Option Nat :=
  match ekind with
  | 1 =>
    match (walkRecs (fun r => r.check .ledger d.stagingArea d.farRange) false 1025 0 body).fail with
    | none => none
    | some (s, _) => if s = stRange then some 5 else some 4
  | 2 => match d.checkFrame false body with
    | .ok => if (d.sieve body).2 = frameRecords body then none else some 5
    | _ => some 4
  | 3 =>
    if body.length ≠ 8 ∨ allZero (body.drop 2) = false ∨ 1 < fByte body 1 then some 4
    else if 15 < fByte body 0 then some 5
    else none
  | _ => some 4

/-- What an entry does on receipt: an activation joins the queue or leaves it (R277). -/
def Dev.entryReceipt (d : Dev) (e : LEntry) (accept detour : Bool) : Dev :=
  if e.ekind = 3 then
    (if fByte e.body 1 = 0 then d.divQueue (fByte e.body 0) e.apply accept (detour || (!accept && fByte e.body 0 == 15))
     else d.divCancelGo (fByte e.body 0) e.apply)
  else d

/-- A unit that waits for an EPOCH content holds the entries it receives (R280). -/
def Dev.needsEpoch (d : Dev) : Bool := d.twn.st == 2 && d.planMatch && !d.twn.rendered && !d.twn.epochOk

/-- The feeds whose swap a RECORDS body carries; they count as accepted from the entry's acceptance on (R123, R124). -/
def ledgerSwaps (body : List Byte) : List Nat :=
  let ws := ((walkRecs (fun _ => none) false 1025 0 body).recs.map Rec.writes).flatten
  let swap := fun (off : Nat) (v : Word) =>
    if 0x0A1000 ≤ off ∧ off < 0x0A5000 ∧ (off - 0x0A1000) % 0x20 = 0 ∧ v.getLsbD 31 = true then some ((off - 0x0A1000) / 0x20) else none
  ws.filterMap (fun w => match w with
    | .reg off v => swap off v
    | .field off m v => swap off (m &&& v)
    | _ => none)
def Dev.noteSwaps (d : Dev) (e : LEntry) : Dev :=
  if e.ekind = 1 then { d with conv := { d.conv with ldgSwap := d.conv.ldgSwap ++ ledgerSwaps e.body } } else d

/-- The primary accepts an entry or refuses it: 2 ACCEPTED with its sequence, 3 LATE, 6 FULL (R276). One already journalled is answered
with its sequence, to the other unit as the entry with that unit's tag. A cancel is not late before its
activation's boundary has begun (R41, log entry 165). An activation refused as LATE raises DIV_REFUSED (R42). -/
def Dev.ledgerAccept (d : Dev) (origin rtag ekind a : Nat) (body : List Byte) (detour : Bool) : Dev × Nat × Nat :=
  let a := if a = 0 then d.clk.tick + 2 else a
  let cancel := decide (ekind = 3 ∧ fByte body 1 = 1)
  let live := d.twn.ledger.filter (fun e => e.open_ d.clk.tick)
  let size := (live.filter (fun e => e.ekind == 1 && e.apply == a)).foldl (fun n e => n + e.body.length) body.length
  if !cancel && decide (a < d.clk.tick + 2) then
    (if ekind = 3 then d.raise 0x1004 0 (4 * 2 ^ 28 + fByte body 0 % 16) else d, 3, 0)
  else match (if ekind = 3 then d.twn.ledger.find? (fun e => e.ekind == 3 && e.apply == a && e.body == body) else none) with
    | some e => (if origin = d.unitNo then d else d.ledgerSend { e with origin := origin, rtag := rtag }, 2, e.seq)
    | none =>
      if !detour && (decide (256 ≤ live.length) || (ekind == 1 && decide (16384 < size))) then (d, 6, 0)
      else
        let e : LEntry := ⟨d.twn.nextSeq, a, ekind, origin, rtag, body, false, ekind == 3⟩
        let d := d.setTwn { d.twn with nextSeq := d.twn.nextSeq + 1, ledger := d.twn.ledger ++ [e] }
        let d := (d.setLedgerSeq e.seq).noteSwaps e
        ((d.entryReceipt e true detour).ledgerSend e, 2, e.seq)

/-- An entry from the unit itself: accepted by the primary, or relayed to it with SEQ 0 (R276). Answers RESULT, 1 PENDING for
a relay, and the sequence. -/
def Dev.ledgerSubmitGo (d : Dev) (kind arg ekind a : Nat) (body : List Byte) (detour : Bool) : Dev × Nat × Nat :=
  if d.primary then d.ledgerAccept d.unitNo 0 ekind a body detour
  else
    let tag := d.twn.rtag
    let d := d.setTwn { d.twn with rtag := (tag + 1) % 65536, relays := d.twn.relays ++ [⟨tag, kind, arg, d.nsNow⟩] }
    (d.ledgerSend ⟨0, a, ekind, d.unitNo, tag, body, false, false⟩, 1, 0)

/-- RESULT of TWN_LDG_CMD posted. -/
def Dev.ldgPost (d : Dev) (res seq : Nat) : Dev :=
  let d := (d.setFld Off.TWN_LDG_CMD 27 24 res).setBit Off.TWN_LDG_CMD 28 (res == 1)
  if res = 2 then (d.wrN Off.TWN_LDG_ASSIGNED_LO (seq % 2 ^ 32)).wrN Off.TWN_LDG_ASSIGNED_HI (seq / 2 ^ 32) else d

/-- LEDGER_SUBMIT: GO of TWN_LDG_CMD (R276). -/
def Dev.ldgGo (d : Dev) : Dev :=
  if d.bit Off.TWN_LDG_CMD 28 then d
  else
    let n := d.fld Off.TWN_LDG_CMD 13 0
    let ekind := d.fld Off.TWN_LDG_CMD 30 29
    let a := (d.rd Off.TWN_LDG_TICK_LO).toNat + 2 ^ 32 * (d.rd Off.TWN_LDG_TICK_HI).toNat
    let body := ((List.range 2048).map (fun i => leBytes 4 (d.rd (Off.TWN_LDG_WIN i)).toNat)).flatten.take n
    if 8192 < n then d.ldgPost 4 0
    else match d.bodyCheck ekind body with
      | some r => d.ldgPost r 0
      | none =>
        let r := d.ledgerSubmitGo 0 0 ekind a body false
        let d := if ekind = 2 ∧ r.2.1 ≤ 2 then r.1.notePair body else r.1
        d.ldgPost r.2.1 r.2.2

/-- LEDGER_RELAY_LOST: relays unanswered for 10 ms (R276). -/
def Dev.relayLost (d : Dev) : Dev :=
  let lost := d.twn.relays.filter (fun r => decide (r.at_ + 10000000 ≤ d.nsNow))
  let d := d.setTwn { d.twn with relays := d.twn.relays.filter (fun r => decide (d.nsNow < r.at_ + 10000000)) }
  if lost.any (fun r => r.kind == 0) then d.ldgPost 7 0 else d

/-- An answer to a relay of this unit. -/
def Dev.relayAnswer (d : Dev) (e : LEntry) : Dev :=
  match (if e.origin = d.unitNo then d.twn.relays.find? (fun r => r.rtag == e.rtag) else none) with
  | none => d
  | some r =>
    let d := d.setTwn { d.twn with relays := d.twn.relays.filter (fun x => x != r) }
    if r.kind = 0 then d.ldgPost 2 e.seq else d

/-- An activation joined to the journal. One whose boundary has begun is never established (R40), except from an EPOCH
content. -/
def Dev.joinDiv (d : Dev) (e : LEntry) (epoch : Bool) : Dev :=
  let index := fByte e.body 0
  if e.ekind = 3 ∧ fByte e.body 1 = 0 ∧ e.apply < d.clk.tick ∧ epoch = false then
    let d := if e.late then (d.setTwn { d.twn with ldgBad := d.clk.tick + 1 }).raise 0x0D09 0 e.seq else d
    (d.divResult 4 index).raise 0x1004 0 (4 * 2 ^ 28 + index)
  else d.entryReceipt e false false

/-- Entries joined to the journal while they follow in unbroken order (R279). -/
def Dev.joinLedger (epoch : Bool) : Nat → Dev → Dev
  | 0, d => d
  | fuel + 1, d =>
    match d.twn.held.find? (fun e => e.seq == d.ledgerSeq + 1) with
    | none => d
    | some e =>
      let d := d.setTwn { d.twn with
        held := d.twn.held.filter (fun x => x.seq != e.seq)
        nextSeq := max d.twn.nextSeq (e.seq + 1)
        ledger := d.twn.ledger ++ [{ e with done := e.ekind == 3 }] }
      let d := ((d.setLedgerSeq e.seq).noteSwaps e).joinDiv e epoch
      Dev.joinLedger epoch fuel d

/-- A relayed activation of index 15 is taken as a Detour firing, which neither FULL nor QUEUE_FULL refuses: the entry carries no
other sign of one (R43, R276, log entry 166). -/
def LEntry.fromDetour (e : LEntry) : Bool := e.ekind == 3 && decide (fByte e.body 0 = 15) && decide (fByte e.body 1 = 0)

/-- LEDGER_ENTRY_RX (R269, R276, R279). No entry of the partner is applied while the plans differ (R266). -/
def Dev.ledgerTake (d : Dev) (f : List Byte) : Dev :=
  match d.twinTake 4 f with
  | (d, none) => d
  | (d, some t) =>
    match parseEntry t.body with
    | none => d
    | some e =>
      if !d.twn.present || !d.planMatch then d
      else if e.seq = 0 then
        (if d.primary then (match (if e.ekind = 2 then none else d.bodyCheck e.ekind e.body) with
          | some _ => d
          | none => (d.ledgerAccept e.origin e.rtag e.ekind e.apply e.body e.fromDetour).1) else d)
      else if e.seq ≤ d.ledgerSeq ∨ d.twn.held.any (fun x => x.seq == e.seq) = true then d.relayAnswer e
      else
        let d := (d.setTwn { d.twn with held := d.twn.held ++ [{ e with late := decide (e.apply < d.clk.tick) }] }).relayAnswer e
        if d.needsEpoch then d else Dev.joinLedger false (d.twn.held.length + 1) d

/-! ### Uses of the Ledger by the device itself -/

/-- An index and a tick as a DIV_ACT body (R277). -/
def divBody (index op : Nat) : List Byte := [BitVec.ofNat 8 index, BitVec.ofNat 8 op, 0, 0, 0, 0, 0, 0]

def Dev.divTick (d : Dev) : Nat := (d.rd Off.DIV_APPLY_TICK_LO).toNat + 2 ^ 32 * (d.rd Off.DIV_APPLY_TICK_HI).toNat

/-- DIV_APPLY: GO with OP APPLY (R40). A refusal of the entry with FULL is shown as QUEUE_FULL (log entry 167). -/
def Dev.divApplyGo (d : Dev) : Dev :=
  let index := d.fld Off.DIV_APPLY_R 3 0
  let a := if d.divTick = 0 then d.clk.tick + 2 else d.divTick
  match d.divRefusal index a true with
  | some r => (d.divResult r index).raise 0x1004 0 (r * 2 ^ 28 + index)
  | none =>
    let r := d.ledgerSubmitGo 2 index 3 a (divBody index 0) false
    if r.2.1 = 6 then (r.1.divResult 7 index).raise 0x1004 0 (7 * 2 ^ 28 + index) else r.1

/-- DIV_CANCEL: GO with OP CANCEL, for the activation at the tick of DIV_APPLY_TICK (R41). -/
def Dev.divCancelCmd (d : Dev) : Dev :=
  let index := d.fld Off.DIV_APPLY_R 3 0
  let a := if d.divTick = 0 then d.clk.tick + 2 else d.divTick
  match d.div.queue.find? (fun q => q.index == index && q.tick == a) with
  | none => d.divResult 8 index
  | some q =>
    let r := d.ledgerSubmitGo 2 index 3 q.tick (divBody index 1) false
    if r.2.1 = 6 then r.1.divResult 7 index else r.1

/-- GO of DIV_APPLY: OP 2 and 3 are BAD_OP. -/
def Dev.divGo (d : Dev) : Dev :=
  match d.fld Off.DIV_APPLY_R 30 29 with
  | 0 => d.divApplyGo
  | 1 => d.divCancelCmd
  | _ => d.divResult 9 (d.fld Off.DIV_APPLY_R 3 0)

/-- DETOUR_FIRED (R43), in capture tick C. -/
def Dev.detourFire (d : Dev) : Dev :=
  if d.bit Off.DIV_DETOUR_CFG 0 && d.rendering then
    let c := d.clk.tick
    let d := (d.setBit Off.DIV_DETOUR_CFG 0 false).setBit Off.DIV_DETOUR_CFG 31 true
    match d.div.queue.find? (fun q => q.index == 15 && decide (c + 2 ≤ q.tick)) with
    | some q => d.raise 0x1005 0 (q.tick % 2 ^ 32)
    | none =>
      let a := c + 2 + (firstN 16 (fun i => !d.div.queue.any (fun q => q.tick == c + 2 + i))).getD 0
      ((d.ledgerSubmitGo 3 15 3 a (divBody 15 0) true).1).raise 0x1005 0 (a % 2 ^ 32)
  else d

/-- MBOX_POST (R54): the frame of a slot. It is checked under R56 and R57 and journalled with the records and fields that pass, on a unit
without a partner in the unit's own Ledger (R251, R277, log entry 171). -/
def Dev.mboxPostGo (d : Dev) (slot : Nat) : Dev :=
  if !d.bit Off.OBJ_CTL 1 then d
  else
    let base := 0x070000 + 0x2000 * slot
    let n := 36 + 48 * leNat (getBytes d.obj.mbox (base + 10) 2)
    let f := getBytes d.obj.mbox base (min n 8192)
    match d.checkFrame false f with
    | .ok =>
      let named := d.frameApply f
      let asap := decide (fWord f 6 2 % 2 = 1)
      let a := if asap then d.clk.tick + 2 else max named (d.clk.tick + 2)
      let kept := (d.sieve f).2
      let r := if kept.isEmpty then (d, 2, 0) else d.ledgerSubmitGo 1 slot 2 a (reframe f kept) false
      if r.2.1 = 6 then r.1.setFld Off.OBJ_MBOX_STAT 31 28 5
      else ((r.1.notePair f).sieve f).1.setFld Off.OBJ_MBOX_STAT 31 28 (if kept = frameRecords f then 1 else 6)
    | _ =>
      let r := d.takeFrame 4 f
      r.1.setFld Off.OBJ_MBOX_STAT 31 28 r.2

end Sys2Proof.Machine
end

