-- ==== Sys2Proof/Machine/Asrc.lean ====
section
/-! DEFINITION. The ASRC Bridge: Foreign inputs into the house domain (R171, R172). -/

namespace Sys2Proof.Machine

def Dev.asrcCh (d : Dev) (c : Nat) : Asrc := mget (fun _ => Asrc.init) d.rbt.asrc c
def Dev.setAsrc (d : Dev) (c : Nat) (a : Asrc) : Dev :=
  { d with rbt := { d.rbt with asrc := mset (fun _ => Asrc.init) d.rbt.asrc c a } }
def Dev.asrcEn (d : Dev) (c : Nat) : Bool := d.ebit (Off.RBT_ASRC_CFG c) 31
def Dev.asrcGroup (d : Dev) (c : Nat) : Nat := d.efld (Off.RBT_ASRC_CFG c) 27 24
def Dev.asrcType (d : Dev) (c : Nat) : Nat := d.efld (Off.RBT_ASRC_CFG c) 17 16
def Dev.asrcIndex (d : Dev) (c : Nat) : Nat := d.efld (Off.RBT_ASRC_CFG c) 10 0
/-- Is the channel's input index in range for its TYPE? -/
def Dev.asrcInputOk (d : Dev) (c : Nat) : Bool :=
  match d.asrcType c with
  | 0 => decide (d.asrcIndex c < 16)
  | 1 => decide (d.asrcIndex c < 512)
  | 2 => decide (d.asrcIndex c < 1536)
  | _ => false
/-- Is any channel of a group locked? -/
def Dev.asrcGroupOn (d : Dev) (g : Nat) : Bool := (List.range 64).any (fun c => (d.asrcCh c).locked && d.asrcGroup c == g)

/-! ### The input (R172) -/

/-- The recorded arrivals of a receiver or port at house indices a … b. -/
def Dev.arrivedIn (d : Dev) (key sig a b : Nat) : List F32 :=
  ((mget (fun _ => []) d.net.arrive key).filter (fun (e : Nat × Nat) => decide (a < e.2) && decide (e.2 ≤ b + 1))).map (fun e => d.sget sig e.1)

/-- What channel c's input brought at house indices a … b, oldest first: AES3 frames and Foreign serial frames by their arrival, the
samples of a Foreign stream by the index at which a Locked stream's input plane would take them. -/
def Dev.asrcInput (d : Dev) (c a b : Nat) : List F32 :=
  let i := d.asrcIndex c
  if !d.asrcInputOk c then []
  else match d.asrcType c with
    | 0 => d.arrivedIn (i / 2) (Sig.aesIn i) a b
    | 1 => d.arrivedIn (8 + i / 32) (Sig.serialForeign i) a b
    | _ =>
      let r := mget (fun _ => 0) d.rbt.foreignRate i
      -- the samples whose instants lie after index a − 1 and not after index b
      let from_ := if a = 0 then 0 else (a - 1) * r / d.fs + 1
      if r = 0 then [] else (List.range (b * r / d.fs + 1 - from_)).map (fun k => d.sget (Sig.netForeign i) (from_ + k))

/-- At a boundary: the rates of the streams that the ASRC channels convert in the tick that begins; a job does not depend on when it
runs (R20). -/
def Dev.asrcRates (d : Dev) : Dev :=
  let cs := (List.range 64).filter (fun c => d.asrcEn c && d.asrcType c == 2 && d.asrcInputOk c)
  { d with rbt := { d.rbt with
    foreignRate := cs.foldl (fun m c =>
      match d.rxOwner (d.asrcIndex c) with
      | some s => mset (fun _ => 0) m (d.asrcIndex c) (d.rxRate s)
      | none => m) [] } }

/-! ### The output -/

/-- The sample of channel c at house index n: free, in what was assigned to n and before and in what has arrived since; faded at the
ends of a stretch, 0.0 outside every stretch (R172). -/
def Dev.asrcAt (d : Dev) (c n : Nat) : F32 :=
  match (d.asrcCh c).spans.find? (fun s => decide (s.from_ ≤ n) && (match s.off with | some o => decide (n < o + d.L) | none => true)) with
  | none => 0
  | some s =>
    -- an input sample is assigned to the house index 40 after its arrival
    let v := if n < 40 then 0
      else Config.asrcSample (d.asrcInput c (s.from_ - 80) (n - 40)) (d.asrcInput c (n - 39) n) s.ratio (n - s.phase)
    let v := if n < s.from_ + d.L then fadeSample 2 d.L (n - s.from_) v else v
    match s.off with
    | some o => if o ≤ n then fadeSample 1 d.L (n - o) v else v
    | none => v

/-- One ASRC item for capture tick t. A channel that the partner owns takes the partner's samples instead (R273); its own fade in at an
adoption, and are the old side of the crossfade at a return (R275). -/
def Dev.asrcItem (d : Dev) (c t : Nat) (fade : Bool) : Dev :=
  let own := fadeBlock fade d.L ((List.range d.L).map (fun k => d.asrcAt c (t * d.L + k)))
  let turn := decide (d.twn.xfadeAt = t + 1)
  if d.sharedIn 2 c then (if turn then d.sputs (Sig.own 2 c) (t * d.L) own else d).useShare 2 c t
  else d.sputs (Sig.asrcOut c) (t * d.L)
    (if turn && d.partnerOwns 2 c then ((List.range d.L).zip own).map (fun e => xfadeAt d.L e.1 0 e.2) else own)

/-! ### Lock (R171, R172) -/

/-- Is a ratio in 8.24, input rate over house rate, within the Bridge's limits: 0.25 to 4.0, and 32 kHz to 192 kHz in? -/
def Dev.asrcRatioOk (d : Dev) (ratio : Nat) : Bool :=
  decide (2 ^ 22 ≤ ratio) && decide (ratio ≤ 2 ^ 26) && decide (32000 * 2 ^ 24 ≤ ratio * d.fs) && decide (ratio * d.fs ≤ 192000 * 2 ^ 24)

/-- Has channel c a valid input (R172): an AES3 receiver that is locked, a serial port that is neither STOPPED nor ARMED, a stream received? -/
def Dev.asrcValid (d : Dev) (c : Nat) : Bool :=
  let i := d.asrcIndex c
  match d.asrcType c with
  | 0 => d.bit (Off.AES_RX_STAT (i / 2)) 31
  | 1 => decide (2 ≤ d.portSt (i / 32))
  | _ => (d.rxOwner i).isSome
/-- May channel c's input have been invalid for 8 frames? An AES3 receiver's errors are its own; other inputs' are measured outside. -/
def Dev.asrcFails (d : Dev) (c : Nat) : Bool :=
  d.asrcType c != 0 || !d.asrcValid c || decide (8 ≤ (mget (fun _ => AesRx.init) d.net.aesRx (d.asrcIndex c / 2)).bad)

/-- A channel locks: it fades in over the next tick. The group's first sets its ratio estimate and its phase, which the others share. -/
def Dev.asrcLock (d : Dev) (c ratio : Nat) : Dev :=
  if d.asrcEn c && d.asrcInputOk c && d.asrcValid c && !(d.asrcCh c).locked && d.asrcRatioOk ratio then
    let g := d.asrcGroup c
    let n := (d.clk.tick + 1) * d.L
    let first := !d.asrcGroupOn g
    let d := if first then
        { d with rbt := { d.rbt with phase := mset (fun _ => 0) d.rbt.phase g n } }.wrN (Off.RBT_ASRC_RATIO g) ratio
      else d
    let span : AsrcSpan := ⟨n, none, (d.rd (Off.RBT_ASRC_RATIO g)).toNat, mget (fun _ => 0) d.rbt.phase g⟩
    let d := (d.setAsrc c ⟨true, span :: (d.asrcCh c).spans⟩).wrN (Off.RBT_ASRC_STAT c) (2 ^ 31)
    d.raise 0x0704 0 (g * 256 + c)
  else d

/-- A channel that has lost lock, with the fade-out of its stretch from house index n on. -/
def Asrc.shut (a : Asrc) (n : Nat) : Asrc :=
  match a.spans with
  | s :: rest => ⟨false, (if s.off.isNone then { s with off := some n } else s) :: rest⟩
  | [] => ⟨false, []⟩

/-- A group loses lock: every channel fades out over the next tick. Causes: 1 invalid input, 2 ratio out of range. -/
def Dev.asrcUnlock (d : Dev) (g cause : Nat) : Dev :=
  let cs := (List.range 64).filter (fun c => (d.asrcCh c).locked && d.asrcGroup c == g)
  if cs.isEmpty || (cause == 1 && !cs.any (fun c => d.asrcFails c)) then d
  else
    let n := (d.clk.tick + 1) * d.L
    let d := forL cs (fun c d => (d.setAsrc c ((d.asrcCh c).shut n)).wrN (Off.RBT_ASRC_STAT c) 0) d
    (d.wrN (Off.RBT_ASRC_RATIO g) 0).raise 0x0705 0 (cause * 2 ^ 12 + g * 256)

/-- A change of RBT_ASRC_CFG is established: the channel starts over, and its old group without a locked channel has no ratio. -/
def Dev.asrcReset (d : Dev) (c old : Nat) : Dev :=
  let d := (d.setAsrc c Asrc.init).wrN (Off.RBT_ASRC_STAT c) 0
  if d.asrcGroupOn old then d else d.wrN (Off.RBT_ASRC_RATIO old) 0

end Sys2Proof.Machine
end

