-- ==== Sys2Proof/Machine/Conditioning.lean ====
section
/-! DEFINITION. Feed conditioning (file 08): bass management, biquads, delay, trim, limiter and mute. -/

namespace Sys2Proof.Machine

def Dev.outSt (d : Dev) (f : Nat) : OutSt := mget (fun _ => OutSt.init) d.cond.feeds f
def Dev.setOutSt (d : Dev) (f : Nat) (s : OutSt) : Dev :=
  { d with cond := { d.cond with feeds := mset (fun _ => OutSt.init) d.cond.feeds f s } }
def coefReset : List F32 := [fone, 0, 0, 0, 0]
/-- The established coefficients of a biquad section (R130). -/
def Dev.bqCoef (d : Dev) (f i : Nat) : List F32 := mget (fun _ => coefReset) d.cond.coef (16 * f + i)

/-! ### Bass management (R127, R128) -/

/-- The role of a feed: 0 NONE, 1 SEND, 2 SUB; 3 is used as NONE. -/
def bmRole (ctl : Word) : Nat := let v := getBits ctl 1 0; if v = 3 then 0 else v
def Dev.feedRole (d : Dev) (f : Nat) : Nat := bmRole (d.re (Off.OUT_F_CTL f))
def Dev.feedGroup (d : Dev) (f : Nat) : Nat := d.efld (Off.OUT_F_CTL f) 7 4
def Dev.xoCoef (d : Dev) (x j : Nat) : List F32 := (List.range 5).map (fun i => d.re (Off.OUT_XO x (j + i)))

/-- The crossover of a SEND feed: its high band is stored, its low band returned. -/
def Dev.sendFeed (d : Dev) (f t : Nat) (fade : Bool) : Dev × List F32 :=
  let x := d.efld (Off.OUT_F_CTL f) 10 8
  let lpc := d.xoCoef x 0
  let hpc := d.xoCoef x 5
  let st := d.outSt f
  let bus := d.condBus f t
  let lp1 := shelfRun lpc bus (st.xo.getD 0 [])
  let lp := shelfRun lpc lp1.1 (st.xo.getD 1 [])
  let hp1 := shelfRun hpc bus (st.xo.getD 2 [])
  let hp := shelfRun hpc hp1.1 (st.xo.getD 3 [])
  let d := d.setOutSt f { st with xo := [lp1.2, lp.2, hp1.2, hp.2] }
  (d.sputs (Sig.bass f) (t * d.L) (fadeVals fade d.L hp.1), lp.1)

/-- One BASS_MGMT item: the feeds of group g (R127). -/
def Dev.bassItem (d : Dev) (g t : Nat) (fade : Bool) : Dev :=
  let fs := (List.range 512).filter (fun f => d.feedGroup f == g)
  let r := (fs.filter (fun f => d.feedRole f == 1)).foldl (fun (st : Dev × List F32) f =>
    let e := st.1.sendFeed f t fade
    (e.1, (st.2.zip e.2).map (fun p => fadd p.1 p.2))) (d, List.replicate d.L 0)
  forL (fs.filter (fun f => d.feedRole f != 1)) (fun f d =>
    let bus := d.condBus f t
    let vs := if d.feedRole f = 2 then
        let sg := d.re (Off.OUT_F_SUBGAIN f)
        (r.2.zip bus).map (fun p => ffma sg p.1 p.2)
      else bus
    d.sputs (Sig.bass f) (t * d.L) (fadeVals fade d.L vs)) r.1

/-! ### Stages 3 to 7 (R129 to R134) -/

/-- Stage 3: the enabled sections in ascending order. -/
def Dev.biquads (d : Dev) (f : Nat) (xs : List F32) : NMap (List F32) × List F32 :=
  (List.range 16).foldl (fun (st : NMap (List F32) × List F32) i =>
    if (d.re (Off.OUT_F_BQ_EN f)).getLsbD i then
      let r := shelfRun (d.bqCoef f i) st.2 (mget (fun _ => []) st.1 i)
      (mset (fun _ => []) st.1 i r.2, r.1)
    else st) ((d.outSt f).bq, xs)

/-- CAP as used, and the effective delay D (R131). -/
def Dev.feedCap (d : Dev) (f : Nat) : Nat := min (d.efld (Off.OUT_F_DELAY f) 20 16) 16
def Dev.feedDelay (d : Dev) (f : Nat) : Nat :=
  let c := d.feedCap f
  if c = 0 then 0 else min (d.efld (Off.OUT_F_DELAY f) 15 0) (c * 4096 - 1)
def Dev.feedBase (d : Dev) (f : Nat) : Nat := (d.re (Off.OUT_F_DBASE f)).toNat
/-- A ring outside populated SDRAM or inside the staging area (R131). -/
def Dev.ringBad (d : Dev) (cap base : Nat) : Bool := decide (0 < cap) && decide (d.stagingBase < (base + 128 * cap) * 128)

/-- A ring takes the samples from index n0 on. -/
def Dev.ringWrite (d : Dev) (cap base n0 : Nat) (vs : List F32) : Dev :=
  if cap = 0 ∨ d.ringBad cap base = true then d
  else d.sdRing (base * 128) (cap * 4096) n0 vs
/-- The ring sample of index m; 0.0 before the ring's first tick. -/
def Dev.ringRead (d : Dev) (cap base from_ : Nat) (m : Int) : F32 :=
  if m < from_ ∨ d.ringBad cap base = true then 0
  else d.sdWord (base * 128 + 4 * (m.toNat % (cap * 4096)))

/-- Stage 4 (R131): the state with the ring in use, and the output block. Ticks without a job leave 0.0 in the ring they were to
write, as long as the feed still has that ring. Each sample is written before the read of its own index, so a read finds the ring as it
was before the tick, or the tick's own sample. -/
def Dev.delayStage (d : Dev) (f t : Nat) (xs : List F32) : Dev × List F32 :=
  let s := d.outSt f
  let n0 := t * d.L
  let cap := d.feedCap f
  let dl := d.feedDelay f
  let base := d.feedBase f
  let newRing := s.moved || decide (s.cap ≠ cap) || decide (s.base ≠ base) || decide (s.last = 0)
  let gap := if s.last = 0 ∨ (s.seen = false ∧ newRing = true) then 0 else min (n0 - s.last * d.L) (s.cap * 4096)
  let from_ := if newRing then n0 else s.ringFrom
  let cross := s.seen && (decide (s.delay ≠ dl) || newRing)
  let d := d.ringWrite s.cap s.base (n0 - gap) (List.replicate gap 0)
  let kept := d
  let d := if cross && newRing then d.ringWrite s.cap s.base n0 xs else d
  let d := d.ringWrite cap base n0 xs
  let read := fun (c b fr dd k : Nat) => if c = 0 then xs.getD k 0
    else if k < dd then kept.ringRead c b fr ((n0 + k : Nat) - (dd : Int))
    else if kept.ringBad c b then 0 else xs.getD (k - dd) 0
  let bad := d.ringBad cap base
  let said := d.cond.badSaid.contains f
  let d := if bad && !said then { d with cond := { d.cond with badSaid := f :: d.cond.badSaid } }.raise 0x0604 0 f
    else if !bad && said then { d with cond := { d.cond with badSaid := d.cond.badSaid.filter (fun g => g != f) } } else d
  let ys := (List.range d.L).map (fun k =>
    if bad then 0
    else if cross then
      let w := tickW k d.L
      let ga := if k + 1 = d.L then 0 else fsub fone w
      ffma w (read cap base from_ dl k) (fmul ga (read s.cap s.base s.ringFrom s.delay k))
    else read cap base from_ dl k)
  (d.setOutSt f { d.outSt f with delay := dl, cap := cap, base := base, ringFrom := from_, moved := false }, ys)

/-- TRIM as used (R132). -/
def trimUsed (v : F32) : F32 := if !isFin v || fnegative v then 0 else if flt f16 v then f16 else v
/-- The limiter threshold as used (R133). -/
def thrUsed (v : F32) : F32 := if isFin v && flt 0 v then v else fone
/-- ca and cr of R133: exp(−10,000/(ATTACK·fs)) and exp(−1,000/(RELEASE·fs)), rounded once. -/
def attackCoef (time : Word) (fs : Nat) : F32 := roundFix (expNegFix 10000 (max 1 (min 100 (getBits time 15 0)) * fs))
def releaseCoef (time : Word) (fs : Nat) : F32 := roundFix (expNegFix 1000 (max 10 (min 2000 (getBits time 31 16)) * fs))

/-- The gain state after one sample (R133). -/
def limitGain (thr ca cr g x : F32) : F32 :=
  let a := fabs x
  let gt := if fle a thr then fone else fdiv thr a
  if flt gt g then ffma ca (fsub g gt) gt else ffma cr (fsub g gt) gt

/-- Stage 6 over a block: gain state, samples clipped, output. -/
def limitRun (lim clip : Bool) (thr ca cr : F32) (g : F32) (xs : List F32) : F32 × Nat × List F32 :=
  xs.foldl (fun (st : F32 × Nat × List F32) x =>
    let g := if lim then limitGain thr ca cr st.1 x else fone
    let y := fmul x g
    if clip then
      let c := fminv (fmaxv y (fneg thr)) thr
      (g, (if feq c y || isNaN y then st.2.1 else st.2.1 + 1), st.2.2 ++ [c])
    else (g, st.2.1, st.2.2 ++ [y])) (g, 0, [])

/-- One OUT_COND item: stages 3 to 7 of feed f (R126). -/
def Dev.outCondItem (d : Dev) (f t : Nat) (fade : Bool) : Dev :=
  let s := d.outSt f
  let ctl := d.re (Off.OUT_F_CTL f)
  let L := d.L
  let b := d.biquads f (d.blockOf (Sig.conv f) t)
  let r := d.delayStage f t b.2
  let d := r.1
  let t1 := trimUsed (d.re (Off.OUT_F_TRIM f))
  let t0 := if s.seen then s.trim else t1
  let trimmed := ((List.range L).zip r.2).map (fun (e : Nat × F32) =>
    let tr := if t0 = t1 ∨ e.1 + 1 = L then t1 else ffma (tickW e.1 L) (fsub t1 t0) t0
    let y := fmul e.2 tr
    if ctl.getLsbD 16 then fneg y else y)
  let time := d.re (Off.OUT_F_LIM_TIME f)
  let lm := limitRun (ctl.getLsbD 18) (ctl.getLsbD 19) (thrUsed (d.re (Off.OUT_F_LIM_THR f))) (attackCoef time d.fs)
    (releaseCoef time d.fs) s.gain trimmed
  let m1 := ctl.getLsbD 17
  let m0 := if s.seen then s.mute else m1
  let muted := ((List.range L).zip lm.2.2).map (fun (e : Nat × F32) =>
    if m1 && m0 then 0
    else if m1 then fmul e.2 (if e.1 + 1 = L then 0 else fsub fone (tickW e.1 L))
    else if m0 then fmul e.2 (tickW e.1 L)
    else e.2)
  let d := d.setOutSt f { d.outSt f with seen := true, last := t + 1, bq := b.1, trim := t1, gain := lm.1, mute := m1 }
  let d := (d.bumpN Off.OUT_CLIP_CNT lm.2.1).wr (Off.OUT_F_GR f) lm.1
  d.sputs (Sig.feedOut f) (t * L) (if d.dstAway f then List.replicate L 0 else fadeVals fade L muted)

/-! ### Establishing (R126, R128 to R130, R133) -/

/-- What a change of a feed's OUT_F_CTL, OUT_F_BQ_EN, OUT_F_DELAY or OUT_F_DBASE word does to kernel state at the boundary: another CAP
or DBASE makes the ring anew (R131). -/
def Dev.outEstablished (d : Dev) (off : Nat) (old new : Word) : Dev :=
  if 0x0B4000 ≤ off ∧ off < 0x0B8000 then
    let f := (off - 0x0B4000) / 0x20
    let s := d.outSt f
    if (off - 0x0B4000) % 0x20 = 0 then
      let fresh := (bmRole new == 1 && bmRole old != 1) || getBits old 10 8 != getBits new 10 8
      let s := if fresh then { s with xo := [] } else s
      let s := if old.getLsbD 18 && new.getLsbD 18 then s else { s with gain := fone }
      d.setOutSt f s
    else if (off - 0x0B4000) % 0x20 = 4 then
      d.setOutSt f { s with bq := mkeep (fun i => old.getLsbD i && new.getLsbD i) s.bq }
    else if (off = Off.OUT_F_DELAY f ∧ min (getBits old 20 16) 16 ≠ min (getBits new 20 16) 16) ∨ (off = Off.OUT_F_DBASE f ∧ old ≠ new) then
      d.setOutSt f { s with moved := true }
    else d
  else d

/-- A committed coefficient set is established (R130). -/
def Dev.bqEstablish (d : Dev) (f i : Nat) (c : List F32) : Dev :=
  { d with cond := { d.cond with coef := mset (fun _ => coefReset) d.cond.coef (16 * f + i) c } }

/-- Rendering begins: the feeds have no previous compute tick (R126). -/
def Dev.outFresh (d : Dev) : Dev :=
  let go := fun (m : NMap OutSt) => m.map (fun (e : Nat × OutSt) => (e.1, { e.2 with seen := false }))
  { d with cond := { d.cond with feeds := (go d.cond.feeds).filter (fun e => e.2 != OutSt.init) } }

/-- BQ_SELECT: a completed write of OUT_BQ_SEL loads the staging set (R130). -/
def Dev.bqSelectWrite (d : Dev) (v : Word) : Dev :=
  let d := d.wr Off.OUT_BQ_SEL (v &&& 0x01FF000F)
  let c := d.bqCoef (getBits v 24 16) (getBits v 3 0)
  ((((d.wr Off.OUT_BQ_B0 (c.getD 0 0)).wr Off.OUT_BQ_B1 (c.getD 1 0)).wr Off.OUT_BQ_B2 (c.getD 2 0)).wr Off.OUT_BQ_A1 (c.getD 3 0)).wr
    Off.OUT_BQ_A2 (c.getD 4 0)

/-- OUT_BQ_CMT.GO: the staging set goes to the selected section at the next boundary (R130). -/
def Dev.bqCommitWrite (d : Dev) : Dev :=
  d.later (.bqCommit (d.fld Off.OUT_BQ_SEL 24 16) (d.fld Off.OUT_BQ_SEL 3 0)
    [d.rd Off.OUT_BQ_B0, d.rd Off.OUT_BQ_B1, d.rd Off.OUT_BQ_B2, d.rd Off.OUT_BQ_A1, d.rd Off.OUT_BQ_A2])

end Sys2Proof.Machine
end

