-- ==== Sys2Proof/Machine/Aborts.lean ====
section
/-! DEFINITION. Aborts and the Closure (R352 to R354). -/

namespace Sys2Proof.Machine

def stDone : Nat := 1
def stNotActive : Nat := 2
def stNoSuch : Nat := 3

/-- STATUS posted and ABORT_DONE raised; `stat`: SYS_ABORT_STAT is written too (R354). -/
def Dev.abortPost (d : Dev) (kind status us : Nat) (stat : Bool) : Dev :=
  let us := min us (2 ^ 24 - 1)
  let v := status * 2 ^ 28 + kind * 2 ^ 24 + us
  (if stat then d.wrN Off.SYS_ABORT_STAT v else d).raise 0x0105 0 v

/-- The jobs among these that an abort stops: all but those whose write-back has been granted and those that are over (R352,
R353). A FAULTED job is stopped only with its flow. -/
def abortable (flow : Bool) (j : Job) : Bool :=
  j.st == .waiting || j.st == .held || j.st == .ready || j.st == .kerb || j.st == .running || (flow && j.st == .faulted)

/-- The jobs an abort stops: one not yet running is retired as by a cancel, and a running one by its ABORTED report (R352). -/
def Dev.stopJobs (d : Dev) (go : List Job) : Dev :=
  let idle := go.filter (fun j => j.st != .running)
  let d := forL ((idle.map (fun j => (j.tmpl, j.key.tick))).eraseDups) (fun t d =>
    d.retireCancelled ((idle.filter (fun j => j.tmpl == t.1 && j.key.tick == t.2)).map (fun j => j.key))) d
  { d with icx := { d.icx with stopping := d.icx.stopping ++ (go.filter (fun j => j.st == .running)).map (fun j => j.key) } }

/-- Kind 0 JOB. `race`: the job became READY in this very cycle. -/
def Dev.abortJob (d : Dev) (id : Nat) (race : Bool) : Dev × Nat :=
  let js := d.instanceOf id
  if 4096 ≤ id ∨ js.isEmpty = true then (d, stNoSuch)
  else
    let go := js.filter (abortable false)
    if go.isEmpty then (d, stNotActive)
    else
      let d := if race && go.any (fun j => j.st == .ready) then d.raise 0x0302 0 id else d
      (d.stopJobs go, stDone)

/-- Kind 1 WARDEN. -/
def Dev.abortWarden (d : Dev) (id : Nat) : Dev × Nat :=
  if 8 ≤ id then (d, stNoSuch)
  else if d.wdnBusy id then (d.wardenStop id, stDone) else (d, stNotActive)

/-- Kind 2 STREAM: it fades out over the current tick, and completes at the boundary that clears EN. -/
def Dev.abortStream (d : Dev) (id : Nat) : Dev × Option Nat :=
  let tx := decide (256 ≤ id)
  let s := id % 256
  if 512 ≤ id ∨ 128 ≤ s then (d, some stNoSuch)
  else if (if tx then d.txEn s else d.rxEn s) then
    ({ d with net := { d.net with stopping := d.net.stopping ++ [(tx, s, d.clk.tick)] } }.later (.streamOff tx s), none)
  else (d, some stNotActive)

/-- The unreleased jobs of a flow retired with outputs 0.0, and R149 for the ticks that follow. -/
def Dev.abortFlow (d : Dev) (id : Nat) : Dev × Nat :=
  if 256 ≤ id then (d, stNoSuch)
  else
    let live := d.icx.jobs.filter (fun j => j.key.flow == id && !j.st.over)
    if live.isEmpty then (d, stNotActive)
    else
      let d := d.stopJobs (live.filter (abortable true))
      ({ d with icx := { d.icx with fadeIn := (id :: d.icx.fadeIn).eraseDups } }, stDone)

/-- Kind 4 QUARTER: its eight Squares are fenced at once. -/
def Dev.abortQuarter (d : Dev) (id : Nat) : Dev × Nat :=
  if 4 ≤ id then (d, stNoSuch)
  else if d.quarterFenced id then (d, stNotActive)
  else (forN 8 (fun i d => d.fence (8 * id + i) 1) d, stDone)

/-- A Closure accepted now (R16, R354). -/
def Dev.closureStart (d : Dev) (abort : Bool) : Dev :=
  { d with pipe := { d.pipe with closure := some 0, closAbort := abort, closAt := (d.clk.tick, d.clk.elapsed) } }

/-- GO of SYS_ABORT_CMD (R352, R353). -/
def Dev.abortGo (d : Dev) (race : Bool) : Dev :=
  if d.bit Off.SYS_ABORT_STAT 31 then d
  else
    let kind := d.fld Off.SYS_ABORT_CMD 2 0
    let id := (d.rd Off.SYS_ABORT_ID).toNat
    let busy := fun (d : Dev) => (d.setBit Off.SYS_ABORT_STAT 31 true).setFld Off.SYS_ABORT_STAT 27 24 kind
    let wait := fun (d : Dev) => { (busy d) with pipe := { d.pipe with abort := some (kind, id), abortAt := (d.clk.tick, d.clk.elapsed) } }
    let done := fun (r : Dev × Nat) => if r.1.icx.stopping.isEmpty then r.1.abortPost kind r.2 0 true else wait r.1
    if kind = 7 then d
    else if d.pipe.closure.isSome then d.abortPost kind stNotActive 0 true
    else match kind with
      | 0 => done (d.abortJob id race)
      | 1 => done (d.abortWarden id)
      | 2 =>
        match d.abortStream id with
        | (d, some s) => d.abortPost 2 s 0 true
        | (d, none) => wait d
      | 3 => done (d.abortFlow id)
      | 4 => done (d.abortQuarter id)
      | 5 =>
        let r := d.abortFlow id
        done (if r.2 = stDone then (forN 2 (fun c d => d.dmcDropFlow c id) r.1, r.2) else r)
      | _ =>
        if !d.rendering then d.abortPost 6 stNotActive 0 true
        else (busy d).closureStart true

/-- Clearing RENDER_EN (R16). -/
def Dev.renderEnClear (d : Dev) : Dev :=
  if d.rendering && d.pipe.closure.isNone then d.closureStart false else d
/-- Setting it: without a valid plan it stays 0 (R32). -/
def Dev.renderEnSet (d : Dev) : Dev := if d.planValid then d.setBit Off.SYS_CTL 1 true else d

/-- A Closure ends in IDLE, the render's queued SDRAM requests drained (R354). -/
def Dev.closureEnd (d : Dev) : Dev :=
  let p := d.pipe
  let d := forN 2 (fun c d => d.dmcDrainRender c) d
  let d := d.setBit Off.SYS_CTL 1 false
  let d := d.mapSquares (fun s => if s.fenced then s else { s with run := none, crossed := 0, blocked := false })
  let d := { d with pipe := { p with from_ := none, closure := none, closAbort := false, gateSrc := [] } }
  (d.setFld Off.SYS_PWR_STATE 31 29 3).abortPost 6 stDone (d.usSince p.closAt) p.closAbort

/-- The stage a Closure enters at a boundary, before step 2 of R9. -/
def Dev.closureStage (d : Dev) : Dev :=
  match d.pipe.closure with
  | none => d
  | some k =>
    let d := { d with pipe := { d.pipe with closure := some (k + 1) } }
    if k = 0 then
      let go := d.icx.jobs.filter (abortable true)
      let d := forL ((go.map (fun j => (j.tmpl, j.key.tick))).eraseDups) (fun t d =>
        d.retireCancelled ((go.filter (fun j => j.tmpl == t.1 && j.key.tick == t.2)).map (fun j => j.key))) d
      d.twnFailing
    else if k = 2 then d.mapSquares (fun s => { s with blocked := true })
    else if 4 ≤ k then d.closureEnd
    else d

/-- The abort in progress completes: STATUS is posted, and ABORT_DONE raised. -/
def Dev.abortEnd (d : Dev) (kind : Nat) : Dev :=
  let at_ := d.pipe.abortAt
  { d with pipe := { d.pipe with abort := none }, icx := { d.icx with stopping := [] } }.abortPost kind stDone (d.usSince at_) true

/-- A stopping job that its Square has lost is retired in place of being dispatched again, and an abort completes once no job it
stops is running (R352). -/
def Dev.abortPoll (d : Dev) : Dev :=
  match d.pipe.abort with
  | none => d
  | some (kind, _) =>
    if kind = 2 then d
    else
      let stops := d.icx.jobs.filter (fun j => d.icx.stopping.contains j.key)
      let d := forL (stops.filter (fun j => j.st != .running && abortable true j)) (fun j d => d.retireCancelled [j.key]) d
      if stops.any (fun j => j.st == .running) then d else d.abortEnd kind

/-- A stream abort completes at the boundary that has cleared EN, and one of jobs that the boundary has retired. -/
def Dev.abortBoundary (d : Dev) : Dev :=
  match d.pipe.abort with
  | none => d
  | some (kind, _) => if kind = 2 then d.abortEnd 2 else d.abortPoll

end Sys2Proof.Machine
end

