-- ==== Sys2Proof/Machine/Gates.lean ====
section
/-! DEFINITION. Gates and what the units of a pair or a District exchange each tick (R256 to R259, R265 to R268, R271 to R275, R284,
R286 to R289). -/

namespace Sys2Proof.Machine

/-! ### Gate slots (R160, R161, R256) -/

/-- The mapped destination slots, ascending: their TYPE byte is not 0, so it is listed. -/
def Dev.mappedDst (d : Dev) : List Nat :=
  d.tabE.filterMap (fun e =>
    if 0x1C42000 ≤ e.1 ∧ e.1 < 0x1C44000 ∧ e.1 % 4 = 3 then some ((e.1 - 0x1C42000) / 4) else none)

/-- The slots that pass through a Gate, with their endpoints: each has one (R256). -/
def Dev.gateSlots (d : Dev) : List (Nat × (Nat × Nat)) :=
  d.mappedDst.filterMap (fun j =>
    match dstEndpoint (d.dstSlot j) with
    | some e => if 1 ≤ e.1 ∧ e.1 ≤ 4 then some (j, e) else none
    | none => none)
/-- Does slot j's Gate drive its endpoint: no lower slot names it (R161)? -/
def gateDrives (slots : List (Nat × (Nat × Nat))) (j : Nat) (e : Nat × Nat) : Bool := slots.all (fun x => x.2 != e || decide (j ≤ x.1))

def gateKey (e : Nat × Nat) : Nat := e.1 * 65536 + e.2

/-- Is slot j's RBT_MIX output item of compute tick n released (R256)? A cancelled or aborted item is released with 0.0 (R156). -/
def Dev.slotReleased (d : Dev) (j n : Nat) : Bool :=
  d.icx.jobs.any (fun k => k.kind == 0x40 && k.params.headD 0 == 1 && k.key.tick == n && k.st.over &&
    decide (k.key.first ≤ j) && decide (j < k.key.first + k.count))

/-- Does boundary n + 1 retire a class 0–6 sequence of compute tick n as late? -/
def Dev.anyLate (d : Dev) (n : Nat) : Bool := d.icx.jobs.any (fun k => k.cls != 7 && decide (k.key.tick ≤ n) && !k.st.over)

/-- The local block of slot j for compute tick n: the samples its output item formed. -/
def Dev.localBlock (d : Dev) (j : Nat) (e : Nat × Nat) (n : Nat) : List F32 :=
  d.blockOf (if gateDrives d.gateSlots j e then endpointSig e else Sig.slot j) (n - 1)

/-- The partner's block of compute tick n in slot j, delivered (R256). -/
def Dev.partnerBlock (d : Dev) (j n : Nat) : Option GateRx :=
  let t := d.twn
  if t.present && !t.failed && d.planMatch && mget (fun _ => 0) t.couriers n != 0 then
    ((mget (fun _ => []) t.gateRx n).find? (fun e => e.1 == j)).map (fun e => e.2)
  else none

/-! ### GATE_SELECT (R257, R258) -/

/-- What fades the Gates play with at this boundary: 0 none, 1 out, 2 in, 3 silence (R16, R220, R354). -/
def Dev.gateFade (d : Dev) : Nat :=
  let closing := match d.pipe.closure with | some k => k | none => 0
  if !d.playing || d.clk.tick < d.pipe.silentTo || 2 ≤ closing then 3
  else if closing = 1 then 1
  else match d.ptp.step with
    | some (_, at_) => if d.clk.tick = at_ + 1 then 1 else if d.pipe.fadeIn && d.clk.tick == d.pipe.silentTo then 2 else 0
    | none => if d.pipe.fadeIn && d.clk.tick == d.pipe.silentTo then 2 else 0

/-- The source a Gate plays (R257): 0 silence, 1 local, 2 partner. -/
def chooseSource (own partner : Nat) (ownValid partValid : Bool) : Nat :=
  let o := if ownValid then own else 0
  let p := if partValid then partner else 0
  if o = 0 ∧ p = 0 then (if ownValid then 1 else 0) else if o < p then 2 else 1

/-- One Gate at boundary b = n + 1 for compute tick n. `own`: its local block is valid. What the Gate of a slot that does not drive its
endpoint plays is discarded (R161). -/
def Dev.gateOne (d : Dev) (j : Nat) (e : Nat × Nat) (n : Nat) (own : Bool) : Dev :=
  let L := d.L
  let part := d.partnerBlock j n
  let pv := match part with | some g => g.valid | none => false
  let pc := mget (fun _ => 0) d.twn.couriers n - 1
  let src := chooseSource d.claimNow pc own pv
  let old := mget (fun _ => 0) d.twn.played j
  let block := fun (s : Nat) => if s = 1 ∧ own = true then d.localBlock j e n
    else if s = 2 ∧ pv = true then (match part with | some g => g.vs | none => []) else []
  let new := block src
  let was := block old
  let cross := src != old && d.within d.twn.misAt
  let mode := d.gateFade
  let vs := (List.range L).map (fun k =>
    let v := if cross then xfadeAt L k (was.getD k 0) (new.getD k 0) else new.getD k 0
    fadeSample mode L k v)
  let playing := if mode = 3 then 0 else src
  let d := d.setTwn { d.twn with played := mset (fun _ => 0) d.twn.played j playing }
  if gateDrives d.gateSlots j e then
    let d := d.sputs (Sig.gateOut (gateKey e)) ((n + 1) * L) vs
    let d := { d with pipe := { d.pipe with gateSrc := mset (fun _ => 0) d.pipe.gateSrc (gateKey e) playing } }
    d.emit (.playout (gateKey e) (n + 1) vs)
  else d

/-- The invalid flag an AES3 subframe carries for its Gate's block (R191). -/
def Dev.gateInvalid (d : Dev) (n : Nat) (key : Nat) : Bool :=
  match mget (fun _ => 0) d.pipe.gateSrc key with
  | 1 => d.srcInv n (key / 65536, key % 65536)
  | 2 => (match d.gateSlots.find? (fun s => gateKey s.2 == key) with
      | some s => (match d.partnerBlock s.1 n with | some g => g.srcInv | none => true)
      | none => true)
  | _ => true

/-- GATE_SELECT at boundary n + 1. `valid` tells which slots' local blocks are valid, judged before step 2. -/
def Dev.gateSelect (d : Dev) (n : Nat) (valid : Nat → Bool) : Dev :=
  let slots := d.gateSlots
  let d := { d with pipe := { d.pipe with gateSrc := [] } }
  let d := forL slots (fun s d => d.gateOne s.1 s.2 n (valid s.1)) d
  forN 8 (fun t d => d.aesTxTick t (n + 1) (d.gateInvalid n)) d

/-! ### GATE_BLOCK, COURIER and COMPARE sent (R265, R267, R271, R272) -/

/-- Consecutive runs of at most 64 numbers, each given by its first and its length. -/
def runs64 (xs : List Nat) : List (Nat × Nat) :=
  (xs.foldl (fun (acc : List (Nat × Nat)) x =>
    match acc with
    | (f, n) :: rest => if x = f + n ∧ n < 64 then (f, n + 1) :: rest else (x, 1) :: acc
    | [] => [(x, 1)]) []).reverse

def bitmap (xs : List Bool) : Nat := ((List.range xs.length).zip xs).foldl (fun a p => if p.2 then a + 2 ^ p.1 else a) 0
def f32Bytes (vs : List F32) : List Byte := (vs.map (fun v => leBytes 4 v.toNat)).flatten

/-- GATE_BLOCK_TX: the slots released and not yet sent in compute tick n. -/
def Dev.gateBlocksSend (d : Dev) : Dev :=
  if d.twnOn then
    let n := d.clk.tick
    let ready := (d.gateSlots.filter (fun s => d.slotReleased s.1 n && !d.twn.sent.contains s.1))
    let d := forL (runs64 (ready.map (fun s => s.1))) (fun r d =>
      let es := ready.filter (fun s => decide (r.1 ≤ s.1) && decide (s.1 < r.1 + r.2))
      d.twinSend 2 n (leBytes 2 r.1 ++ leBytes 2 r.2 ++ leBytes 4 0 ++ leBytes 8 (2 ^ r.2 - 1) ++ leBytes 8 (bitmap (es.map (fun s => d.srcInv n s.2))) ++
        (es.map (fun s => f32Bytes (d.localBlock s.1 s.2 n))).flatten)) d
    d.setTwn { d.twn with sent := d.twn.sent ++ ready.map (fun s => s.1) }
  else d

/-- The unit's own CRCs for compute tick n (R271). -/
def Dev.ownCrcs (d : Dev) (n : Nat) : List Nat :=
  d.gateSlots.map (fun s =>
    let ok := d.slotReleased s.1 n
    crc32c (f32Bytes (if ok then d.localBlock s.1 s.2 n else List.replicate d.L 0) ++ leBytes 1 (b2n ok + 2 * b2n (d.srcInv n s.2))))

/-- COMPARE_TX. -/
def Dev.compareSend (d : Dev) : Dev :=
  if !d.twnOn then d
  else
    let n := d.clk.tick
    let cs := d.ownCrcs n
    let d := d.setTwn { d.twn with ownCrc := cs, ownTick := n }
    d.twinSend 7 n (leBytes 2 cs.length ++ leBytes 2 0 ++ (cs.map (fun c => leBytes 4 c)).flatten)

/-- COMPARE_CHECK at boundary n + 1 (R284). -/
def Dev.compareCheck (d : Dev) (n : Nat) : Dev :=
  if !d.twnOn then d
  else match d.twn.compares.find? (fun e => e.1 == n) with
    | none => d.stepLost
    | some e =>
      if d.twn.ownTick ≠ n then d.stepLost
      else
        let own := d.twn.ownCrc
        if own = e.2.drop 1 then d.setTwn { d.twn with run := d.twn.run + 1, mism := false }
        else
          let i := (firstN (max own.length e.2.length) (fun i => own[i]? != (e.2.drop 1)[i]?)).getD 0
          let slot := ((d.gateSlots.map (fun s => s.1)).getD i 0)
          let was := d.twn.mism
          let d := d.stepLost.setTwn { d.stepLost.twn with mism := true, misAt := d.clk.tick + 1 }
          let d := (d.bumpFld Off.TWN_CMP_MISMATCH 31 16 1).setFld Off.TWN_CMP_MISMATCH 10 0 slot
          let d := (d.wrN Off.TWN_CMP_TICK_LO (n % 2 ^ 32)).wrN Off.TWN_CMP_TICK_HI (n / 2 ^ 32)
          if was then d else d.raise 0x0D04 0 slot

/-- What has been received for compute tick n and earlier is dropped once the boundary has used it. -/
def Dev.twinPrune (d : Dev) (n : Nat) : Dev :=
  let t := d.twn
  d.setTwn { t with
    gateRx := mkeep (fun k => decide (n < k)) t.gateRx
    couriers := mkeep (fun k => decide (n < k)) t.couriers
    compares := mkeep (fun k => decide (n < k)) t.compares
    sent := [] }

/-! ### Shared inputs sent and taken (R273 to R275) -/

/-- SHARED_INPUT_TX of inputs of a kind for capture tick t. -/
def Dev.shareSend (d : Dev) (kind t : Nat) (xs : List Nat) (ok : Nat → Bool) : Dev :=
  if d.twnOn then
    let ns := d.shareNs kind
    forL (runs64 xs) (fun r d =>
      let is_ := (List.range r.2).map (fun i => r.1 + i)
      d.twinSend 3 t (leBytes 1 kind ++ leBytes 1 0 ++ leBytes 2 r.1 ++ leBytes 2 r.2 ++ leBytes 2 ns ++ leBytes 8 (bitmap (is_.map ok)) ++
        (is_.map (fun i => f32Bytes ((List.range ns).map (fun k => d.sget (shareSig kind i) (t * ns + k))))).flatten)) d
  else d

/-- The serial inputs of the Locked ports that run here. -/
def Dev.serialInputs (d : Dev) : List Nat :=
  ((List.range 16).map (fun p =>
    let cfg := d.re (Off.PRT_CFG p)
    if d.portSt p = 0 ∨ cfgForeign cfg = true then [] else (List.range (cfgFrameSlots cfg)).map (fun s => 32 * p + s))).flatten
def Dev.lpInputs (d : Dev) : List Nat := (List.range 16).filter (fun c => (d.re Off.LPO_CTL).getLsbD 31 && (d.re Off.LPO_CTL).getLsbD c)
def Dev.asrcInputs (d : Dev) : List Nat := (List.range 64).filter (fun c => d.asrcEn c)

/-- At the boundary that closes capture tick t the owner sends its serial and LP blocks (R274). -/
def Dev.shareBoundarySend (d : Dev) (t : Nat) : Dev :=
  let d := d.shareSend 1 t (d.serialInputs.filter (fun i => !d.partnerOwns 1 i)) (fun i => d.portSt (i / 32) == 3)
  d.shareSend 3 t (d.lpInputs.filter (fun c => !d.partnerOwns 3 c)) (fun c => !d.settling c)
/-- At the release of an ASRC job for channels first … first + count − 1. -/
def Dev.shareAsrcSend (d : Dev) (first count t : Nat) : Dev :=
  d.shareSend 2 t ((d.asrcInputs.filter (fun c => decide (first ≤ c) && decide (c < first + count))).filter (fun c => !d.partnerOwns 2 c))
    (fun c => (d.asrcCh c).locked)

def shareInputs : List (Nat × Nat) :=
  ((List.range 512).map (fun i => (1, i))) ++ ((List.range 64).map (fun i => (2, i))) ++ ((List.range 16).map (fun i => (3, i)))

/-- At the boundary that closes capture tick t: adoption begins or ends, and partner-owned inputs take the shared samples; an ASRC channel
does so when its job runs. -/
def Dev.shareBoundary (d : Dev) (t : Nat) : Dev :=
  if !d.ebit Off.TWN_CTL 31 then d
  else
    let adopt := d.ebit Off.TWN_CTL 30 && d.twn.failed && !d.twn.present
    let begins := adopt && !d.twn.adopting
    let ends := !adopt && d.twn.adopting
    let d := d.setTwn { d.twn with adopting := adopt, xfadeAt := if begins || ends then t + 1 else d.twn.xfadeAt }
    forL (shareInputs.filter (fun p => d.partnerOwns p.1 p.2)) (fun p d =>
      let ns := d.shareNs p.1
      if p.1 = 2 then d
      else if d.sharedIn p.1 p.2 then
        let own := (List.range ns).map (fun k => d.sget (shareSig p.1 p.2) (t * ns + k))
        (d.sputs (Sig.own p.1 p.2) (t * ns) own).useShare p.1 p.2 t
      else if begins then
        d.putShare p.1 p.2 t ((List.range ns).map (fun k => xfadeAt ns k 0 (d.sget (shareSig p.1 p.2) (t * ns + k))))
      else d) d

/-- SHARED_LATE at the render deadline: of each kind, the first input that a source slot names and that has not arrived. -/
def Dev.shareLate (d : Dev) : Dev :=
  if !d.twnOn || !d.twn.present || !d.rendering then d
  else
    let t := d.clk.tick - 1
    let named := d.tabE.filterMap (fun e =>
      if 0x1C40000 ≤ e.1 ∧ e.1 < 0x1C42000 ∧ e.1 % 4 = 3 then some (d.srcSlot ((e.1 - 0x1C40000) / 4)) else none)
    forL [1, 2, 3] (fun kind d =>
      match (named.filter (fun w => w / 2 ^ 24 == kind + 3)).map (fun w => w % 65536) |>.filter
          (fun i => d.sharedIn kind i && !d.shareArrived kind i t) with
      | [] => d
      | i :: is_ => d.raise 0x0D0F 0 (kind * 65536 + is_.foldl min i)) d

/-! ### The District (R286 to R289) -/

def Dev.dstOn (d : Dev) : Bool := d.ebit Off.TWN_CTL 28
def Dev.dstLead (d : Dev) : Bool := d.bit Off.TWN_DST_CFG 31
def Dev.sharedFeeds (d : Dev) : List Nat := (List.range 512).filter (fun f => (d.dstHome f).isSome)
/-- Feeds a frame carries without jumbo frames. -/
def Dev.dstFeeds (d : Dev) : Nat := if d.div.rate96 then 11 else 22

/-- The payload of one District frame. -/
def Dev.dstFrame (d : Dev) (valid : Bool) (t first : Nat) (fs : List Nat) : List Byte :=
  let b := leBytes 4 0x46444C43 ++ leBytes 2 1 ++ leBytes 1 d.dstMember ++ leBytes 1 d.unitByte ++ leBytes 1 d.claimNow ++
    leBytes 1 (b2n valid) ++ leBytes 2 (d.fld Off.TWN_DST_CFG 15 0) ++ leBytes 4 (d.rd Off.SYS_UNIT_HEALTH).toNat ++ leBytes 8 t ++
    leBytes 2 first ++ leBytes 2 fs.length ++ leBytes 4 (if d.dstLead then d.fld Off.TWN_DST_EXCLUDE 7 0 else 0) ++
    (fs.map (fun f => f32Bytes (d.blockOf (Sig.feedBus f) t))).flatten
  b ++ leBytes 4 (crc32c b)

/-- Runs of consecutive feeds of at most n. -/
def runsOf (n : Nat) (xs : List Nat) : List (List Nat) :=
  (xs.foldl (fun (acc : List (List Nat)) x =>
    match acc with
    | r :: rest => if r.headD 0 + 1 = x ∧ r.length < n then (x :: r) :: rest else [x] :: acc
    | [] => [[x]]) []).reverse.map List.reverse

/-- DISTRICT_FRAME_TX: the partials of capture tick t to their homes, and at least one frame to every member, also while nothing is
rendered. A UDP port of 0 sends nothing; an address not resolved is asked for (R205, R288). -/
def Dev.districtSend (d : Dev) (valid : Bool) : Dev :=
  let udp := d.fld Off.TWN_DST_NET 15 0
  if !d.dstOn || udp == 0 || d.twn.dstSent == d.clk.tick + 1 then d
  else
    let t := d.clk.tick - 1
    let ports := (List.range 4).filter (fun e => d.bit Off.TWN_DST_NET (16 + e) && d.linkUp e)
    let d := forN 8 (fun m d =>
      if m = d.dstMember then d
      else
        let ips := ([(d.rd (Off.TWN_DST_IP_A m)).toNat, (d.rd (Off.TWN_DST_IP_B m)).toNat].filter (fun ip => ip != 0)).eraseDups
        let rs := if d.rendering then runsOf d.dstFeeds (d.sharedFeeds.filter (fun f => d.dstHome f == some m)) else []
        let frames := if rs.isEmpty then [d.dstFrame valid t 0 []] else rs.map (fun r => d.dstFrame valid t (r.headD 0) r)
        forL ips (fun ip d => forL ports (fun e d => match d.destMac e ip with
          | none => d.arpAsk e ip
          | some mac => forL frames (fun f d => d.emit (.udp e (d.datagram e mac ip udp 0 64 f))) d) d) d) d
    d.setTwn { d.twn with
      dstSent := d.clk.tick + 1
      excludes := if d.dstLead then mset (fun _ => 0) d.twn.excludes t (d.fld Off.TWN_DST_EXCLUDE 7 0 + 1) else d.twn.excludes }

/-- Are the partials of the current compute tick formed: no job that writes a feed bus is still to be released? -/
def Dev.partialsFormed (d : Dev) : Bool :=
  !d.icx.jobs.any (fun j => (j.kind == 0x10 || j.kind == 0x11 || j.kind == 0x50) && j.key.tick == d.clk.tick && !j.st.over)

def partialRank (w : Nat) : Nat := (w - 1) / 4 * 2 + (if (w - 1) % 4 = 0 then 1 else 0)

/-- DISTRICT_FRAME_RX: through some port that has its link (R193). -/
def Dev.districtTake (d : Dev) (f : List Byte) : Dev :=
  let n := fWord f 26 2
  let m := fByte f 6
  if !d.dstOn ∨ netPorts.all (fun e => !d.linkUp e) = true ∨ f.length ≠ 36 + 4 * n * d.L ∨ 64 < n ∨ fWord f 0 4 ≠ 0x46444C43 ∨ fWord f 4 2 ≠ 1 ∨ 8 ≤ m ∨ m = d.dstMember ∨
      fWord f 10 2 ≠ d.fld Off.TWN_DST_CFG 15 0 ∨ crc32c (f.take (32 + 4 * n * d.L)) ≠ fWord f (32 + 4 * n * d.L) 4 then d
  else
    let ct := fWord f 16 8
    let t := d.twn
    let mask := fWord f 28 4 % 256
    let d := d.setTwn { t with
      memberAt := mset (fun _ => 0) t.memberAt m (d.clk.tick + 1)
      memberHealth := mset (fun _ => 0) t.memberHealth m (fWord f 12 4 + 1) }
    let d := if mask ≠ 0 ∨ d.twn.lead = m + 1 then
        d.setTwn { d.twn with
          lead := m + 1
          exclude := mask
          excludes := mset (fun _ => 0) d.twn.excludes ct (mask + 1) }
      else d
    if fByte f 9 % 2 = 0 ∨ ct + 1 < d.clk.tick then d
    else forN n (fun i d =>
      let feed := fWord f 24 2 + i
      let key := 512 * ct + feed
      let u := fByte f 7
      let new := 1 + 4 * fByte f 8 + (if u ≤ 1 then u else 2)
      let held := mget (fun _ => []) d.twn.partial_ m
      let old := mget (fun _ => 0) held key
      if 512 ≤ feed ∨ (old ≠ 0 ∧ partialRank new ≤ partialRank old) then d
      else
        let vs := (List.range d.L).map (fun k => fReal f (32 + 4 * (i * d.L + k)))
        (d.setTwn { d.twn with partial_ := mset (fun _ => []) d.twn.partial_ m (mset (fun _ => 0) held key new) }).sputs
          (Sig.partial_ m feed) (ct * d.L) vs) d

/-- The exclusion mask for partials of capture tick ct (R289): the one in the lead's frame of that tick, which the lead itself uses too. -/
def Dev.dstMask (d : Dev) (ct : Nat) : Nat :=
  let m := mget (fun _ => 0) d.twn.excludes ct
  if m ≠ 0 then m - 1 else if d.dstLead then d.fld Off.TWN_DST_EXCLUDE 7 0 else d.twn.exclude

/-- A member of the District: it has been heard, or it has an address. -/
def Dev.dstKnown (d : Dev) (m : Nat) : Bool :=
  mget (fun _ => 0) d.twn.memberAt m != 0 || d.rd (Off.TWN_DST_IP_A m) != 0 || d.rd (Off.TWN_DST_IP_B m) != 0

/-- Is member m's partial of feed f for capture tick ct there (R287)? -/
def Dev.partialValid (d : Dev) (m f ct : Nat) : Bool :=
  m == d.dstMember || mget (fun _ => 0) (mget (fun _ => []) d.twn.partial_ m) (512 * ct + f) != 0

/-- DISTRICT_SUM: one shared feed in compute tick t + 1, from the partials of capture tick t − 1. -/
def Dev.districtSum (d : Dev) (f t : Nat) (fade : Bool) : Dev :=
  if d.dstHome f ≠ some d.dstMember then d
  else
    let ct := t - 1
    let mask := d.twn.maskUsed
    let vs := (List.range d.L).map (fun k => (List.range 8).foldl (fun (s : F32) m =>
      if mask / 2 ^ m % 2 = 1 || !d.partialValid m f ct then s
      else fadd s (d.sget (if m = d.dstMember then Sig.feedBus f else Sig.partial_ m f) (ct * d.L + k))) 0)
    d.sputs (Sig.district f) (t * d.L) (fadeBlock fade d.L vs)

/-- DISTRICT_SUM_INPUT at the boundary of compute tick n: the mask of its sums, and the partials of capture tick n − 2 still missing
(R287), an absent member's among them. A member number with no address that has never been heard is no member. -/
def Dev.districtInput (d : Dev) (n : Nat) : Dev :=
  if !d.dstOn || !d.rendering || !d.playing then d
  else
    let ct := n - 2
    let mask := d.dstMask ct
    let mine := d.sharedFeeds.filter (fun f => d.dstHome f == some d.dstMember)
    let d := forN 8 (fun m d =>
      if m = d.dstMember || mask / 2 ^ m % 2 = 1 || !d.dstKnown m then d
      else match mine.filter (fun f => !d.partialValid m f ct) with
        | [] => d
        | f :: fs => (d.bumpN Off.TWN_DST_LATE_CNT (fs.length + 1)).raise 0x0D0C 0 (m * 65536 + f)) d
    let t := d.twn
    d.setTwn { t with
      maskUsed := mask
      partial_ := t.partial_.map (fun (e : Nat × NMap Nat) => (e.1, mkeep (fun k => decide (512 * ct ≤ k)) e.2)) |>.filter (fun e => !e.2.isEmpty)
      excludes := mkeep (fun k => decide (ct ≤ k)) t.excludes }

/-- DISTRICT_MEMBER: absence after 8 ticks without a frame, and return (R289). -/
def Dev.districtMember (d : Dev) (m : Nat) : Dev :=
  let at_ := mget (fun _ => 0) d.twn.memberAt m
  if !d.dstOn ∨ at_ = 0 then d
  else if !d.twn.absent.contains m ∧ at_ + 7 ≤ d.clk.tick then
    (d.setTwn { d.twn with absent := m :: d.twn.absent }).raise 0x0D0D 0 (256 + m)
  else if d.twn.absent.contains m ∧ d.clk.tick < at_ + 7 then
    (d.setTwn { d.twn with absent := d.twn.absent.filter (fun x => x != m) }).raise 0x0D0D 0 m
  else d

/-- The lead derives SYS_DISTRICT_HEALTH from the words its members sent in the last tick (R22, R289). A member with an address that has
never been heard has not joined and is ABSENT; the District's fence is the lead's Closure (R20). -/
def Dev.districtHealth (d : Dev) : Dev :=
  let words := d.twn.memberHealth
  let d := d.setTwn { d.twn with memberHealth := [] }
  if !d.dstOn || !d.dstLead then d
  else
    let own := (d.rd Off.SYS_UNIT_HEALTH).toNat
    let others := (List.range 8).filterMap (fun m =>
      let word := mget (fun _ => 0) words m
      if m = d.dstMember ∨ d.dstKnown m = false then none
      else if mget (fun _ => 0) d.twn.memberAt m = 0 ∨ d.twn.absent.contains m = true then some (4 * 2 ^ 29 + 255)
      else if word = 0 then none else some (word - 1))
    d.wrN Off.SYS_DISTRICT_HEALTH (groupHealth d.pipe.closure.isSome d.rendersNow (own :: others))

/-! ### RENDER_DEADLINE (R14, R272) -/

/-- The render deadline of the current compute tick passes. -/
def Dev.renderDeadline (d : Dev) : Dev :=
  if d.clk.past || !d.clk.valid then d
  else
    let d := { d with clk := { d.clk with past := true } }
    let d := d.shareLate.courierSend
    (d.compareSend.gateBlocksSend).districtSend d.partialsFormed

end Sys2Proof.Machine
end

