-- ==== Sys2Proof/Machine/Kernels.lean ====
section
/-! DEFINITION. The kernels: which items a job may name, what each item does (R139), and the writes of a job at its release or
their loss at its retirement (R146, R148). -/

namespace Sys2Proof.Machine

/-- Is item i within the range of a kernel (R139)? A code or a parameter outside the table has no items. -/
def Dev.itemOk (d : Dev) (kind : Nat) (params : List Nat) (i : Nat) : Bool :=
  let p0 := params.getD 0 0
  match kind with
  | 0x01 | 0x02 | 0x03 => decide (i < 1024)
  | 0x10 => if p0 = 0 then decide (i < 2048) else decide (p0 = 1) && busValid i
  | 0x11 => decide (p0 < 16) && decide (i < d.lSpk p0)
  | 0x20 | 0x30 | 0x60 => decide (i < 512)
  | 0x21 | 0x22 | 0x23 => decide (1 ≤ p0) && decide (p0 ≤ 3) && decide (i < 512)
  | 0x31 | 0x70 => decide (i < 16)
  | 0x40 => decide (p0 < 2) && decide (i < 2048)
  | 0x41 => decide (i < 44)
  | 0x42 => decide (i < 64)
  | 0x50 => decide (i < 8)
  | _ => false

/-- Does the job name an item outside its kernel's range? It then ends with FAULT (R139). -/
def Dev.jobBad (d : Dev) (j : Job) : Bool :=
  (List.range j.count).any (fun i => !d.itemOk j.kind j.params (j.key.first + i))

/-- One item of a job, for capture tick t = compute tick − 1. -/
def Dev.kernelItem (d : Dev) (j : Job) (i : Nat) : Dev :=
  let t := j.key.tick - 1
  let p := fun k => j.params.getD k 0
  match j.kind with
  | 0x01 => d.geomPan i
  | 0x02 => d.geomWave i
  | 0x03 => d.geomHead i
  | 0x10 => d.streetMixItem i (p 0) t j.fade
  | 0x11 => d.decorItem (p 0) i t j.fade
  | 0x20 => d.convDirectItem i t j.fade
  | 0x21 => d.convPartItem i (p 0) (p 1) (p 2) t false
  | 0x22 => d.fftFwdItem i (p 0) t
  | 0x23 => d.fftInvItem i (p 0) t
  | 0x30 => d.outCondItem i t j.fade
  | 0x31 => d.bassItem i t j.fade
  | 0x40 =>
    let d := d.rbtItem i t (p 0 == 0) j.fade
    match dstEndpoint (d.dstSlot i) with
    | some (6, o) => if p 0 = 0 then d.farWrite o t else d
    | _ => d
  | 0x41 => d.bridgeItem i t j.fade
  | 0x42 => d.asrcItem i t j.fade
  | 0x50 => d.headConvItem i t j.fade
  | 0x60 => d.districtSum i t j.fade
  | 0x70 => d.measItem i j.key.tick j.started
  | _ => d

/-- Indexes of a ring of 32-bit samples of `size` at byte address `base`, as the granules they lie in. -/
def ringGranules (base size : Nat) (ms : List Nat) : List Nat := (ms.map (fun m => (base + 4 * (m % size)) / 128)).eraseDups
/-- `n` granules from g on. -/
def granuleRun (g n : Nat) : List Nat := (List.range n).map (fun i => g + i)

/-- Granules of the far rings that a Street's taps reach in capture tick t (R96, R105). -/
def Dev.streetReads (d : Dev) (i t : Nat) : List Nat :=
  let o := d.strObj i
  let x := d.street i
  let tg := d.strTargets i
  if (isZero x.cur && isZero (d.strGain i)) || !d.farOk o then []
  else
    let ends := [tg.1 + tg.2.1 / 65536] ++ (if isZero x.cur then [] else [x.base + x.delay / 65536])
    let lo := (ends.foldl min (ends.headD 0)) - 1
    let hi := min (ends.foldl max 0 + 2) (d.reach o - 1)
    let first := max 4096 lo
    let n0 := t * d.L
    ringGranules (d.oFarBase o * 128) (d.farLen o)
      (((List.range (hi + d.L - first)).map (fun i => first + i)).filterMap (fun (a : Nat) =>
        let m : Int := ((n0 + d.L - 1 : Nat) : Int) - (a : Int)
        if m < mget (fun _ => 0) d.geo.histFrom o ∨ m < d.geo.firstCap.getD 0 * d.L then none else some m.toNat))

/-- Granules that the terms of a CONV_PART item read: each term's part of the filter, and the spectrum it meets (R114, R119). -/
def Dev.convReads (d : Dev) (f s hi lo t : Nat) : List Nat :=
  let ks := ((List.range (min hi 15 + 1 - lo)).map (fun i => lo + i)).reverse
  if s < 2 then []
  else (d.banksAt f t).flatMap (fun b =>
    let len := d.bankLen f b
    if segP len s = 0 then []
    else (d.openBlocks f s t).flatMap (fun p =>
      let a := d.accBegun f s b p
      let done := (d.macRun f s b p ks).1.rem
      if (d.accAt f s b p).done then []
      else (List.range (a.rem - done)).flatMap (fun i =>
        let k := done + i
        let far := d.bankFar f b
        let m := p - segLag s - k
        (if s = 2 then granuleRun (far + 16 * k) 16 else granuleRun (far + 16 * segP len 2 + 128 * k) 128) ++
          (if segP (d.xlen f) s ≤ k ∨ p < segLag s + k then [] else granuleRun (d.specGranule f s m) (if s = 2 then 16 else 128)))))

/-- Granules that a HEAD_CONV item reads: the far part of its set and the histories of its buses (R125). -/
def Dev.headReads (d : Dev) (i t : Nat) : List Nat :=
  match d.headLayout i with
  | none => []
  | some l =>
    let set := d.te16 (layBase l + 0x88)
    let cap := d.hrirCap set
    let p2 := segP (min (d.hrirLen l) cap) 2
    let buses := ((List.range (d.lSpk l)).filterMap (fun s => if d.sFeed l s < 32 then some (32 * i + d.sFeed l s) else none)).eraseDups
    if p2 = 0 then []
    else buses.flatMap (fun h =>
      let g := (d.re (Off.RCF_H_FAR set)).toNat + 16 * segP cap 2 * (2 * (h % 32))
      granuleRun g (32 * segP cap 2) ++
      (List.range 4).flatMap (fun k =>
        if (mget (fun _ => []) d.conv.hx h).contains (t * d.L / 256 - k) then granuleRun (d.headGranule h (t * d.L / 256 - k)) 16 else []))

/-- Granules that an OUT_COND item reads: its delay ring, and in a crossfade the ring it leaves (R131). -/
def Dev.delayReads (d : Dev) (f t : Nat) : List Nat :=
  let s := d.outSt f
  let go := fun (cap base from_ dl : Nat) =>
    if cap = 0 ∨ d.ringBad cap base = true then []
    else ringGranules (base * 128) (cap * 4096) (((List.range (min d.L dl)).filterMap (fun k =>
      if t * d.L + k < dl + from_ then none else some (t * d.L + k - dl))))
  let dl := d.feedDelay f
  go (d.feedCap f) (d.feedBase f) s.ringFrom dl ++ (if s.seen && s.delay != dl then go s.cap s.base s.ringFrom s.delay else [])

/-- Granules that a MEAS_XSPEC item reads: its frame of both rings and the tables it goes on from (R235, R237). -/
def Dev.measReads (d : Dev) (e n : Nat) : List Nat :=
  if !d.estEn e || !d.measOk then []
  else
    let a := estArea d e
    let dl := min 4096 (getBits (d.re (Off.LPO_EST_CFG e)) 12 0)
    let jf := 16 * n - 1
    let frame := fun (base back : Nat) => ringGranules base 16384 ((List.range 256).map (fun k => jf + 16384 - back - 32 * k))
    frame a dl ++ frame (a + 0x10000) 0 ++ granuleRun ((a + 0x20000) / 128) 512

/-- Granules of SDRAM that one item of a job reads. -/
def Dev.itemReads (d : Dev) (j : Job) (i : Nat) : List Nat :=
  let t := j.key.tick - 1
  let p := fun k => j.params.getD k 0
  match j.kind with
  | 0x10 => if p 0 = 0 then ((d.laneStreets i).flatMap (fun s => d.streetReads s t)).eraseDups else []
  | 0x21 => d.convReads i (p 0) (p 1) (p 2) t
  | 0x30 => d.delayReads i t
  | 0x50 => d.headReads i t
  | 0x70 => d.measReads i j.key.tick
  | _ => []

/-- The Quarter whose Square ran a job, as the requester of its accesses (R292). -/
def Job.requester (j : Job) : Nat := match j.grant with
  | some sq => sq / 8
  | none => j.prefq

/-- One item: what it reads is decoded (R301), then it does its work. -/
def Dev.runItem (d : Dev) (j : Job) (i : Nat) : Dev := ((d.by j.requester).sdSeen (d.itemReads j i)).kernelItem j i

/-- The writes of a released job (R145, R146). -/
def Dev.runJob (d : Dev) (j : Job) : Dev :=
  let d := if j.kind = 1 ∨ j.kind = 2 ∨ j.kind = 3 then d.geoClear j.key.tick else d
  let d := forN j.count (fun i d => d.runItem j (j.key.first + i)) d
  if j.kind = 0x42 then d.shareAsrcSend j.key.first j.count (j.key.tick - 1) else d

/-- What a retired job leaves: every value it was to write for its block reads 0.0, and kernel state stays as it was (R148). Most
values are written by one job only and so read 0.0 already; a bus that an earlier job formed, and the target gains of the tick before,
do not. -/
def Dev.loseJob (d : Dev) (j : Job) : Dev :=
  let t := j.key.tick - 1
  let d := if j.kind = 1 ∨ j.kind = 2 ∨ j.kind = 3 then d.geoClear j.key.tick else d
  let zero := fun (d : Dev) (b : Nat) => d.sputs (Sig.feedBus b) (t * d.L) (List.replicate d.L 0)
  forN j.count (fun k d =>
    let i := j.key.first + k
    match j.kind with
    | 0x11 => match d.sBus (j.params.getD 0 0) i with
      | some b => if d.itemOk j.kind j.params i then zero d b else d
      | none => d
    | 0x01 | 0x02 | 0x03 => d.geoLost i j.kind
    | 0x21 | 0x22 | 0x23 => d.convLost j.kind i (j.params.getD 0 0) (j.params.getD 1 0) (j.params.getD 2 0) t
    | 0x50 => match d.headLayout i with
      | some l =>
        let d := forN (d.lSpk l) (fun s d => if d.sFeed l s < 32 then d.headLost (32 * i + d.sFeed l s) t else d) d
        forN 2 (fun e d =>
          let f := d.te16 (layBase l + 0x84 + 2 * e)
          if f < 512 then zero d f else d) d
      | none => d
    | _ => d) d

/-- The order in which a flow's sequences and their parts are written. -/
def Job.before (a b : Job) : Bool :=
  decide (a.key.tick < b.key.tick) || (a.key.tick == b.key.tick &&
    (decide (a.key.sub < b.key.sub) || (a.key.sub == b.key.sub && decide (a.key.first ≤ b.key.first))))

/-- Insertion in that order. -/
def jobInsert (j : Job) : List Job → List Job
  | [] => [j]
  | x :: xs => if Job.before x j then x :: jobInsert j xs else j :: x :: xs

/-- The jobs over whose writes have been neither made nor lost, in sequence order. -/
def Dev.toSettle (d : Dev) : List Job := (d.icx.jobs.filter (fun j => j.st.over && !j.ran)).foldl (fun acc j => jobInsert j acc) []

/-- Make or lose the writes of every job that has just been released or retired. -/
def Dev.settleJobs (d : Dev) : Dev :=
  forL d.toSettle (fun j d =>
    let d := d.setJob j.key (fun j => { j with ran := true })
    if j.st == .released then d.runJob j else d.loseJob j) d

/-- After a release within a tick, what was waiting for it is sent: Gate blocks, and the District partials once all are formed
(R267, R287). -/
def Dev.afterRelease (d : Dev) : Dev :=
  let d := d.abortPoll
  if d.toSettle.isEmpty then d
  else
    let d := d.settleJobs.gateBlocksSend
    if d.partialsFormed then d.districtSend true else d

/-- The block of capture tick t of every active object: 0.0 in the far ring until its input is routed (R95, R148). -/
def Dev.historyStart (d : Dev) (t : Nat) : Dev := forL d.activeObjects (fun o d => d.farWrite o t) d

/-- KERB_PREFETCH. -/
def Dev.kerbPrefetch (d : Dev) (sq part : Nat) : Dev := d.prefetch sq part

/-- Does an item of a job read a shared sample that has not arrived (R274)? The kernels that read inputs are RBT_MIX, through its crosspoints
and an object's source, BRIDGE and MEAS. -/
def Dev.itemAwaits (d : Dev) (j : Job) (i : Nat) : Bool :=
  let t := j.key.tick - 1
  let src := fun (slot : Nat) =>
    let w := d.srcSlot slot
    decide (4 ≤ w / 2 ^ 24) && decide (w / 2 ^ 24 ≤ 6) && d.shareAwaited (w / 2 ^ 24 - 3) (w % 65536) t
  match j.kind with
  | 0x40 =>
    (d.usedXps.filter (fun x => decide (d.xpDst x = i))).any (fun x => src (d.xpSrc x)) ||
      (match dstEndpoint (d.dstSlot i) with
       | some (6, o) => src (d.te16 (0x1000000 + 128 * o + 4))
       | _ => false)
  | 0x41 => decide (i < 16) && d.shareAwaited 3 i t
  | 0x70 => d.shareAwaited 3 (d.efld (Off.LPO_EST_CFG i) 27 24) t
  | _ => false

/-- One completion report: a job that names an item out of range reports FAULT and nothing else (R139), and one that an abort stops
ABORTED (R352). A job that waits for a shared sample is not DONE: its Square reports that later (R274). -/
def Dev.completionReport (d : Dev) (sq status : Nat) (ue : Bool) (runNs : Nat) : Dev :=
  let awaits := (d.square sq).run.bind d.job |>.elim false (fun j => (List.range j.count).any (fun i => d.itemAwaits j (j.key.first + i)))
  let bad := match (d.square sq).run.bind d.job with
    | some j => d.jobBad j
    | none => false
  let stops := !ue && ((d.square sq).run.elim false (fun k => d.icx.stopping.contains k))
  (if stops then d.report sq 2 false runNs else if bad && status == 0 then d.report sq 1 false runNs
   else if awaits && status == 0 then d else d.report sq status ue runNs).afterRelease

/-- COMPLETION_REPORT. Of two DONE reports for one job in one cycle the lower-numbered Square's is answered first (R145, R158). -/
def Dev.reports (d : Dev) (sq status : Nat) (ue : Bool) (runNs : Nat) (twin : Option (Nat × Nat)) : Dev :=
  match twin with
  | none => d.completionReport sq status ue runNs
  | some (sq2, ns2) =>
    if status = 0 && sq != sq2 && (d.square sq).run.isSome && (d.square sq2).run == (d.square sq).run then
      if sq < sq2 then (d.completionReport sq 0 ue runNs).completionReport sq2 0 false ns2
      else (d.completionReport sq2 0 false ns2).completionReport sq 0 ue runNs
    else d.completionReport sq status ue runNs

/-- WRITE_BACK_END of a granted job. -/
def Dev.writeBackEnd (d : Dev) (k : JobKey) : Dev :=
  match d.job k with
  | none => d
  | some j => if j.st == .writing && !j.written then (d.writeBackDone k).afterRelease else d

end Sys2Proof.Machine
end

