-- ==== Sys2Proof/Machine/Drive.lean ====
section
/-! DEFINITION. The Reference Drive (file 15): the signal path per D sample, sag limiter, fold-back, start and stop,
protection and retry. -/

namespace Sys2Proof.Machine

/-- ln 10 in units of 2⁻⁶⁰⁰, rounded down. -/
def ln10Fix : Nat := 9554612692052081550439256425322072006353752955401799662095204757635567874623375652769565750185738919109284191429431106128305810908744935793461934551250481312989553675672496237013659

def drvChannels : List Nat := List.range 12
def Dev.drvCh (d : Dev) (c : Nat) : DrvCh := mget (fun _ => DrvCh.init) d.drv.ch c
def Dev.setDrvCh (d : Dev) (c : Nat) (x : DrvCh) : Dev :=
  { d with drv := { d.drv with ch := mset (fun _ => DrvCh.init) d.drv.ch c x } }

def Dev.drvTripped (d : Dev) (c : Nat) : Bool := d.bit (Off.DRV_CH_STAT c) 30
def Dev.drvLatched (d : Dev) (c : Nat) : Bool := d.bit (Off.DRV_CH_STAT c) 29
/-- A supply limit or a thermal shutdown is in force. -/
def Dev.drvHeld (d : Dev) : Bool := decide (d.fld Off.DRV_STAT 31 29 ≠ 0)
/-- EN of the channel and of the Drive. -/
def Dev.drvWanted (d : Dev) (c : Nat) : Bool := d.ebit (Off.DRV_CH_CFG c) 31 && d.bit Off.DRV_CTL 31

/-- DRV_STAT.OFF follows trips and latches. -/
def Dev.drvOff (d : Dev) : Dev :=
  d.setFld Off.DRV_STAT 19 8 (drvChannels.foldl (fun a c => if d.drvTripped c || d.drvLatched c then a + 2 ^ c else a) 0)

/-- The phase of a channel, with RUN (R244, R245). -/
def Dev.drvPhase (d : Dev) (c ph : Nat) : Dev :=
  (d.setDrvCh c { d.drvCh c with ph := ph }).setBit (Off.DRV_CH_STAT c) 31 (ph != 0)

/-- A start under R244. -/
def Dev.drvBegin (d : Dev) (c : Nat) : Dev := (d.setDrvCh c { d.drvCh c with gs := fone, limited := 0 }).drvPhase c 1

/-- CHANNEL_START. -/
def Dev.drvStart (d : Dev) (c : Nat) : Dev :=
  if d.drvWanted c && !d.drvHeld && !d.drvTripped c && !d.drvLatched c && (d.drvCh c).ph == 0 then d.drvBegin c else d

/-- CM_RAMP_DONE: up, the signal waits for the boundary; down, the channel enters the off state, from which it starts if EN is 1 again. -/
def Dev.drvRampDone (d : Dev) (c : Nat) : Dev :=
  if (d.drvCh c).ph = 1 then d.drvPhase c 2 else if (d.drvCh c).ph = 6 then (d.drvPhase c 0).drvStart c else d

/-! ### The signal path (R239 to R242) -/

/-- VFS in volts. -/
def Dev.drvVfs (d : Dev) (c : Nat) : F32 := fmul (fofNat (min 160 (d.efld (Off.DRV_CH_CFG c) 7 0))) 0x3E800000
/-- A gain for an attenuation in units of 0.025 dB. -/
def attGain (a : Nat) : F32 := roundFix (expNegFix (a * ln10Fix) (800 * 2 ^ 600))

/-- D sample i of DRIVE destination c after its Gate and the H→D Bridge (R239): the BRIDGE item's where the Gate has played the local block
unchanged in the samples it depends on, else the interpolation of what the Gate played; a block flagged invalid gives 0.0. -/
def Dev.drvIn (d : Dev) (c i : Nat) : F32 :=
  let key := 4 * 65536 + c
  let n := i / 128
  let same := (List.range (2 * d.L)).all (fun k =>
    d.sgetI (Sig.gateOut key) (((n + 1) * d.L : Nat) - 1 - (k : Int)) == d.sgetI (Sig.dest key) (((n + 1) * d.L : Nat) - 1 - (k : Int) - (2 * d.L : Nat)))
  if mget (fun _ => 0) d.pipe.gateSrc key = 0 then 0
  else if same then d.sgetI (Sig.drive c) ((i : Int) - 256)
  else d.interpolate (Sig.gateOut key) i

/-- x of R239 for D sample i of channel c, with the fade of R244. -/
def Dev.drvX (d : Dev) (c i : Nat) : F32 :=
  let ph := (d.drvCh c).ph
  let x := d.drvIn c i
  let k := i % 128
  if ph = 4 then x
  else if ph = 3 then fmul x (tickW k 128)
  else if ph = 5 then (if k = 127 then 0 else fmul x (fsub fone (tickW k 128)))
  else 0

/-- One D sample of one channel: the state after it, and m. -/
def Dev.drvSample (d : Dev) (c i : Nat) (vin : F32) : Dev × F32 :=
  let s := d.drvCh c
  let k := i % 128
  let gf := if k = 127 then d.drv.gfNew else ffma (tickW k 128) (fsub d.drv.gfNew d.drv.gfOld) d.drv.gfOld
  let xv := fmul (fmul (d.drvX c i) gf) (d.drvVfs c)
  let cfg := d.rd Off.DRV_SAG_CFG
  let lim := fmul vin (fdiv (fofNat (max 128 (getBits cfg 31 24))) (fofNat 256))
  let a := fabs xv
  let gt := if fle a lim then fone else fdiv lim a
  let ca := roundFix (expNegFix 10000 (max 1 (min 100 (getBits cfg 6 0)) * 384000))
  let cr := roundFix (expNegFix 1000 (max 10 (min 2000 (getBits cfg 23 12)) * 384000))
  let gs := if flt gt s.gs then ffma ca (fsub s.gs gt) gt else ffma cr (fsub s.gs gt) gt
  let u := fmul (fmul (fmul (d.drvX c i) gs) gf) (d.drvVfs c)
  let m := fdiv u vin
  let clip := flt fone (fabs m)
  let d := d.setDrvCh c { s with gs := gs }
  (if clip then d.bump (Off.DRV_CH_CLIP c) else d, if clip then (if fsign m then fneg fone else fone) else m)

/-- DRIVE_SAG: the mask of channels below 0.99 (R241). -/
def Dev.drvSag (d : Dev) : Dev :=
  let mask := drvChannels.foldl (fun a c => if (d.drvCh c).ph ≠ 0 ∧ flt (d.drvCh c).gs 0x3F7D70A4 = true then a + 2 ^ c else a) 0
  let was := d.bit Off.DRV_STAT 27
  if mask ≠ 0 ∧ was = false then (d.setBit Off.DRV_STAT 27 true).raise 0x0C03 0 mask
  else if mask = 0 ∧ was = true then (d.setBit Off.DRV_STAT 27 false).raise 0x0C03 0 0
  else d

/-- VIN_MEASURE: VIN in mV, held for the 8 D samples that follow (R240, R241); the terminals show their duties 32 D samples later (R239). -/
def Dev.vinTake (d : Dev) (mv : Nat) : Dev :=
  let d := d.setFld Off.DRV_VIN 15 0 (min mv 65535)
  let d := d.setFld Off.DRV_VIN 31 16 (min (d.fld Off.DRV_VIN 31 16) (min mv 65535))
  let vin := roundRatio mv 1000
  let run := drvChannels.filter (fun c => (d.drvCh c).ph != 0)
  let r := (List.range 8).foldl (fun (st : Dev × List (Nat × F32)) k =>
    let i := st.1.drv.pos + k
    let one := run.foldl (fun (st : Dev × List (Nat × F32)) c =>
      let e := st.1.drvSample c i vin
      (e.1, st.2 ++ [(c, e.2)])) st
    (one.1.drvSag, one.2)) (d, [])
  let pos := d.drv.pos
  let d := forL run (fun c d =>
    let ms := (r.2.filter (fun e => e.1 == c)).map (fun e => e.2)
    let duty := ((List.range ms.length).zip ms).map (fun (e : Nat × F32) => (Config.duty c (pos + e.1) e.2).toNat)
    d.emit (.drive c (pos + 32) (d.ebit (Off.DRV_CH_CFG c) 30) duty)) r.1
  { d with drv := { d.drv with pos := d.drv.pos + 8 } }

/-! ### Boundaries (R242, R244) -/

/-- Pc after a tick in which the channels measured these powers, in mW: the average of their sum with a time constant of 1 s (R242). -/
def avgPower (pc : F32) (mw : List Nat) : F32 :=
  let p := roundRatio (mw.foldl (· + ·) 0 : Nat) 1000
  ffma (roundFix (expNegFix 1 3000)) (fsub pc p) p
/-- Pc in units of 0.01 W. -/
def centiwatts (pc : F32) : Nat := fmag pc * 100 / 2 ^ 149

/-- FOLDBACK_UPDATE: temperature in 0.125 °C, the channels' powers in mW. -/
def Dev.foldback (d : Dev) (temp : Int) (mw : List Nat) : Dev :=
  let pc := avgPower d.drv.pc mw
  let d := d.setFld Off.DRV_TEMP 15 0 (toSigned 16 temp)
  let d := if signedOf 16 (d.fld Off.DRV_TEMP 31 16) < temp then d.setFld Off.DRV_TEMP 31 16 (toSigned 16 temp) else d
  let d := d.wrN Off.DRV_PWR (min (centiwatts pc) 65535)
  let th := 5 * (max 0 (min 96 (temp - 1000))).toNat
  let pa := if flt (fofNat 120) pc then min 240 (d.drv.powAtt + 1) else if flt pc (fofNat 114) then d.drv.powAtt - 1 else d.drv.powAtt
  let att := max th (2 * pa)
  let was := d.drv.att
  let d := { d with drv := { d.drv with pc := pc, powAtt := pa, att := att, gfOld := d.drv.gfNew, gfNew := attGain att } }
  let d := (d.setFld Off.DRV_STAT 6 0 (att / 4)).setBit Off.DRV_STAT 28 (att != 0)
  let src := if th < 2 * pa then 256 else 0
  if was = 0 ∧ att ≠ 0 then d.raise 0x0C02 0 (2 ^ 31 + src + att / 4)
  else if was ≠ 0 ∧ att = 0 then d.raise 0x0C02 0 0
  else d

/-- The phases that move at a boundary (R244). -/
def Dev.drvBoundary (d : Dev) (n : Nat) : Dev :=
  let d := forL drvChannels (fun c d =>
    let x := d.drvCh c
    let want := d.drvWanted c
    if x.ph = 5 then d.drvPhase c 6
    else if !want && (x.ph == 3 || x.ph == 4) then d.drvPhase c 5
    else if !want && (x.ph == 1 || x.ph == 2) then d.drvPhase c 6
    else if x.ph = 2 then (d.setDrvCh c { x with runAt := d.nsNow }).drvPhase c 3
    else if x.ph = 3 then d.drvPhase c 4
    else d) d
  { d with drv := { d.drv with pos := 128 * n } }

/-- DRV_CH_CFG established: EN = 0 clears a waiting retry and the count (R250). -/
def Dev.drvEstablished (d : Dev) (c : Nat) (new : Word) : Dev :=
  if new.getLsbD 31 then d
  else
    let d := if d.drvTripped c then (d.setBit (Off.DRV_CH_STAT c) 30 false).setFld (Off.DRV_CH_STAT c) 26 23 0 else d
    (d.setDrvCh c { d.drvCh c with due := false }).drvOff

/-! ### Protection (R243, R246 to R250) -/

/-- ILIM of a channel in mA (R246). -/
def Dev.drvIlim (d : Dev) (c : Nat) : Nat := 2000 + 500 * min 10 (d.efld (Off.DRV_CH_CFG c) 25 22)

/-- The current limit through successive PWM periods, given their peaks and the run of limited periods before them: the halves cut in each
period, the run after it, and what trips the channel: 1 more than 16 limited periods in a row, 2 over 10 A. A trip ends it (R246). -/
def currentRun (ilim : Nat) : List (Nat × Nat) → Nat → List (Bool × Bool) × Nat × Option Nat
  | [], run => ([], run, none)
  | p :: rest, run =>
    let cut := (decide (ilim ≤ p.1), decide (ilim ≤ p.2))
    let run := if cut.1 || cut.2 then run + 1 else 0
    if 10000 < p.1 ∨ 10000 < p.2 then ([cut], run, some 2)
    else if 16 < run then ([cut], run, some 1)
    else
      let r := currentRun ilim rest run
      (cut :: r.1, r.2)

/-- A trip by a short (R246, R248). -/
def Dev.shortTrip (d : Dev) (c cause : Nat) : Dev :=
  let count := max 1 (d.fld Off.DRV_RETRY 11 8)
  let latch := decide (count ≤ d.fld (Off.DRV_CH_STAT c) 26 23)
  let d := (d.setDrvCh c { d.drvCh c with tripAt := d.nsNow, due := false, limited := 0 }).drvPhase c 0
  let d := (d.setBit (Off.DRV_CH_STAT c) (if latch then 29 else 30) true).setFld (Off.DRV_CH_STAT c) 28 27 cause
  d.drvOff.raise 0x0C01 0 (cause * 256 + (if latch then 128 else 0) + c)

/-- DRIVE_DC (R247). -/
def Dev.driveDc (d : Dev) (c : Nat) : Dev :=
  if !d.bit Off.DRV_CTL 30 || (d.drvCh c).ph == 0 then d
  else
    let d := ((d.drvPhase c 0).setBit (Off.DRV_CH_STAT c) 29 true).setFld (Off.DRV_CH_STAT c) 28 27 3
    d.drvOff.raise 0x0C04 0 c

/-- DRIVE_SHORT: the PWM periods up to now pass the current limit; a DC trip in the same cycle prevails (R246, R250). -/
def Dev.driveShort (d : Dev) (c : Nat) (peaks : List (Nat × Nat)) (dc : Bool) : Dev :=
  if (d.drvCh c).ph = 0 then d
  else
    let r := currentRun (d.drvIlim c) peaks (d.drvCh c).limited
    let d := d.setDrvCh c { d.drvCh c with limited := r.2.1 }
    let d := if r.1.any (fun h => h.1 || h.2) then d.emit (.driveCut c r.1) else d
    if dc && d.bit Off.DRV_CTL 30 then d.driveDc c
    else match r.2.2 with
      | some cause => d.shortTrip c cause
      | none => d

/-- One retry: a start that counts (R248). -/
def Dev.retryStart (d : Dev) (c : Nat) : Dev :=
  let n := d.fld (Off.DRV_CH_STAT c) 26 23
  let d := (d.setBit (Off.DRV_CH_STAT c) 30 false).setFld (Off.DRV_CH_STAT c) 26 23 (min 15 (n + 1))
  ((d.setDrvCh c { d.drvCh c with due := false }).drvOff).drvBegin c

/-- DRIVE_RETRY: the delay since the trip has expired (R248, R250). -/
def Dev.driveRetry (d : Dev) (c : Nat) : Dev :=
  let delay := min 100 (d.fld Off.DRV_RETRY 7 0)
  if !d.drvTripped c || delay == 0 || !d.drvWanted c || decide (d.nsNow < (d.drvCh c).tripAt + 100000000 * delay) then d
  else if d.drvHeld then d.setDrvCh c { d.drvCh c with due := true }
  else d.retryStart c

/-- RETRY_COUNT_RESET: 10 s of running without a trip. -/
def Dev.retryReset (d : Dev) (c : Nat) : Dev :=
  if (d.drvCh c).ph = 4 ∧ (d.drvCh c).runAt + 10000000000 ≤ d.nsNow then d.setFld (Off.DRV_CH_STAT c) 26 23 0 else d

/-- LATCHED: a write of 1 to DRV_CH_STAT.LATCHED (R248, R250). -/
def Dev.latchClear (d : Dev) (c : Nat) : Dev :=
  if !d.drvLatched c then d
  else ((d.setBit (Off.DRV_CH_STAT c) 29 false).setFld (Off.DRV_CH_STAT c) 26 23 0).drvOff.drvStart c

/-- Every channel enters the off state at once. -/
def Dev.drvAllOff (d : Dev) : Dev := forL drvChannels (fun c d => d.drvPhase c 0) d
/-- The general restart after a shutdown or supply limit (R243, R249, R250). -/
def Dev.drvRestart (d : Dev) : Dev :=
  if d.drvHeld then d
  else forL drvChannels (fun c d =>
    if !d.drvWanted c || d.drvLatched c then d
    else if d.drvTripped c then (if (d.drvCh c).due then d.retryStart c else d)
    else d.drvStart c) d

def Dev.thermalSd (d : Dev) : Dev :=
  if d.bit Off.DRV_STAT 29 then d else (d.setBit Off.DRV_STAT 29 true).drvAllOff.raise 0x0C06 0 256
def Dev.thermalRestart (d : Dev) : Dev :=
  if d.bit Off.DRV_STAT 29 then ((d.setBit Off.DRV_STAT 29 false).raise 0x0C06 0 0).drvRestart else d
def Dev.supplyLimit (d : Dev) (ovp : Bool) : Dev :=
  let b := if ovp then 30 else 31
  if d.bit Off.DRV_STAT b then d else (d.setBit Off.DRV_STAT b true).drvAllOff.raise 0x0C05 0 (256 + (if ovp then 2 else 1))
/-- DRIVE_SUPPLY_RESTART: one limit's restart condition has held; the channels start when no other holds them (R249). -/
def Dev.supplyRestart (d : Dev) (ovp : Bool) : Dev :=
  let b := if ovp then 30 else 31
  if d.bit Off.DRV_STAT b then ((d.setBit Off.DRV_STAT b false).raise 0x0C05 0 (if ovp then 2 else 1)).drvRestart else d

end Sys2Proof.Machine
end

