-- ==== Sys2Proof/Machine/Events.lean ====
section
/-! DEFINITION. The event ring (file 20): where its entries lie, how a record is written or lost, and what signals it. -/

namespace Sys2Proof.Machine

/-- XBR_OB_BASE as used: 256 GiB alignment (file 18). -/
def Dev.obBase (d : Dev) : Nat := (d.rd Off.XBR_OB_BASE_HI).toNat / 64 * 64 * 2 ^ 32

/-- The offset in Steward SRAM of an address (R306, R307). -/
def Dev.sramOff (d : Dev) (a : Nat) : Option Nat :=
  let base := if d.bit Off.SYS_CTL 0 then 0 else 0x100000
  if base ≤ a ∧ a < base + 0x100000 then some (a - base) else none
def isOutbound (a : Nat) : Bool := decide (0xC000000000 ≤ a) && decide (a < 2 ^ 40)

def Dev.evtBase (d : Dev) : Nat := d.fld Off.EVT_BASE_HI 7 0 * 2 ^ 32 + (d.rd Off.EVT_BASE_LO).toNat
/-- EVT_SIZE as used: the next lower power of two, 16 to 4,096. -/
def evtSizeUsed (v : Nat) : Nat :=
  if v < 32 then 16 else if v < 64 then 32 else if v < 128 then 64 else if v < 256 then 128 else if v < 512 then 256
  else if v < 1024 then 512 else if v < 2048 then 1024 else if v < 4096 then 2048 else 4096
def Dev.evtSize (d : Dev) : Nat := evtSizeUsed (d.fld Off.EVT_SIZE 12 0)
def Dev.evtEn (d : Dev) : Bool := d.bit Off.EVT_CTL 31
/-- A base that R346 accepts. -/
def Dev.evtBaseOk (d : Dev) : Bool :=
  d.evtBase % 16 == 0 && ((d.sramOff d.evtBase).isSome || isOutbound d.evtBase)

/-- Free entries of the ring (R347). -/
def Dev.evtRoom (d : Dev) : Nat :=
  let n := d.evtSize
  (d.fld Off.EVT_TAIL 11 0 % n + n - d.fld Off.EVT_HEAD 11 0 % n - 1 + n) % n

/-- A code whose bit is set in the words of an array by range (R348, R349). -/
def Dev.codeBit (d : Dev) (reg : Nat → Nat) (code : Nat) : Bool :=
  let r := code / 256
  decide (1 ≤ r) && decide (r ≤ 16) && decide (code % 256 < 32) && d.bit (reg (r - 1)) (code % 256)
def Dev.masked (d : Dev) (code : Nat) : Bool := d.codeBit Off.EVT_MASK code
def Dev.urgent (d : Dev) (code : Nat) : Bool := d.codeBit Off.EVT_URG code

/-- The MSI-X vector of a range (R350). -/
def Dev.evtVector (d : Dev) (code : Nat) : Nat :=
  let r := code / 256
  let v := (d.rd (Off.EVT_VEC ((r - 1) / 4))).toNat / 2 ^ (8 * ((r - 1) % 4)) % 64
  if v = 0 then r else v

/-- A vector is sent at most once per tick; a masked one becomes pending (R350). -/
def Dev.sendVector (d : Dev) (v tick : Nat) : Dev :=
  let e := d.evt
  let sent := if e.sentTick = tick then e.sent else []
  if sent.contains v then d
  else
    let d := { d with evt := { e with sent := v :: sent, sentTick := tick } }
    if e.msixMask.contains v then { d with evt := { d.evt with msixPend := (v :: e.msixPend).eraseDups } } else d.emit (.msix v)

/-- IRQ_N[0] and IRQ_N[1] as driven (R349): 0 is low. -/
def Dev.irq0 (d : Dev) : Nat := if d.bit Off.EVT_CTL 30 && d.fld Off.EVT_HEAD 11 0 != d.fld Off.EVT_TAIL 11 0 then 0 else 1
def Dev.irq1 (d : Dev) : Nat := if d.bit Off.EVT_STAT 31 then 0 else 1

/-- The two pins at their levels. Pins 10 and 11 of `Out` are IRQ_N. -/
def Dev.irqPins (d : Dev) : Dev := (d.emit (.pin 10 d.irq0)).emit (.pin 11 d.irq1)

/-- One record written at HEAD, the head update, and its signals (R346, R349, R350). -/
def Dev.putRecord (d : Dev) (e : EvRec) : Dev :=
  let head := d.fld Off.EVT_HEAD 11 0
  let a := d.evtBase + 16 * head
  let d : Dev := match d.sramOff a with
    | some o => { d with sram := setBytes d.sram o e.bytes }
    | none => if isOutbound a then d.emit (.host (a - 0xC000000000 + d.obBase) e.bytes) else d
  let d := d.setFld Off.EVT_HEAD 11 0 ((head + 1) % d.evtSize)
  let d := if d.bit Off.NET_NOTICE_CFG 31 then { d with evt := { d.evt with notice := d.evt.notice ++ [e] } } else d
  let d := if d.urgent e.code then ((d.setBit Off.EVT_STAT 31 true).free (.irqN 1)).sendVector 0 e.tick else d
  (d.sendVector (d.evtVector e.code) e.tick).irqPins

/-- EVT_OVERFLOW, once there is room for two entries (R347). -/
def Dev.evtOverflow (d : Dev) : Dev :=
  if d.evtEn && d.evt.lost != 0 && decide (2 ≤ d.evtRoom) then
    let n := d.evt.lost
    let d := { d with evt := { d.evt with lost := 0 } }
    if d.masked 0x0106 then d else d.putRecord ⟨0x0106, 0, 0x2E, min n (2 ^ 32 - 1), d.clk.tick⟩
  else d

def Dev.evtLose (d : Dev) : Dev :=
  { d with evt := { d.evt with lost := d.evt.lost + 1 } }.bump Off.EVT_LOST

/-- One record: to the ring, to the buffer while EN = 0, or lost (R347). -/
def Dev.recordOne (d : Dev) (e : EvRec) : Dev :=
  if d.masked e.code then d
  else if d.evtEn then
    let d := d.evtOverflow
    if d.evt.lost ≠ 0 ∨ d.evtRoom = 0 then d.evtLose else d.putRecord e
  else if d.evt.lost = 0 ∧ d.evt.buf.length < 64 then { d with evt := { d.evt with buf := d.evt.buf ++ [e] } }
  else d.evtLose

/-- EVT_RECORD_WRITE: the oldest event not yet recorded. -/
def Dev.evtRecord (d : Dev) : Dev :=
  match d.evt.raised with
  | [] => d
  | e :: es => { d with evt := { d.evt with raised := es } }.recordOne e

/-- A write of EVT_TAIL: what has been lost may now be reported, and IRQ_N[0] follows (R347, R349). -/
def Dev.evtTailWrite (d : Dev) (v : Word) : Dev := ((d.setFld Off.EVT_TAIL 11 0 (getBits v 11 0)).evtOverflow).irqPins

/-- A write of EVT_STAT: URGENT is cleared by a 1, and IRQ_N[1] follows (R349). -/
def Dev.evtStatWrite (d : Dev) (v : Word) : Dev := if v.getLsbD 31 then (d.setBit Off.EVT_STAT 31 false).irqPins else d

/-- A write of EVT_CTL: EN = 1 with a bad base leaves EN at 0; a good one writes what was buffered (R346, R347). -/
def Dev.evtCtlWrite (d : Dev) (v : Word) : Dev :=
  let was := d.evtEn
  let on := v.getLsbD 31 && (was || d.evtBaseOk)
  let d := ((d.setBit Off.EVT_CTL 31 on).setBit Off.EVT_CTL 30 (v.getLsbD 30)).irqPins
  let d := if v.getLsbD 30 then d.free (.irqN 0) else d
  if on && !was then
    let es := d.evt.buf
    let d := { d with evt := { d.evt with buf := [] } }
    (forL es (fun e d => if d.evtRoom = 0 then d.evtLose else d.putRecord e) d).evtOverflow
  else d

end Sys2Proof.Machine
end

