-- ==== Sys2Proof/Machine/Power.lean ====
section
/-! DEFINITION. Resets, power states and the Lamplighter (file 19). -/

namespace Sys2Proof.Machine

/-! ### Resets (R333, R334, R357) -/

/-- Registers that a reset other than a power-on reset leaves as they are (R357). -/
def keptReg (off : Nat) : Bool :=
  (decide (0x010000 ≤ off) && decide (off < 0x020000) && off != Off.LMP_WDOG_CFG) || off == Off.SYS_RESET_CAUSE

/-- Causes recorded: each bit sets, and LAST is the lowest code (R333, R341). -/
def Dev.recordCause (d : Dev) (codes : List Nat) (rail : Nat) : Dev :=
  let last := codes.foldl min 15
  let v := codes.foldl (fun (w : Word) c => w ||| BitVec.ofNat 32 (2 ^ c)) (d.rd Off.SYS_RESET_CAUSE)
  let v := putBits v 31 28 last
  d.wr Off.SYS_RESET_CAUSE (if codes.contains 7 then putBits v 27 24 rail else v)

/-- Everything outside the Lamplighter at its reset value, in a power state (R335, R357). -/
def Dev.clear (d : Dev) (pwr : Pwr) : Dev :=
  { Dev.init with
    regs := mkeep keptReg d.regs
    lmp := { d.lmp with
      pwr := pwr
      resume := none
      wakeReq := none
      wdog := 2000000000 }
    resp := d.resp
    out := d.out }

/-- A reset acts: the device is held until its release. -/
def Dev.resetAct (d : Dev) (codes : List Nat) (rail : Nat) : Dev := (d.recordCause codes rail).clear (.held none)

/-- A reset announced by 250 µs of FAILING (R334). The watchdog has no further effect in that time (R341). -/
def Dev.failingReset (d : Dev) (code : Nat) : Dev :=
  if d.sys.failing.contains code || (code == 5 && !d.sys.failing.isEmpty) then d
  else { d with sys := { d.sys with failing := d.sys.failing ++ [code] } }.twnFailing

/-- FAILING_HOLDBACK_END. -/
def Dev.holdbackEnd (d : Dev) : Dev := if d.sys.failing.isEmpty then d else d.resetAct d.sys.failing 0

def Dev.powered (d : Dev) : Bool :=
  match d.lmp.pwr with
  | .up => true
  | .held _ => true
  | _ => false
def Dev.isUp (d : Dev) : Bool := d.lmp.pwr == .up

/-- A cause whose reset acts at once, recorded together with one that is held back (R334, R341). -/
def Dev.resetNow (d : Dev) (code rail : Nat) : Dev :=
  if d.powered then d.resetAct (code :: d.sys.failing) rail else d

/-- POR: the Lamplighter loses its state as well (R324, R326). -/
def Dev.porAct (d : Dev) : Dev :=
  { Dev.init with
    regs := [(Off.SYS_RESET_CAUSE, 0x10000002)]
    lmp := { Lmp.init with pwr := .held none }
    resp := d.resp
    out := d.out }

/-- RESET_N (R333); in NAP or HIBERNATE it is recorded and the boot will be cold (R341). -/
def Dev.resetPin (d : Dev) : Dev :=
  match d.lmp.pwr with
  | .off => d
  | .hibernate => d.recordCause [3] 0
  | .nap _ => { (d.recordCause [3] 0) with lmp := { d.lmp with pwr := .nap none } }
  | _ => d.resetNow 3 0

/-- THERMAL_RESET holds the device until the junction is below 95 °C (R333). -/
def Dev.thermalReset (d : Dev) : Dev :=
  match d.lmp.pwr with
  | .up => { d with lmp := { d.lmp with hot := true } }.failingReset 8
  | .held _ => { (d.recordCause [8] 0) with lmp := { d.lmp with hot := true } }
  | _ => d
def Dev.thermalRelease (d : Dev) : Dev := { d with lmp := { d.lmp with hot := false } }

/-- A junction temperature, in 0.125 °C: PWR_TEMP, and THERMAL_WARN at WARN and 5 °C below it (R333). -/
def Dev.thermalWarn (d : Dev) (temp : Int) : Dev :=
  let t := max (-32768) (min 32767 temp)
  let d := d.setFld Off.PWR_TEMP 15 0 (toSigned 16 t)
  let d := if signedOf 16 (d.fld Off.PWR_TEMP 31 16) < t then d.setFld Off.PWR_TEMP 31 16 (toSigned 16 t) else d
  let warn := min 0x348 (signedOf 16 (d.fld Off.PWR_TEMP_CFG 15 0))
  if !d.sys.warnHot && decide (warn ≤ t) then
    { d with sys := { d.sys with warnHot := true } }.raise 0x0201 0 (2 ^ 31 + toSigned 16 t)
  else if d.sys.warnHot && decide (t ≤ warn - 40) then
    { d with sys := { d.sys with warnHot := false } }.raise 0x0201 0 (toSigned 16 t)
  else d

/-! ### The watchdog and the RTC (R326 to R328) -/

def Dev.wdogTimeout (d : Dev) : Nat := max 1 (d.fld Off.LMP_WDOG_CFG 15 0) * 1000000
def Dev.wdogPaused (d : Dev) : Bool := d.sys.dbgLevel == 2 && d.bit Off.LMP_WDOG_CFG 30
/-- A write of LMP_WDOG_KICK. -/
def Dev.wdogKick (d : Dev) (v : Word) : Dev :=
  if getBits v 15 0 = 0x5EED then { d with lmp := { d.lmp with wdog := d.wdogTimeout } }
  else { d with lmp := { d.lmp with wdog := 0 } }.failingReset 5
/-- WATCHDOG: the count has reached 0. -/
def Dev.wdogFire (d : Dev) : Dev :=
  if d.bit Off.LMP_WDOG_CFG 31 && !d.wdogPaused && d.lmp.wdog == 0 then d.failingReset 5 else d
/-- A write of LMP_WDOG_CFG: the count starts from a new timeout. -/
def Dev.wdogCfg (d : Dev) : Dev := { d with lmp := { d.lmp with wdog := d.wdogTimeout } }

/-- One RTC tick: words written take effect together, else the RTC counts 2⁻¹⁵ s (R327). -/
def Dev.rtcTick (d : Dev) : Dev :=
  match d.lmp.rtcNew with
  | some lo =>
    let d1 := d.wr Off.LMP_RTC_SEC_LO lo
    let d1 := match d.lmp.rtcHi with | some v => d1.wr Off.LMP_RTC_SEC_HI v | none => d1
    let d1 := match d.lmp.rtcFrac with | some v => d1.wr Off.LMP_RTC_FRAC (v &&& 0x7FFF) | none => d1
    { d1 with lmp := { d1.lmp with rtcNew := none, rtcHi := none, rtcFrac := none } }
  | none =>
    let f := (d.rd Off.LMP_RTC_FRAC).toNat + 1
    if f < 32768 then d.wrN Off.LMP_RTC_FRAC f
    else
      let s := (d.rd Off.LMP_RTC_SEC_LO).toNat + 2 ^ 32 * (d.rd Off.LMP_RTC_SEC_HI).toNat + 1
      ((d.wrN Off.LMP_RTC_FRAC 0).wrN Off.LMP_RTC_SEC_LO (s % 2 ^ 32)).wrN Off.LMP_RTC_SEC_HI (s / 2 ^ 32 % 2 ^ 32)

/-- Real time passes, in ns: the RTC at its nominal rate, the watchdog, the time spent in NAP, and the timeout of a WAIT record. -/
def Dev.passTime (d : Dev) (ns : Nat) : Dev :=
  let d := { d with div := { d.div with waiting := d.div.waiting.map (fun (w : LoadWait) => { w with left := w.left - ns }) } }
  let a := d.lmp.acc + ns * 32768
  let d := forN (a / 1000000000) (fun _ d => d.rtcTick) { d with lmp := { d.lmp with acc := a % 1000000000 } }
  match d.lmp.pwr with
  | .up => if d.bit Off.LMP_WDOG_CFG 31 && !d.wdogPaused then { d with lmp := { d.lmp with wdog := d.lmp.wdog - ns } } else d
  | .nap _ => { d with lmp := { d.lmp with napNs := d.lmp.napNs + ns } }
  | _ => d

/-- A write of an RTC word (R327): the low word takes effect with the other two at the next RTC tick. -/
def Dev.rtcWrite (d : Dev) (off : Nat) (v : Word) : Dev :=
  if off = Off.LMP_RTC_SEC_LO then { d with lmp := { d.lmp with rtcNew := some v } }
  else if off = Off.LMP_RTC_SEC_HI then { d with lmp := { d.lmp with rtcHi := some v } }
  else { d with lmp := { d.lmp with rtcFrac := some v } }

/-- OSC_FALLBACK and OSC_RESTORED (R326): the event waits for the render die's power. -/
def Dev.oscChange (d : Dev) (rc : Bool) : Dev :=
  if d.lmp.pwr == .off || d.bit Off.LMP_OSC 31 == rc then d
  else
    let d := d.setBit Off.LMP_OSC 31 rc
    if d.isUp then d.raise 0x0203 0 (b2n rc) else { d with lmp := { d.lmp with oscSay := d.lmp.oscSay ++ [b2n rc] } }

/-! ### Power requests and wakes (R330, R331) -/

/-- GO of SYS_PWR_REQ. -/
def Dev.pwrGo (d : Dev) : Dev :=
  let target := d.fld Off.SYS_PWR_REQ 1 0
  if target = 0 ∨ target = 3 ∨ d.sys.entering ≠ 0 then d
  else if d.rendering || d.pipe.closure.isSome then (d.setFld Off.SYS_PWR_REQ 30 28 2).raise 0x0202 0 1
  else if d.fld Off.DIV_IMG_STAT 31 28 == 1 || !d.twn.xfers.isEmpty then (d.setFld Off.SYS_PWR_REQ 30 28 3).raise 0x0202 0 2
  else
    let d := (d.setFld Off.SYS_PWR_REQ 30 28 1).setFld Off.SYS_PWR_STATE 31 29 5
    { d with sys := { d.sys with entering := target } }

/-- A wake: from NAP with its retained image, from HIBERNATE through NAP without one (R330). -/
def Dev.wakeGo (d : Dev) (source : Nat) : Dev :=
  let go := fun (img : Option Retained) => ((d.setFld Off.LMP_WAKE_STAT 2 0 source).recordCause [10] 0).clear (.held img)
  match d.lmp.pwr with
  | .nap img => go img
  | .hibernate => if source = 3 then d else go none
  | .up => if d.sys.entering != 0 && !(source == 3 && d.sys.entering == 2) then
      { d with lmp := { d.lmp with wakeReq := some source } } else d
  | _ => d

/-- LOW_POWER_ENTRY_DONE: every rail but the Lamplighter's is off; NAP retains Steward SRAM, and no
firmware where none has run (R330). -/
def Dev.lowPowerDone (d : Dev) : Dev :=
  if !d.isUp || d.sys.entering == 0 then d
  else
    let img : Option Retained := if d.sys.phase = 0 ∨ d.sys.phase = 3 then none else some ⟨d.sram, d.sys.source, d.sys.entry⟩
    let req := d.lmp.wakeReq
    let d := d.clear (if d.sys.entering = 1 then .nap img else .hibernate)
    let d := { d with lmp := { d.lmp with wakeReq := none, napNs := 0 } }
    match req with
    | some s => d.wakeGo s
    | none => d

/-- RTC_ALARM: the RTC has reached its alarm second. -/
def Dev.rtcAlarm (d : Dev) : Dev :=
  if d.rd Off.LMP_RTC_ALARM_LO = 0 ∧ d.rd Off.LMP_RTC_ALARM_HI = 0 then d
  else if d.rd Off.LMP_RTC_ALARM_LO = d.rd Off.LMP_RTC_SEC_LO ∧ d.rd Off.LMP_RTC_ALARM_HI = d.rd Off.LMP_RTC_SEC_HI then d.wakeGo 2
  else d
/-- NAP_TIMER: its seconds have passed in NAP; one that passes during the entry acts after it (R341). -/
def Dev.napTimer (d : Dev) : Dev :=
  let due := match d.lmp.pwr with
    | .nap _ => decide ((d.rd Off.LMP_NAP_TIMER).toNat * 1000000000 ≤ d.lmp.napNs)
    | _ => true
  if d.rd Off.LMP_NAP_TIMER = 0 ∨ due = false then d else d.wakeGo 3

/-! ### Quarter power gating (R332) -/

/-- A job waits in the Quarter's lists. -/
def Dev.quarterListed (d : Dev) (q : Nat) : Bool := (List.range 8).any (fun c => !(d.readyList (8 * q + c)).isEmpty)
/-- The slot of compute tick n prefers the Quarter. -/
def Dev.slotPrefers (d : Dev) (q n : Nat) : Bool :=
  (validTmpls d.tabE).any (fun t => t.inSlot n && (t.desc.getD 6 0).toNat % 4 == q)
def Dev.idleTicks (d : Dev) (q : Nat) : Nat := mget (fun _ => 0) d.sys.idleTicks q

/-- QUARTER_GATE, at a boundary. -/
def Dev.quarterGate (d : Dev) (q : Nat) : Dev :=
  let spareUsed := (List.range 8).any (fun i => (d.rd Off.ICX_SPARE_USE).getLsbD (8 * q + i))
  if d.bit Off.PWR_QGATE q && !d.quarterGated q && decide (16 ≤ d.idleTicks q) && !spareUsed && !d.quarterListed q &&
      !d.slotPrefers q (d.clk.tick + 1) then d.setBit Off.PWR_QGATE (4 + q) true
  else d

/-- QUARTER_WAKE: the wake of a gated Quarter named by the next slot or given a job ends; QUARTER_WAKE_LATE when a job of the
Quarter became READY before. -/
def Dev.quarterWakeEnd (d : Dev) (q : Nat) (late : Bool) : Dev :=
  if d.quarterGated q && (d.slotPrefers q (d.clk.tick + 1) || d.quarterListed q || late) then
    let d := d.setBit Off.PWR_QGATE (4 + q) false
    let d := { d with sys := { d.sys with idleTicks := mset (fun _ => 0) d.sys.idleTicks q 0 } }
    if late || d.quarterListed q then d.raise 0x0204 0 q else d
  else d

/-- The counts of compute ticks in which a Quarter ran no job, at the boundary that ends one (R332). -/
def Dev.quarterCounts (d : Dev) : Dev :=
  forN 4 (fun q d =>
    let ran := (List.range 8).any (fun i => let s := d.square (8 * q + i); s.run.isSome || decide (0 < s.ns + s.ns7))
    { d with sys := { d.sys with idleTicks := mset (fun _ => 0) d.sys.idleTicks q (if ran then 0 else d.idleTicks q + 1) } }) d

end Sys2Proof.Machine
end

