-- ==== Sys2Proof/Machine/Time.lean ====
section
/-! DEFINITION. Network time (file 13): offsets, servos, the choice of source, slews, steps and holdover. Times and offsets
are exact numbers in units of 2⁻¹⁶ ns. -/

namespace Sys2Proof.Machine

/-- Units of 2⁻¹⁶ ns in a second. -/
def secUnits : Nat := 1000000000 * 65536

def Dev.dom (d : Dev) (i : Nat) : Dom := if i = 0 then d.ptp.domA else d.ptp.domB
def Dev.setDom (d : Dev) (i : Nat) (x : Dom) : Dev :=
  { d with ptp := if i = 0 then { d.ptp with domA := x } else { d.ptp with domB := x } }
def Dev.domLocked (d : Dev) (i : Nat) : Bool := d.bit (Off.PTP_DOM_STAT i) 31
def Dev.domMaster (d : Dev) (i : Nat) : Bool := d.bit (Off.PTP_DOM_STAT i) 30

/-- PTP_STEP_THRESH and PTP_SLEW_MAX as used. -/
def Dev.stepThresh (d : Dev) : Int := (max 100 (min 1000000 (d.fld Off.PTP_STEP_THRESH 23 0)) * 65536 : Nat)
def Dev.slewMax (d : Dev) : Nat := max 1 (min 500 (d.fld Off.PTP_SLEW_MAX 8 0))

/-- Whole nanoseconds of an offset, saturating to a signed 32-bit value. -/
def nsOf (v : Int) : Int := max (-(2 ^ 31)) (min (2 ^ 31 - 1) (v.tdiv 65536))
def nsAbs (v : Int) : Nat := min (v.natAbs / 65536) (2 ^ 31 - 1)

/-! ### Clock outputs (R224) -/

/-- The frequency of MCLK_OUT. -/
def Dev.mclkHz (d : Dev) : Nat := if d.bit Off.PTP_MCLK_CFG 30 then 49152000 else 24576000
/-- A clock output runs while local time is valid and no step is in progress; a disabled or stopped one is low. -/
def Dev.clockRuns (d : Dev) (bit : Nat) : Bool := d.clk.valid && d.ptp.stepTo.isNone && d.bit Off.PTP_MCLK_CFG bit
/-- PDM_CLK runs on the same terms while the Listening Post does (R226). -/
def Dev.pdmClkRuns (d : Dev) : Bool := d.clk.valid && d.ptp.stepTo.isNone && d.ebit Off.LPO_CTL 31
/-- Periods of a frequency that an instant of local time has begun. -/
def periodsAt (hz : Nat) (t : Rat) : Nat := (t * hz / (secUnits : Nat)).floor.toNat
/-- The levels of WCLK_OUT (50 % duty) and PPS_OUT (high for 100 ms). -/
def Dev.wclkOut (d : Dev) : Bool := d.clockRuns 29 && periodsAt (2 * d.fs) d.clk.time % 2 == 0
def Dev.ppsOut (d : Dev) : Bool := d.clockRuns 28 && periodsAt 10 d.clk.time % 10 == 0
/-- The rising edges that fall when local time goes from t to the present value. -/
def Dev.clockEdges (d : Dev) (t : Rat) : Dev :=
  let say := fun (c bit hz : Nat) (d : Dev) =>
    if d.clockRuns bit && decide (periodsAt hz t < periodsAt hz d.clk.time) then d.emit (.edges c (periodsAt hz t) (periodsAt hz d.clk.time)) else d
  let d := say 2 28 1 (say 1 31 d.mclkHz (say 0 29 d.fs d))
  if d.pdmClkRuns && decide (periodsAt 3072000 t < periodsAt 3072000 d.clk.time) then
    d.emit (.edges 3 (periodsAt 3072000 t) (periodsAt 3072000 d.clk.time))
  else d

/-! ### Local time (R209, R219) -/

/-- A phase of WCLK_IN taken to the nearest sample instant (R221). -/
def Dev.wNearest (d : Dev) (p : Rat) : Rat :=
  let period : Rat := (secUnits : Nat) / (d.fs : Nat)
  p - (p / period + 1 / 2).floor * period

/-- What Θ loses while local time runs for `t` (R219). -/
def Dev.slewStep (d : Dev) (t : Rat) : Rat :=
  let most := t * d.slewMax / 1000000
  let th := d.ptp.slew
  if 0 < th then min th most else if th < 0 then max th (-most) else 0

/-- Local time takes a later value after `ref` of REFCLK time, with Θ less `step`: every source's offset moves with the two rates. -/
def Dev.flow (d : Dev) (time ref step : Rat) : Dev :=
  let was := d.clk.time
  let rate := d.ptp.rate
  let on := fun (x : Dom) => { x with est := x.est.map (fun e => e + ref * (rate - x.rate) - step) }
  let d : Dev := { d with
    clk := { d.clk with time := time }
    ptp := { d.ptp with
      slew := d.ptp.slew - step
      wPhase := d.wNearest (d.ptp.wPhase + ref * (rate - d.ptp.wRate) - step)
      domA := on d.ptp.domA
      domB := on d.ptp.domB } }
  d.clockEdges was

/-- `ns` of REFCLK time pass: local time advances by its rate and Θ shrinks, whether local time is valid or not. -/
def Dev.advanceNs (d : Dev) (ns : Nat) : Dev :=
  let ref : Rat := (ns * 65536 : Nat)
  let step := d.slewStep ref
  d.flow (d.clk.time + ref * (1 + d.ptp.rate) - step) ref step

/-- `n` REFCLK cycles pass. -/
def Dev.advanceRef (d : Dev) (n : Nat) : Dev :=
  let d := d.advanceNs (n * 40)
  { d with clk := { d.clk with elapsed := min (d.clk.elapsed + n * 40) 333333 } }

/-- Local time reaches a boundary's granule (R7): Θ has shrunk by the time that passed. -/
def Dev.reachTime (d : Dev) (t : Rat) : Dev :=
  if t ≤ d.clk.time then d
  else
    let step := d.slewStep (t - d.clk.time)
    d.flow t ((t - d.clk.time + step) / (1 + d.ptp.rate)) step

/-- The scale of local time moves by `by_`: what is held on it moves along. -/
def Dev.rebase (d : Dev) (by_ : Rat) : Dev :=
  let n := by_.floor
  let on := fun (x : Dom) => { x with
    annAt := x.annAt + by_
    sync := x.sync.map (fun y => (y.1, y.2.1 + n, y.2.2))
    sm := x.sm.map (fun v => v - n)
    t3 := x.t3.map (fun y => (y.1, y.2 + n))
    theta := x.theta.map (fun v => v + n)
    est := x.est.map (fun e => e + by_) }
  { d with
    clk := { d.clk with time := d.clk.time + by_ }
    ptp := { d.ptp with domA := on d.ptp.domA, domB := on d.ptp.domB, wPhase := d.wNearest (d.ptp.wPhase + by_) } }

/-- SLEW_END: Θ has reached 0. -/
def Dev.slewDone (d : Dev) : Dev :=
  if d.ptp.slewing ∧ d.ptp.slew = 0 then { d with ptp := { d.ptp with slewing := false } }.raise 0x0A01 0 0 else d

/-- Θ takes a value, which is the steering source's offset from local time; slewing that starts is reported (R219). -/
def Dev.setSlew (d : Dev) (v : Rat) : Dev :=
  let d := if v = 0 then d else d.slewDone
  let est := fun (s : Nat) (x : Dom) => if d.ptp.src = s then { x with est := x.est.map (fun _ => v) } else x
  let d := { d with ptp := { d.ptp with slew := v, domA := est 1 d.ptp.domA, domB := est 2 d.ptp.domB } }
  if v ≠ 0 ∧ !d.ptp.slewing then
    { d with ptp := { d.ptp with slewing := true } }.raise 0x0A01 0 (2 ^ 31 + nsAbs v.floor)
  else d

/-! ### The choice of source (R215 to R217, R221, R222) -/

/-- Usable sources: 1 A, 2 B, 3 WCLK. -/
def Dev.usable (d : Dev) (s : Nat) : Bool :=
  if s = 1 then d.domLocked 0 else if s = 2 then d.domLocked 1
  else if s = 3 then d.ptp.wclk && d.clk.valid else false

/-- The selection in force: a write of PTP_SEL while a step is scheduled waits for boundary M (R223). -/
def Dev.ptpSel (d : Dev) : Word := d.ptp.resel.getD (d.rd Off.PTP_SEL)

/-- The source R215 chooses: in AUTO the preferred domain, then the other, and any usable domain goes before WCLK. `stay`: a domain that
steers goes on, as the selection itself is not made anew. -/
def Dev.chooseSource (d : Dev) (stay : Bool) : Nat :=
  let w := d.ptpSel
  let req := getBits w 1 0
  let none_ := if d.clk.valid then 4 else 0
  if req ≠ 0 then (if d.usable req then req else none_)
  else
    let pref := getBits w 2 2 + 1
    let cur := d.ptp.src
    if stay = true ∧ (cur = 1 ∨ cur = 2) ∧ d.usable cur = true then cur
    else if d.usable pref then pref
    else if d.usable (3 - pref) then 3 - pref
    else if w.getLsbD 3 && d.usable 3 then 3
    else none_

/-- The rate that holdover takes over from a source: its mean after the last 64 accepted offsets (R222). -/
def meanRate (now : Rat) (rs : List Rat) : Rat := if rs.isEmpty then now else rs.foldl (· + ·) 0 / rs.length

/-- Local time minus a source's time, at this instant. -/
def Dev.sourceOffset (d : Dev) (s : Nat) : Rat :=
  if s = d.ptp.src then d.ptp.slew
  else if s = 1 then d.ptp.domA.est.getD 0 else if s = 2 then d.ptp.domB.est.getD 0 else d.ptp.wPhase
/-- A source's rate, and its last rates. -/
def Dev.sourceRate (d : Dev) (s : Nat) : Rat :=
  if s = 1 then d.ptp.domA.rate else if s = 2 then d.ptp.domB.rate else if s = 3 then d.ptp.wRate else d.ptp.rate
def Dev.sourceRates (d : Dev) (s : Nat) : List Rat :=
  if s = 1 then d.ptp.domA.rates else if s = 2 then d.ptp.domB.rates else if s = 3 then d.ptp.rates else []

/-- The steering source becomes `s` (R215, R217, R222, R223); the first setting of invalid local time follows R216. -/
def Dev.steerBy (d : Dev) (s : Nat) : Dev :=
  let old := d.ptp.src
  if s = old then d
  else
    let d := d.raise 0x0A02 0 (old * 16 + s)
    let off := d.sourceOffset s
    let mean := meanRate d.ptp.rate (d.sourceRates old)
    let d := { d with ptp := { d.ptp with src := s, step := none } }
    let d := if s = 4 then d.raise 0x0A05 0 256 else if old = 4 then d.raise 0x0A05 0 0 else d
    if s = 4 then { d with ptp := { d.ptp with rate := mean } }
    else if s = 0 then d
    else
      let d := { d with ptp := { d.ptp with rate := d.sourceRate s, first := decide (old = 4) } }
      if d.clk.valid then d.setSlew off
      else
        let d := d.rebase (max (-d.clk.time) (-off))
        { d with clk := { d.clk with valid := true }, ptp := { d.ptp with first := false } }

/-- A source has become usable or ceased to be: R215 with the selection in force. -/
def Dev.reselect (d : Dev) : Dev := d.steerBy (d.chooseSource true)

/-- A write of PTP_SEL (R215); while a step is scheduled or in progress the selection in force stays (R223). -/
def Dev.ptpSelWrite (d : Dev) (v : Word) : Dev :=
  let sel := d.ptpSel
  let d := d.wr Off.PTP_SEL (v &&& 0x1F)
  if d.ptp.step.isSome || d.ptp.stepTo.isSome then { d with ptp := { d.ptp with resel := some sel } } else d.steerBy (d.chooseSource false)

/-- A selection that waited is evaluated once no step is scheduled or in progress (R223). -/
def Dev.reselectLate (d : Dev) : Dev :=
  if d.ptp.resel.isSome && d.ptp.step.isNone && d.ptp.stepTo.isNone then
    let d := { d with ptp := { d.ptp with resel := none } }
    d.steerBy (d.chooseSource false)
  else d

/-- TIME_LOCK and the LOCKED bit of a domain (R214). -/
def Dev.domLock (d : Dev) (i : Nat) (locked : Bool) : Dev :=
  if d.domLocked i == locked then d
  else
    let d := d.setBit (Off.PTP_DOM_STAT i) 31 locked
    let d := d.setDom i { d.dom i with since := d.nsNow, good := if locked then (d.dom i).good else 0 }
    d.raise 0x0A06 0 ((if locked then 512 else 0) + i * 256)

/-! ### Offsets (R213, R214, R218) -/

/-- An accepted offset drives the servo; `r` is what it sees, `secs` the Sync interval (R214). -/
def Dev.servo (d : Dev) (i : Nat) (r : Rat) (secs : Rat) : Dev :=
  let x := d.dom i
  let w := d.rd (Off.PTP_DOM_SERVO i)
  let th := r / (secUnits : Nat)
  let iAcc := x.iAcc + th / (2 ^ getBits w 27 24 : Nat) / secs
  let pull : Rat := (max 1 (getBits w 23 16) : Nat) / 1000000
  let rate := max (-pull) (min pull (-(iAcc + th / (2 ^ getBits w 31 28 : Nat) / secs)))
  let inside := decide (r.floor.natAbs ≤ getBits w 15 0 * 65536)
  let d := d.setDom i { x with iAcc := iAcc, rate := rate, rates := (rate :: x.rates).take 64, good := if inside then x.good + 1 else 0 }
  let d := if d.ptp.src = i + 1 then { d with ptp := { d.ptp with rate := rate } } else d
  if 16 ≤ (d.dom i).good ∧ !d.domLocked i then (d.domLock i true).reselect else d

/-- A forward step is scheduled (R218, R220). -/
def Dev.scheduleStep (d : Dev) (amount : Rat) : Dev := { d with ptp := { d.ptp with step := some (amount, d.clk.tick) } }

/-- The three cases of R218 for a net offset of the steering domain; the other domain's own offset is the last one measured. -/
def Dev.actOnOutlier (d : Dev) (i : Nat) (net : Rat) : Dev :=
  let other := 1 - i
  let near := (d.dom other).theta.any (fun v => decide (v ≤ d.stepThresh) && decide (-d.stepThresh ≤ v))
  if getBits d.ptpSel 1 0 = 0 ∧ d.domLocked other = true ∧ near = true then
    d.steerBy (other + 1)
  else if net < 0 then (d.setSlew 0).scheduleStep (-net)
  else d.setSlew net

/-- One offset of domain i. The steering servo sees it less Θ, the other one less its own estimate. -/
def Dev.takeOffset (d : Dev) (i : Nat) (theta : Int) (secs : Rat) : Dev :=
  let x := d.dom i
  let est := x.est.getD theta
  let d := (d.setDom i { x with theta := some theta, est := some est }).wrN (Off.PTP_DOM_OFFSET i) (toSigned 32 (nsOf theta))
  let off := Off.PTP_DOM_STAT i
  if d.ptp.src = i + 1 then
    let first := d.ptp.first
    let d := { d with ptp := { d.ptp with first := false } }
    let net : Rat := (theta : Rat) - d.ptp.slew
    let out := fun (v : Rat) => decide ((d.stepThresh : Rat) < v) || decide (v < -(d.stepThresh : Rat))
    if first && out theta then
      ((d.setSlew 0).raise 0x0A04 0 (i * 2 ^ 31 + nsAbs theta)).actOnOutlier i theta
    else if out net then
      let n := d.fld off 27 24
      let d := if n = 0 then d.raise 0x0A04 0 (i * 2 ^ 31 + nsAbs theta) else d
      let d := d.setFld off 27 24 (min 9 (n + 1))
      if n = 8 then (d.domLock i false).actOnOutlier i net else d
    else (d.setFld off 27 24 0).servo i net secs
  else (d.setFld off 27 24 0).servo i ((theta : Rat) - est) secs

/-! ### Messages (R211, R212) -/

def Dev.asym (d : Dev) (reg : Nat → Nat) (e : Nat) : Int := (d.rd (reg e)).toInt

/-- A hardware timestamp: local time to within 4 ns (R211). -/
def Dev.hwStamp (d : Dev) (dev : Int) : Int := d.clk.time.floor + max (-262144) (min 262144 dev)

/-- The number of Announce intervals of a profile's announceReceiptTimeout: 3 in ST 2059-2, in the AES67 media profile and in the IEEE 1588
default profile; profile 3 counts as 0. -/
def announceReceipts (profile : Nat) : Nat := if profile = 1 then 3 else if profile = 2 then 3 else 3

/-- An interval of 2^k seconds. -/
def logSecs (k : Int) : Rat := if k < 0 then 1 / (2 ^ k.natAbs : Nat) else (2 ^ k.natAbs : Nat)

/-- The ports that carry a domain: those of its PORT_MASK with LINK = 1, while it is enabled. -/
def Dev.domPort (d : Dev) (i e : Nat) : Bool :=
  d.bit (Off.PTP_DOM_CFG i) 31 && (d.rd (Off.PTP_DOM_CFG i)).getLsbD (24 + e) && d.linkUp e

/-- A Sync completed: its t1, its corrected t2 and the sum of its corrections give an offset once a delay exchange has been made. -/
def Dev.syncTake (d : Dev) (i : Nat) (t1 t2 corr : Int) (secs : Rat) : Dev :=
  let ms := t2 - t1 - corr
  match (d.dom i).sm with
  | none => d
  | some sm =>
    let mpd := (ms + sm) / 2
    (d.setFld (Off.PTP_DOM_STAT i) 23 0 (min (2 ^ 24 - 1) (max 0 (mpd / 65536)).toNat)).takeOffset i (ms - mpd) secs

/-- PTP_MESSAGE: a message of domain i on port e (R211 to R213). Messages of another domainNumber, and Syncs of another master, are not
the domain's. -/
def Dev.ptpTake (d : Dev) (i e : Nat) (vlan : Option Nat) (dev : Int) (h : PtpHead) (m : PtpMsg) : Dev :=
  let x := d.dom i
  if !d.domPort i e || !d.tagTaken e vlan || h.number != d.fld (Off.PTP_DOM_CFG i) 7 0 then d
  else match m with
    | .announce hi lo best =>
      if best then
        (((d.setDom i { x with master := h.source, annAt := d.clk.time, annInt := h.logInt }).setBit (Off.PTP_DOM_STAT i) 30 true).wrN
          (Off.PTP_DOM_GM_LO i) lo).wrN (Off.PTP_DOM_GM_HI i) hi
      else d
    | .delayResp t4 =>
      match x.t3 with
      | none => d
      | some (seq, t3) => if seq = h.seq ∧ h.source = x.master then d.setDom i { x with t3 := none, sm := some (t4 - t3 - h.corr) } else d
    | .sync twoStep t1 =>
      if !d.domMaster i || h.source != x.master then d
      else if h.logInt < -7 then d.setDom i { x with fast := x.fast + 1 }
      else if 1 < h.logInt then d
      else
        let t2 := d.hwStamp dev - d.asym Off.PTP_ASYM_IN e
        if twoStep then d.setDom i { x with sync := some (h.seq, t2, h.corr) } else d.syncTake i t1 t2 h.corr (logSecs h.logInt)
    | .followUp t1 =>
      match x.sync with
      | none => d
      | some (seq, t2, corr) =>
        if seq = h.seq ∧ h.source = x.master ∧ -7 ≤ h.logInt ∧ h.logInt ≤ 1 then
          (d.setDom i { x with sync := none }).syncTake i t1 t2 (corr + h.corr) (logSecs h.logInt)
        else d
    | .other => d

/-- DELAY_REQ_SEND: Delay_Req leaves with its timestamp (R211, R212). -/
def Dev.delayReq (d : Dev) (i e : Nat) (dev : Int) : Dev :=
  if d.domPort i e && d.domMaster i then
    let x := d.dom i
    (d.setDom i { x with t3 := some (x.reqSeq, d.hwStamp dev + d.asym Off.PTP_ASYM_EG e), reqSeq := (x.reqSeq + 1) % 65536 }).stewSend e 7
      (groupMac 0xE0000181) [d.fld (Off.PTP_DOM_CFG i) 7 0, x.reqSeq]
  else d

/-- MASTER_LOST: no Announce of the master within announceReceiptTimeout (R212, R214). -/
def Dev.masterGone (d : Dev) (i : Nat) : Dev :=
  let x := d.dom i
  let wait := announceReceipts (d.fld (Off.PTP_DOM_CFG i) 30 29) * logSecs x.annInt * (secUnits : Nat)
  if !d.domMaster i || decide (d.clk.time < x.annAt + wait) then d
  else
    let d := (d.setBit (Off.PTP_DOM_STAT i) 30 false).setDom i { x with sync := none, t3 := none, sm := none, theta := none, est := none, good := 0 }
    (d.domLock i false).reselect

/-- DOMAIN_REVERT: the preferred domain has been usable for 60 s (R215). -/
def Dev.revert (d : Dev) : Dev :=
  let pref := getBits d.ptpSel 2 2
  if getBits d.ptpSel 1 0 = 0 ∧ d.ptpSel.getLsbD 4 = true ∧ d.domLocked pref = true ∧ (d.dom pref).since + 60000000000 ≤ d.nsNow then
    d.steerBy (pref + 1)
  else d

/-! ### WCLK_IN (R221) -/

/-- One period of WCLK_IN, `ppb` longer than the house sample period: 64 within 100 ppm in a row lock it, 8 outside unlock it. While it
steers, local time takes its rate. -/
def Dev.wclkPeriod (d : Dev) (ppb : Int) : Dev :=
  let good := decide (ppb.natAbs ≤ 100000)
  let p := d.ptp
  let rate : Rat := if good then -(ppb : Rat) / (1000000000 + ppb) else p.wRate
  let d := { d with ptp := { p with
    wGood := if good then p.wGood + 1 else 0
    wBad := if good then 0 else p.wBad + 1
    wRate := rate
    rates := if good then (rate :: p.rates).take 64 else p.rates
    rate := if p.src = 3 then rate else p.rate } }
  if 64 ≤ d.ptp.wGood ∧ d.ptp.wclk = false then ({ d with ptp := { d.ptp with wclk := true } }.raise 0x0A06 0 (512 + 1)).reselect
  else if 8 ≤ d.ptp.wBad ∧ d.ptp.wclk = true then ({ d with ptp := { d.ptp with wclk := false } }.raise 0x0A06 0 1).reselect
  else d
def Dev.wclkPeriods (d : Dev) (ps : List Int) : Dev := forL ps (fun p d => d.wclkPeriod p) d
/-- WCLK_LOCK: the phase of its last edge is measured too. While WCLK steers, its edges are sample instants plus Θ, and the phase is that of
local time itself. -/
def Dev.wclkOn (d : Dev) (phase : Int) (ps : List Int) : Dev :=
  (if d.ptp.src = 3 then d else { d with ptp := { d.ptp with wPhase := d.wNearest phase } }).wclkPeriods ps

/-- PTP_TIME_WRITE: word 0 to 3 in address order, held while local time is invalid (R210). -/
def Dev.ptpTimeWrite (d : Dev) (word : Nat) (v : Word) : Dev :=
  if d.clk.valid || (word == 2 && decide (999999999 < v.toNat)) then d
  else
    { d.wr (Off.PTP_TIME_SEC_LO + 4 * word) (if word = 3 then v &&& 0xFFFF else v) with
      ptp := { d.ptp with written := true } }

/-- The time held in the four words. -/
def Dev.writtenTime (d : Dev) : Nat :=
  ((d.rd Off.PTP_TIME_SEC_HI).toNat * 2 ^ 32 + (d.rd Off.PTP_TIME_SEC_LO).toNat) * secUnits + (d.rd Off.PTP_TIME_NS).toNat * 65536 +
    (d.rd Off.PTP_TIME_FRAC).toNat

/-- WCLK_TIME_ADOPT: the written time is taken at a WCLK_IN edge where WCLK is the source to steer (R216, R221). -/
def Dev.wclkAdopt (d : Dev) : Dev :=
  let req := getBits d.ptpSel 1 0
  if !d.clk.valid && d.ptp.wclk && d.ptp.written && (req == 3 || (req == 0 && d.ptpSel.getLsbD 3)) then
    let d := d.rebase ((d.writtenTime : Rat) - d.clk.time)
    let d := { d with clk := { d.clk with valid := true } }
    { d with ptp := { d.ptp with src := 3, rate := d.ptp.wRate, wPhase := 0, written := false } }.raise 0x0A02 0 3
  else d

/-- The four words of PTP_TIME as they read (R209, R210). -/
def Dev.timeWord (d : Dev) (word : Nat) : Word :=
  if !d.clk.valid then d.rd (Off.PTP_TIME_SEC_LO + 4 * word)
  else
    let t := d.clk.time.floor.toNat
    let s := t / secUnits
    let r := t % secUnits
    BitVec.ofNat 32 (if word = 0 then s else if word = 1 then s / 2 ^ 32 else if word = 2 then r / 65536 else r % 65536)

/-- PTP_STAT and PTP_SLEW_REM as they read. -/
def Dev.ptpStat (d : Dev) : Nat :=
  (if d.clk.valid then 2 ^ 31 else 0) + (if d.ptp.slew = 0 then 0 else 2 ^ 30) + (if d.ptp.src = 4 then 2 ^ 29 else 0) +
    (if d.ptp.step.isSome then 2 ^ 28 else 0) + d.ptp.src * 2 ^ 24
def Dev.slewRem (d : Dev) : Nat := toSigned 32 (nsOf d.ptp.slew.floor)

/-! ### Forward steps (R220) -/

/-- Samples of the far rings that the step passes over read 0.0. -/
def Dev.zeroSkipped (d : Dev) (lo hi : Nat) : Dev :=
  forL d.activeObjects (fun o d =>
    if d.farOk o then
      let n := min (hi - lo) (d.farLen o)
      (d.by 4).sdRing (d.oFarBase o * 128) (d.farLen o) (hi - n) (List.replicate n 0)
    else d) d

/-- Ramps keep the position they held over the `k` ticks that a step takes out (R220). -/
def shiftRamps (k : Nat) (m : NMap Ramp) : NMap Ramp := m.map (fun (e : Nat × Ramp) => (e.1, { e.2 with start := e.2.start + k }))
def Dev.rampsKept (d : Dev) (k : Nat) : Dev :=
  { d with obj := { d.obj with
    dyn := d.obj.dyn.map (fun (e : Nat × ObjDyn) => (e.1, { e.2 with ramps := shiftRamps k e.2.ramps }))
    lis := d.obj.lis.map (fun (e : Nat × LisDyn) => (e.1, { e.2 with ramps := shiftRamps k e.2.ramps })) } }

/-- The part of TIME_STEP that is network time's: at boundary N local time is set, and M is fixed (R220); local time never decreases (R209).
Answers M and N. -/
def Dev.stepTime (d : Dev) : Option (Dev × Nat × Nat) :=
  match d.ptp.step with
  | none => none
  | some (s, dec) =>
    if d.clk.tick < (if d.rendering then dec + 1 else dec) then none
    else
      let n := d.clk.tick + 1
      let at_ : Rat := (n * secUnits : Nat) / 3000
      let d := d.reachTime at_
      let t : Rat := max d.clk.time (at_ + s)
      let m := (t * 3000 / (secUnits : Nat)).ceil.toNat
      let d := { d.rebase (t - d.clk.time) with clk := { d.clk with time := t } }
      let d := d.setSlew 0
      let d := { d with ptp := { d.ptp with step := none, stepTo := some (m, n), passed := some (n, m) } }
      some ((((d.raise 0x0A03 0 (m - n)).xpTimeStep.zeroSkipped ((n - 1) * d.L) (m * d.L)).rampsKept (m - n + 1)), m, n)

end Sys2Proof.Machine
end

