-- ==== Sys2Proof/Machine/Writes.lean ====
section
/-! DEFINITION. What a completed write of a register word or of a table window does (R6, R11, R314, R316, and the rules of each
register), and how a write that waits for the boundary is established. -/

namespace Sys2Proof.Machine

/-- How a write is made: by a secure master or not; whether the job an abort or cancel names became READY in this very cycle
(R158); and whether FORMAT 2 of a serial port may take effect (R177). -/
structure How where
  secure : Bool
  race   : Bool
  tdm    : Bool
  deriving DecidableEq, Repr

/-- The word stored under each field's own access code; a word that takes effect at the boundary waits for it. -/
def Dev.storeReg (d : Dev) (r : RegRow) (secure : Bool) (off : Nat) (v : Word) : Dev :=
  let new := r.merge secure (d.rd off) v
  let d := d.wr off new
  if r.late then d.later (.reg off new) else d

/-! ### Registers by block -/

def Dev.writeSys (d : Dev) (h : How) (r : RegRow) (off : Nat) (v : Word) : Dev :=
  if off = Off.SYS_CTL then
    if h.secure then
      let d := d.setBit Off.SYS_CTL 0 (v.getLsbD 0)
      let d := if v.getLsbD 1 then d.renderEnSet else d.renderEnClear
      if v.getLsbD 31 then d.failingReset 4 else d
    else d
  else if off = Off.SYS_PWR_REQ then
    let d := d.storeReg r h.secure off v
    if v.getLsbD 31 then d.pwrGo else d
  else if off = Off.SYS_HOST_TRUST then
    if h.secure then
      let lock := d.bit off 2
      let d := if lock then d else (d.setBit off 0 (v.getLsbD 0)).setBit off 1 (v.getLsbD 1)
      d.setBit off 2 (lock || v.getLsbD 2)
    else d
  else if off = Off.SYS_ABORT_CMD then
    let d := d.storeReg r h.secure off v
    if v.getLsbD 31 then d.abortGo h.race else d
  else if off = Off.SYS_PARITY_STAT then
    if v.getLsbD 31 then
      let d := (d.setBit off 31 false).setFld off 15 0 0
      { d with sys := { d.sys with scanDue := true } }
    else d
  else if off = Off.SYS_PARITY_ACT then
    let d := d.storeReg r h.secure off v
    if h.secure then { d with sys := { d.sys with actBad := false } } else d
  else d.storeReg r h.secure off v

def Dev.writeLmp (d : Dev) (h : How) (r : RegRow) (off : Nat) (v : Word) : Dev :=
  if off = Off.LMP_WDOG_KICK then d.wdogKick v
  else if off = Off.LMP_RTC_SEC_LO ∨ off = Off.LMP_RTC_SEC_HI ∨ off = Off.LMP_RTC_FRAC then (if h.secure then d.rtcWrite off v else d)
  else if off = Off.LMP_WDOG_CFG then
    let d := d.storeReg r h.secure off v
    if h.secure then d.wdogCfg else d
  else d.storeReg r h.secure off v

/-- ICX_CANCEL, ICX_MIGRATE and ICX_FENCE (R150, R154, R156, R157). -/
def Dev.icxCancelGo (d : Dev) (race : Bool) : Dev :=
  let r := d.cancelTmpl (d.fld Off.ICX_CANCEL 11 0) race
  r.1.setFld Off.ICX_CANCEL 30 28 r.2
def Dev.icxMigrateGo (d : Dev) : Dev := d.later (.migrate (d.fld Off.ICX_MIGRATE 11 0) (d.fld Off.ICX_MIGRATE 17 16))
def Dev.icxFenceGo (d : Dev) : Dev :=
  let t := d.fld Off.ICX_FENCE 4 0
  match d.fld Off.ICX_FENCE 30 29 with
  | 0 => d.fence t 1
  | 1 => d.clearFence t
  | 2 => d.later (.fenceQuarter (t % 4))
  | _ => forN 8 (fun i d => d.clearFence (8 * (t % 4) + i)) d

def Dev.writeIcx (d : Dev) (h : How) (r : RegRow) (off : Nat) (v : Word) : Dev :=
  let d := d.storeReg r h.secure off v
  if !v.getLsbD 31 then d
  else if off = Off.ICX_CANCEL then d.icxCancelGo h.race
  else if off = Off.ICX_MIGRATE then d.icxMigrateGo
  else if off = Off.ICX_FENCE then d.icxFenceGo
  else d

/-- RCF: protected words are refused (R124); a write with SWAP that is refused is ignored whole, and one that is not acts once the
other fields are stored (R122, R123). -/
def Dev.writeRcf (d : Dev) (h : How) (r : RegRow) (off : Nat) (v : Word) : Dev × Bool :=
  match d.rcfGuard off 4 with
  | some p => (d.rcfRefuse p, true)
  | none =>
    let f := (off - 0x0A1000) / 0x20
    if 0x0A1000 ≤ off ∧ off < 0x0A5000 ∧ (off - 0x0A1000) % 0x20 = 0 ∧ v.getLsbD 31 = true then
      match d.swapRefusal f with
      | some reason => (d.raise 0x0602 0 (reason * 2 ^ 24 + f), false)
      | none => ((d.storeReg r h.secure off v).later (.swap f v), false)
    else (d.storeReg r h.secure off v, false)

def Dev.writeOut (d : Dev) (h : How) (r : RegRow) (off : Nat) (v : Word) : Dev :=
  if off = Off.OUT_BQ_SEL then d.bqSelectWrite v
  else if off = Off.OUT_BQ_CMT then (if v.getLsbD 31 then d.bqCommitWrite else d)
  else d.storeReg r h.secure off v

/-- GO of RBT_MOVE_CMD (R167). -/
def Dev.moveGo (d : Dev) : Dev :=
  let st := d.fld Off.RBT_MOVE_CMD 30 28
  if st = 1 ∨ st = 2 then d
  else (d.later (.move (d.fld Off.RBT_MOVE_OLD 13 0) (d.fld Off.RBT_MOVE_NEW 13 0) (d.rd Off.RBT_MOVE_GAIN))).setFld
    Off.RBT_MOVE_CMD 30 28 1

def Dev.writeRbt (d : Dev) (h : How) (r : RegRow) (off : Nat) (v : Word) : Dev :=
  if off = Off.RBT_MOVE_CMD then (if v.getLsbD 31 then d.moveGo else d)
  else d.storeReg r h.secure off v

def Dev.writePrt (d : Dev) (h : How) (r : RegRow) (off : Nat) (v : Word) : Dev :=
  if off < 0x0D4000 then
    let p := (off - 0x0D0000) / 0x400
    match (off - 0x0D0000) % 0x400 with
    | 0 => d.portCfgWrite p v h.tdm
    | 8 => if v.getLsbD 31 then d.smaskCommit p else d
    | _ => d.storeReg r h.secure off v
  else if off = Off.PRT_FCLK_CTL then d.fclkCtlWrite v
  else if 0x0D8800 ≤ off ∧ (off - 0x0D8800) % 0x100 = 0 then
    let t := (off - 0x0D8800) / 0x100
    let d := d.storeReg r h.secure off v
    let d := if v.getLsbD 31 then d.free (.aesTx t) else d
    if v.getLsbD 30 then d.csGo t else d
  else d.storeReg r h.secure off v

/-- GO of LPO_MEAS_CMD (R238). -/
def Dev.measGo (d : Dev) : Dev :=
  let e := d.fld Off.LPO_MEAS_CMD 3 0
  match d.fld Off.LPO_MEAS_CMD 30 28 with
  | 0 => d.measReset e
  | 1 => d.measIr e
  | _ => d

/-- LPO: words of a protected bank are refused, and a refused SWAP write is ignored whole (R231). -/
def Dev.writeLpo (d : Dev) (h : How) (r : RegRow) (off : Nat) (v : Word) : Dev × Bool :=
  match d.lpoGuard off with
  | some c => (d.lpoRefuse c, true)
  | none =>
    let c := (off - 0x0E1000) / 0x200
    let swap := decide (0x0E1000 ≤ off ∧ off < 0x0E3000 ∧ (off - 0x0E1000) % 0x200 = 0) && v.getLsbD 31
    if swap && d.lpoSwapRefused c then (d.raise 0x0B04 0 (256 + c), false)
    else
      let d := d.storeReg r h.secure off v
      (if !v.getLsbD 31 then d
       else if off = Off.LPO_SYNC then d.syncGo
       else if off = Off.LPO_MEAS_CMD then d.measGo
       else if swap then d.later (.lpoSwap c v)
       else d, false)

def Dev.writeNet (d : Dev) (h : How) (r : RegRow) (off : Nat) (v : Word) : Dev :=
  if 0x0F1000 ≤ off ∧ off < 0x0F2000 then
    let s := (off - 0x0F1000) / 0x20
    if off % 0x20 = 0 then d.streamCtlWrite false s v
    else if off % 0x20 = 4 ∨ off % 0x20 = 12 then Dev.igmpDiff d (d.storeReg r h.secure off v)
    else d.storeReg r h.secure off v
  else if 0x0F2000 ≤ off ∧ off < 0x0F3000 ∧ off % 0x20 = 0 then (d.streamCtlWrite true ((off - 0x0F2000) / 0x20) v).txResolve
  else
    let was := d.portIp ((off - 0x0F0000) / 0x40)
    let d := (d.storeReg r h.secure off v).txResolve
    if off < 0x0F0100 ∧ off % 0x40 = 0 then d.refreshLink ((off - 0x0F0000) / 0x40)
    else if 0x0F0000 ≤ off ∧ off < 0x0F0100 then (if was = 0 then d.joinAll ((off - 0x0F0000) / 0x40) else d)
    else d

def Dev.writePtp (d : Dev) (h : How) (r : RegRow) (off : Nat) (v : Word) : Dev :=
  if off < 0x100010 then d.ptpTimeWrite ((off - 0x100000) / 4) v
  else if off = Off.PTP_SEL then d.ptpSelWrite v
  else if off = Off.PTP_MCLK_CFG then (d.storeReg r h.secure off v).freeAll
    ((if v.getLsbD 31 then [OutBall.mclkOut] else []) ++ (if v.getLsbD 29 then [.wclkOut] else []) ++
      (if v.getLsbD 28 then [.ppsOut] else []))
  else d.storeReg r h.secure off v

def Dev.writeTwn (d : Dev) (h : How) (r : RegRow) (off : Nat) (v : Word) : Dev :=
  let d := d.storeReg r h.secure off v
  if off = Off.TWN_LDG_CMD ∧ v.getLsbD 31 = true then d.ldgGo
  else if off = Off.TWN_CLAIM ∧ h.secure = true then d.conflictCheck
  else d

def Dev.writeDrv (d : Dev) (h : How) (r : RegRow) (off : Nat) (v : Word) : Dev :=
  if 0x120100 ≤ off ∧ (off - 0x120100) % 0x10 = 4 then
    (if v.getLsbD 29 then d.latchClear ((off - 0x120100) / 0x10) else d)
  else d.storeReg r h.secure off v

def Dev.writeDmc (d : Dev) (h : How) (r : RegRow) (off : Nat) (v : Word) : Dev :=
  let c := (off - 0x130000) / 0x4000
  let o := (off - 0x130000) % 0x4000
  if o = 0x18 then d.storeReg r h.secure off v
  else if !h.secure then d
  else if o = 0 then d.dmcCtlWrite c v
  else if o = 4 then d.dmcPwrWrite c v
  else if 0x100 ≤ o ∧ o < 0x140 then d.dmcTsetWrite false c ((o - 0x100) / 4) v
  else if 0x180 ≤ o ∧ o < 0x1C0 then d.dmcTsetWrite true c ((o - 0x180) / 4) v
  else d.storeReg r h.secure off v

def Dev.writeEvt (d : Dev) (h : How) (r : RegRow) (off : Nat) (v : Word) : Dev :=
  if off = Off.EVT_TAIL then d.evtTailWrite v
  else if off = Off.EVT_CTL then d.evtCtlWrite v
  else if off = Off.EVT_STAT then d.evtStatWrite v
  else if (off = Off.EVT_BASE_LO ∨ off = Off.EVT_BASE_HI ∨ off = Off.EVT_SIZE) ∧ d.evtEn = true then d
  else d.storeReg r h.secure off v

/-- DIV_DETOUR_CFG: ARM stays 0 while index 15 is not resident; FIRED is W1C (R43). -/
def Dev.detourCfg (d : Dev) (v : Word) : Dev :=
  let d := if v.getLsbD 31 then d.setBit Off.DIV_DETOUR_CFG 31 false else d
  d.setBit Off.DIV_DETOUR_CFG 0 (v.getLsbD 0 && d.isResident 15)

def Dev.writeDiv (d : Dev) (h : How) (r : RegRow) (off : Nat) (v : Word) : Dev :=
  if off = Off.DIV_DETOUR_CFG then d.detourCfg v
  else
    let d := d.storeReg r h.secure off v
    if off = Off.DIV_APPLY_R ∧ v.getLsbD 31 = true then d.divGo else d

/-- A completed write of one register word, and whether it is answered with an error response. The effects that reach beyond the
device (OTP, image sources, the debug key) are the access path's. -/
def Dev.writeReg (d : Dev) (h : How) (off : Nat) (v : Word) : Dev × Bool :=
  if 0x070000 ≤ off ∧ off < 0x080000 then
    ({ d with obj := { d.obj with mbox := setBytes d.obj.mbox off (leBytes 4 v.toNat) } }, false)
  else match regRow off with
  | none => (d, false)
  | some r =>
    match off / 0x10000 with
    | 0x00 => (d.writeSys h r off v, false)
    | 0x01 => (d.writeLmp h r off v, false)
    | 0x02 => (if off = Off.SEC_REVOKE_R then d else d.storeReg r h.secure off v, false)
    | 0x04 => (d.writeIcx h r off v, false)
    | 0x06 =>
      let d := d.storeReg r h.secure off v
      (if off = Off.OBJ_MBOX_POST ∧ v.getLsbD 31 = true then d.mboxPostGo (d.fld Off.OBJ_MBOX_POST 2 0) else d, false)
    | 0x0A => d.writeRcf h r off v
    | 0x0B => (d.writeOut h r off v, false)
    | 0x0C => (d.writeRbt h r off v, false)
    | 0x0D => (d.writePrt h r off v, false)
    | 0x0E => d.writeLpo h r off v
    | 0x0F => (d.writeNet h r off v, false)
    | 0x10 => (d.writePtp h r off v, false)
    | 0x11 => (d.writeTwn h r off v, false)
    | 0x12 => (d.writeDrv h r off v, false)
    | 0x13 => (d.writeDmc h r off v, false)
    | 0x14 => (if off = Off.WDN_MEM_DATA then (d.wdnMem (some v)).1 else d.storeReg r h.secure off v, false)
    | 0x17 => (d.writeEvt h r off v, false)
    | 0x18 => (d.writeDiv h r off v, false)
    | _ => (d.storeReg r h.secure off v, false)

/-! ### Table windows (R359) -/

/-- The size of an entry at an offset. -/
def entrySize (off : Nat) : Nat :=
  if off < 0x1100000 then 128
  else if off < 0x1200000 then 64
  else if off < 0x1400000 then 0x10000
  else if off < 0x1800000 then 32
  else if off < 0x1C00000 then 64
  else if off < 0x1C40000 then 16
  else if off < 0x2000000 then 4
  else 128

/-- Bytes cut where an entry ends. -/
def cut : Nat → Nat → List Byte → List (Nat × List Byte)
  | 0, _, _ => []
  | fuel + 1, off, bs =>
    if bs.isEmpty then []
    else
      let n := entrySize off - off % entrySize off
      (off, bs.take n) :: cut fuel (off + n) (bs.drop n)

/-- The SDRAM byte address that an offset of the aperture maps (R32 of the DIV block). -/
def Dev.aperAddr (d : Dev) (off : Nat) : Nat := d.fld Off.DIV_SDRAM_APER 11 0 * 0x1000000 + (off - 0x3000000)
/-- An access outside populated SDRAM or into the staging area. -/
def Dev.aperBad (d : Dev) (off n : Nat) : Bool := decide (d.stagingBase < d.aperAddr off + n)

/-- The bits of a window's byte that a write stores: a reserved bit keeps 0 (R316). -/
def tabMask (off : Nat) : Byte :=
  if off < 0x1020000 then objMask (off % 128)
  else if 0x1100000 ≤ off ∧ off < 0x1100200 then lisMask (off % 64)
  else if 0x1C00000 ≤ off ∧ off < 0x1C40000 then (if off % 16 = 4 then 1 else if off % 16 = 5 ∨ off % 16 = 6 ∨ off % 16 = 7 then 0 else 0xFF)
  else if 0x1C40000 ≤ off ∧ off < 0x1C44000 then (if off % 4 = 2 then 0 else 0xFF)
  else if 0x2000000 ≤ off ∧ off < 0x2080000 then tmplMask (off % 128)
  else 0xFF

/-- Bytes kept as written, and established at the boundary. -/
def Dev.tabLater (d : Dev) (off : Nat) (bs : List Byte) : Dev :=
  let bs := ((List.range bs.length).zip bs).map (fun p => p.2 &&& tabMask (off + p.1))
  (d.setTabW off bs).later (.tab off bs)

/-- One write inside one entry of a window, and whether it is answered with an error response. -/
def Dev.writeEntry (d : Dev) (off : Nat) (bs : List Byte) : Dev × Bool :=
  if off < 0x1020000 then
    let cells := ((List.range bs.length).zip bs).filter (fun p => decide (2 ≤ (off + p.1) % 128) && decide ((off + p.1) % 128 < 64))
    match cells with
    | [] => (d, false)
    | p :: _ => (d.tabLater (off + p.1) (cells.map (fun q => q.2)), false)
  else if 0x1100000 ≤ off ∧ off < 0x1100200 then
    let cells := ((List.range bs.length).zip bs).filter (fun p => decide (2 ≤ (off + p.1) % 64) && decide ((off + p.1) % 64 < 32))
    match cells with
    | [] => (d, false)
    | p :: _ => (d.tabLater (off + p.1) (cells.map (fun q => q.2)), false)
  else if 0x1200000 ≤ off ∧ off < 0x1400000 then (d.tabLater off bs, false)
  else if 0x1400000 ≤ off ∧ off < 0x1800000 then
    let cells := d.strWritable off bs
    let d := forL cells (fun c d => d.setTabW c.1 [c.2]) d
    match cells with
    | [] => (d, false)
    | c :: _ =>
      let run := (List.range cells.length).all (fun i => cells.map (fun x => x.1) |>.getD i 0 |> (fun a => a == c.1 + i))
      (if run then d.later (.tab c.1 (cells.map (fun x => x.2))) else forL cells (fun c d => d.later (.tab c.1 [c.2])) d, false)
  else if 0x1800000 ≤ off ∧ off < 0x1A00000 then
    match d.rcfGuard off bs.length with
    | some p => (d.rcfRefuse p, true)
    | none => (d.tabLater off bs, false)
  else if 0x1C00000 ≤ off ∧ off < 0x1C44000 then (d.tabLater off bs, false)
  else if 0x2000000 ≤ off ∧ off < 0x2080000 then (if d.rendering then (d, true) else (d.tabLater off bs, false))
  else if 0x2800000 ≤ off ∧ off < 0x3000000 then (d, true)
  else if 0x3000000 ≤ off ∧ off < 0x4000000 then
    if d.aperBad off bs.length then (d, true)
    else match d.rcfGuardSdram (d.aperAddr off) bs.length with
      | some p => (d.rcfRefuse p, true)
      | none => (d.sdWrite (d.aperAddr off) bs, false)
  else (d, false)

/-- A write of any length to the table windows, in ascending address; it ends at the first error response. -/
def Dev.writeTable (d : Dev) (off : Nat) (bs : List Byte) : Dev × Bool :=
  (cut (bs.length + 1) off bs).foldl (fun r p => if r.2 then r else r.1.writeEntry p.1 p.2) (d, false)

/-! ### Establishing at boundary n (step 5 of R9, R11) -/

/-- A register word is established: the established copy takes its read-write bits, and the units that act on a change do. -/
def Dev.estReg (d : Dev) (off : Nat) (v : Word) (n : Nat) : Dev :=
  let old := d.re off
  let m := match regRow off with | some r => r.bits (fun a => a == .rw || a == .rws) | none => 0
  let new := (old &&& ~~~ m) ||| (v &&& m)
  let d := d.we off new
  match off / 0x10000 with
  | 0x04 => if off = Off.ICX_SPARE_MAP then d.estSpareMap v else d
  | 0x0A =>
    let f := (off - 0x0A1000) / 0x20
    if 0x0A1000 ≤ off ∧ off < 0x0A5000 then
      (if ((off - 0x0A1000) % 0x20 = 0 ∧ lenUsed (getBits old 15 0) ≠ lenUsed (getBits new 15 0)) ∨
          ((off - 0x0A1000) % 0x20 = 0x1C ∧ old ≠ new) then d.convHistoryChanged f (n - 1) else d)
    else d
  | 0x0B => d.outEstablished off old new
  | 0x0C => if 0x0C1000 ≤ off ∧ off < 0x0C1200 ∧ old ≠ new then d.asrcReset ((off - 0x0C1000) / 8) (getBits old 27 24) else d
  | 0x0D => if off < 0x0D4000 ∧ off % 0x400 = 0 then d.portEstablished ((off - 0x0D0000) / 0x400) old new else d
  | 0x0E => d.lpoEstablished off old new n
  | 0x11 => if off = Off.TWN_CTL then d.twnEstablished new else d
  | 0x12 => if 0x120100 ≤ off ∧ off % 0x10 = 0 then d.drvEstablished ((off - 0x120100) / 0x10) new else d
  | _ => d

/-- Bytes of a table window are established (each window's own rule). They read back as written even where a record, a move or
geometry has changed them since: the write prevails (R59, R100). -/
def Dev.estTab (d : Dev) (off : Nat) (bs : List Byte) (n : Nat) : Dev :=
  let d := d.setTabW off bs
  if off < 0x1020000 then
    let o := (off - 0x1000000) / 128
    Dev.objectChanged d (d.estObject off bs (n - 1)) o (n - 1)
  else if off < 0x1100200 then d.estListener off bs (n - 1)
  else if off < 0x1400000 then d.estLayout off bs
  else if 0x1C00000 ≤ off ∧ off < 0x1C40000 then d.estXp off bs
  else d.setTabE off bs

/-- One waiting change established at boundary n. -/
def Dev.establish1 (d : Dev) (p : Pend) (n : Nat) : Dev :=
  match p with
  | .reg off v => d.estReg off v n
  | .tab off bs => d.estTab off bs n
  | .migrate t q =>
    let a := tmplBase t + 6
    (d.setTabW a [(d.tw a &&& 0xFC) ||| BitVec.ofNat 8 q]).setTabE a [(d.te a &&& 0xFC) ||| BitVec.ofNat 8 q]
  | .fenceQuarter q => forN 8 (fun i d => d.fence (8 * q + i) 1) d
  | .swap f _ => d.swapEstablish f (n - 1) false
  | .bqCommit f i c => d.bqEstablish f i c
  | .move old new g => d.estMove old new g
  | .lpoSwap c _ => d.lpoSwapEstablish c (n - 1)
  | .streamOff tx s =>
    let d := d.streamCtlWrite tx s (putBits (d.rd (if tx then Off.NET_TX_CTL s else Off.NET_RX_CTL s)) 31 31 0)
    { d with net := { d.net with stopping := d.net.stopping.filter (fun x => !(x.1 == tx && x.2.1 == s)) } }

/-- The Street whose entry a waiting change touches. -/
def Pend.street (p : Pend) : Option Nat :=
  match p with
  | .tab off _ => if 0x1400000 ≤ off ∧ off < 0x1800000 then some ((off - 0x1400000) / 32) else none
  | _ => none

/-- Waiting changes established in order at boundary n; the Streets they start anew start from what all of them leave (R100). -/
def Dev.establishAll (d : Dev) (ps : List Pend) (n : Nat) : Dev :=
  let r := ps.foldl (fun (r : Dev × List Nat) p =>
    let d := r.1.establish1 p n
    match p.street with
    | some i => (d, if r.1.strKey i = d.strKey i ∨ i ∈ r.2 then r.2 else i :: r.2)
    | none => (d, r.2)) (d, [])
  r.2.foldl (fun d i => d.startStreet i) r.1

def Dev.establish (d : Dev) (n : Nat) : Dev :=
  ({ d with pendW := [] }.establishAll d.pendW n).shelfClear

/-- Writes whose effects are established at once, at boundary n (R40, R278): only what they themselves queue is established;
what waited before still waits. -/
def Dev.establishNow (f : Dev → Dev) (n : Nat) (d : Dev) : Dev :=
  let k := d.pendW.length
  let d := f d
  { d with pendW := d.pendW.take k }.establishAll (d.pendW.drop k) n

end Sys2Proof.Machine
end

