-- ==== Sys2Proof/Machine/Reads.lean ====
section
/-! DEFINITION. What a read of a register word or of a table window returns, and what it changes (R6, R315 to R317): the fields
that the device itself holds are laid over the stored words. -/

namespace Sys2Proof.Machine

/-! ### Registers -/

def flagBit (b : Bool) (i : Nat) : Nat := if b then 2 ^ i else 0
def bits4 (p : Nat → Bool) : Nat := sumN 4 (fun i => flagBit (p i) i)
def Otp.programmed (o : Otp) (i : Nat) : Bool := !(mget (fun _ => []) o.keys i).isEmpty
/-- Byte i of the unique identifier. -/
def Otp.uidByte (o : Otp) (i : Nat) : Byte := BitVec.ofNat 8 (bitsOf o.uid.toNat (8 * i + 7) (8 * i))
def leWord (bs : List Byte) (i : Nat) : Word := BitVec.ofNat 32 (leNat ((bs.drop (4 * i)).take 4))

/-- SEC_STAT (R320, R321). -/
def Dev.secStat (d : Dev) (o : Otp) : Nat :=
  flagBit o.hostTrust 31 + flagBit o.dbgDisable 30 + flagBit (o.programmed 4) 29 + flagBit d.sys.provisioning 28 + o.revoked.toNat * 16 +
    bits4 o.programmed

/-- DBG_STAT (R322). -/
def Dev.dbgStat (d : Dev) (o : Otp) : Nat :=
  d.sys.dbgLevel * 2 ^ 30 + flagBit d.sys.dbgLocked 29 + flagBit o.dbgDisable 28 + flagBit d.sys.nonce.isSome 27 + d.sys.dbgFails

/-- SYS_TICK_PHASE (R8). -/
def Dev.tickPhase (d : Dev) : Nat :=
  (if d.clk.valid then min (d.L - 1) (d.nowIndex d.fs - d.clk.tick * d.L) else 0) * 2 ^ 24 + flagBit d.clk.past 19 + min d.clk.elapsed 333333

/-- The words that stand elsewhere than in the register file. -/
def Dev.live (d : Dev) (o : Otp) (off : Nat) : Word :=
  let n := BitVec.ofNat 32
  if off = Off.SYS_STAT then n (flagBit d.straps.twinB 2 + d.straps.bootSel)
  else if off = Off.SYS_HOST_TRUST then n (flagBit o.hostTrust 31 + d.fld off 2 0)
  else if off = Off.SYS_TICK_LO then n (d.clk.tick % 2 ^ 32)
  else if off = Off.SYS_TICK_HI then n (d.clk.tick / 2 ^ 32)
  else if off = Off.SYS_TICK_PHASE then n d.tickPhase
  else if off = Off.SEC_STAT then n (d.secStat o)
  else if off = Off.SEC_REVOKE_R then n o.revoked.toNat
  else if 0x020010 ≤ off ∧ off < 0x020020 then leWord ((List.range 16).map o.uidByte) ((off - 0x020010) / 4)
  else if 0x020100 ≤ off ∧ off < 0x020200 then
    leWord (mget (fun _ => []) o.keys ((off - 0x020100) / 0x40)) ((off - 0x020100) % 0x40 / 4)
  else if off = Off.ICX_STAT then n d.icxStat
  else if 0x040800 ≤ off ∧ off < 0x040C00 then d.rd off ||| n (d.unreleased ((off - 0x040800) / 4))
  else if 0x050000 ≤ off ∧ off < 0x058000 ∧ off % 0x400 = 8 then n (d.sqJob ((off - 0x050000) / 0x400))
  else if off = Off.OBJ_PENDING then n (min 16384 d.obj.pending.length)
  else if Off.RBT_HB_COEF 0 ≤ off ∧ off < Off.RBT_HB_COEF 17 then hbCoef ((off - Off.RBT_HB_COEF 0) / 4)
  else if Off.LPO_HB1_COEF 0 ≤ off ∧ off < Off.LPO_HB1_COEF 8 then lpCoef 14 ((off - Off.LPO_HB1_COEF 0) / 4)
  else if Off.LPO_HB2_COEF 0 ≤ off ∧ off < Off.LPO_HB2_COEF 16 then lpCoef 30 ((off - Off.LPO_HB2_COEF 0) / 4)
  else if Off.PTP_TIME_SEC_LO ≤ off ∧ off < Off.PTP_TIME_SEC_LO + 16 then d.timeWord ((off - Off.PTP_TIME_SEC_LO) / 4)
  else if off = Off.PTP_STAT then n d.ptpStat
  else if off = Off.PTP_SLEW_REM then n d.slewRem
  else if 0x160000 ≤ off ∧ off < 0x160020 then
    (match d.sys.nonce with
     | some v => n (bitsOf v.toNat (8 * (off - 0x160000) + 31) (8 * (off - 0x160000)))
     | none => 0)
  else if off = Off.DBG_STAT then n (d.dbgStat o)
  else if off = Off.DMC_PWR 0 ∨ off = Off.DMC_PWR 1 then
    d.rd off ||| n (flagBit (decide (d.nsNow < (d.dch ((off - Off.DMC_PWR 0) / 0x4000)).srTo)) 30)
  else if 0x0E1000 ≤ off ∧ off < 0x0E3000 ∧ off % 0x200 = 0 ∧ d.lpSynced ((off - 0x0E1000) / 0x200) then d.rd off &&& 0xF7FFFFFF
  else if off = Off.DIV_IMG_STAT then (d.rd off &&& 0xFFFFFFFD) ||| n (flagBit d.div.rate96 1)
  else d.rd off

/-- The words that a read of one word latches (R315). -/
def latches (off : Nat) : List Nat :=
  if off = Off.SYS_TICK_LO then [Off.SYS_TICK_HI]
  else if off = Off.LMP_RTC_SEC_LO then [Off.LMP_RTC_SEC_HI, Off.LMP_RTC_FRAC]
  else if off = Off.XBR_ERR_ADDR_LO then [Off.XBR_ERR_ADDR_HI]
  else if off = Off.PTP_TIME_SEC_LO then [Off.PTP_TIME_SEC_HI, Off.PTP_TIME_NS, Off.PTP_TIME_FRAC]
  else if off = Off.TWN_LEDGER_SEQ_LO then [Off.TWN_LEDGER_SEQ_HI]
  else if off = Off.TWN_CMP_TICK_LO then [Off.TWN_CMP_TICK_HI]
  else if off = Off.TWN_LDG_ASSIGNED_LO then [Off.TWN_LDG_ASSIGNED_HI]
  else []

/-- Is the word one that reads as latched? -/
def isLatched (off : Nat) : Bool :=
  [Off.SYS_TICK_HI, Off.LMP_RTC_SEC_HI, Off.LMP_RTC_FRAC, Off.XBR_ERR_ADDR_HI, Off.PTP_TIME_SEC_HI, Off.PTP_TIME_NS,
    Off.PTP_TIME_FRAC, Off.TWN_LEDGER_SEQ_HI, Off.TWN_CMP_TICK_HI, Off.TWN_LDG_ASSIGNED_HI].contains off

/-- A mismatch of a word's parity is found (R317, R318). -/
def Dev.parityFound (d : Dev) (off : Nat) : Dev :=
  let d := if d.bit Off.SYS_PARITY_STAT 31 then d else d.wrN Off.SYS_PARITY_ADDR (off / 4)
  let d := ((d.setBit Off.SYS_PARITY_STAT 31 true).setBit Off.SYS_PARITY_STAT 30 true).bumpFld Off.SYS_PARITY_STAT 15 0 1
  let d := d.raise 0x0102 0 (off / 4)
  if off = Off.SYS_PARITY_ACT then { d with sys := { d.sys with actBad := true } }
  else if d.fld Off.SYS_PARITY_ACT 1 0 = 2 ∧ d.sys.actBad = false then d.failingReset 6
  else d

/-- A read of one register word (R6, R315 to R317). -/
def Dev.readReg (d : Dev) (o : Otp) (secure : Bool) (off : Nat) : Dev × Word :=
  if 0x070000 ≤ off ∧ off < 0x080000 then (d, BitVec.ofNat 32 (leNat (getBytes d.obj.mbox off 4)))
  else match regRow off with
  | none => (d, 0)
  | some r =>
    let d := if d.sys.badWords.contains off then d.parityFound off else d
    if off = Off.WDN_MEM_DATA then d.wdnMem none
    else
      let v := if isLatched off then mget regReset d.latch off else d.live o off
      let d := forL (latches off) (fun h (d : Dev) => { d with latch := mset regReset d.latch h (d.live o h) }) d
      let rc := r.bits (fun a => a == .rc)
      let d := if rc = 0 then d else d.wr off ((d.rd off &&& ~~~ rc) ||| (regReset off &&& rc))
      (d, v &&& r.readable secure)

/-! ### Table windows (R359) -/

/-- One byte of a window as it reads: reserved bits read 0 (R316), but for those of a layout, which read as written (R66). -/
def Dev.tabByte (d : Dev) (off : Nat) : Byte :=
  if off < 0x1020000 then
    let o := (off - 0x1000000) / 128
    let r := (off - 0x1000000) % 128
    if r < 2 then (leBytes 2 o).getD r 0
    else if r < 64 then d.tw off &&& objMask r
    else (d.objState o).getD (r - 64) 0
  else if 0x1100000 ≤ off ∧ off < 0x1100200 then
    let i := (off - 0x1100000) / 64
    let r := (off - 0x1100000) % 64
    if r < 2 then (leBytes 2 i).getD r 0
    else if r < 32 then d.tw off &&& lisMask r
    else (d.lisState i).getD (r - 32) 0
  else if 0x1400000 ≤ off ∧ off < 0x1800000 then d.strByte off
  else if 0x1C00000 ≤ off ∧ off < 0x1C40000 then
    let x := (off - 0x1C00000) / 16
    let r := off % 16
    if r = 4 then d.xpFlags x (d.tw off)
    else if 5 ≤ r ∧ r < 8 then 0
    else if r < 12 then d.tw off
    else (leBytes 4 (d.xp x).cur.toNat).getD (r - 12) 0
  else if 0x1C40000 ≤ off ∧ off < 0x1C44000 then (if off % 4 = 2 then 0 else d.tw off)
  else if 0x1200000 ≤ off ∧ off < 0x1A00000 then d.tw off
  else if 0x2000000 ≤ off ∧ off < 0x2080000 then d.tw off &&& tmplMask (off % 128)
  else 0

/-- Where in SDRAM an access of n bytes to the measurement window or the aperture lies; none: it gets an error response. The measurement
window maps from LPO_MEAS_BASE as the register reads (R237). -/
def Dev.windowAt (d : Dev) (off n : Nat) : Option Nat :=
  if off < 0x3000000 then
    let a := (d.rd Off.LPO_MEAS_BASE).toNat * 128 + (off - 0x2800000)
    (if d.stagingBase < a + n then none else some a)
  else if d.aperBad off n then none else some (d.aperAddr off)

/-- A read of a window; none: an error response. -/
def Dev.readTable (d : Dev) (off n : Nat) : Option (List Byte) :=
  if 0x2800000 ≤ off ∧ off < 0x4000000 then
    match d.windowAt off n with
    | some a => d.sdRead a n
    | none => none
  else some ((List.range n).map (fun i => d.tabByte (off + i)))

end Sys2Proof.Machine
end

