-- ==== Sys2Proof/Machine/Ledger.lean ====
section
/-! DEFINITION. The writes of records, the establishing of Diversions and Ledger entries (R40 to R42, R277 to R279), and the
transfers of EPOCH and RSTATE contents (R270, R280 to R282). -/

namespace Sys2Proof.Machine

/-! ### The writes of a record (R27) -/

/-- Every write inside one entry is answered on its own; the others stand (R42, R124). -/
def Dev.writeTableAll (d : Dev) (off : Nat) (bs : List Byte) : Dev × Bool :=
  (cut (bs.length + 1) off bs).foldl (fun (r : Dev × Bool) p =>
    let x := r.1.writeEntry p.1 p.2
    (x.1, r.2 || x.2)) (d, false)

/-- One granule of an SDRAM_WRITE: BASE is written, then the bytes go through the aperture. -/
def Dev.sdramGranule (d : Dev) (a : Nat) (bs : List Byte) : Dev × Bool :=
  let d := d.setFld Off.DIV_SDRAM_APER 11 0 (a / 0x1000000)
  if d.stagingBase < a + bs.length then (d, true)
  else match d.rcfGuardSdram a bs.length with
    | some p => (d.rcfRefuse p, true)
    | none => (d.sdWrite a bs, false)

/-- An SDRAM_WRITE, granule by granule; `stop`: it ends at the first error response. -/
def Dev.sdramRec (d : Dev) (stop : Bool) (a : Nat) (bs : List Byte) : Dev × Bool :=
  (List.range ((bs.length + 127) / 128)).foldl (fun (r : Dev × Bool) i =>
    if stop && r.2 then r
    else
      let x := r.1.sdramGranule (a + 128 * i) ((bs.drop (128 * i)).take 128)
      (x.1, r.2 || x.2)) (d, false)

/-- One write of a record, and whether it was answered with an error response. -/
def Dev.recWrite (d : Dev) (o : Otp) (h : How) (stop : Bool) (w : RWrite) : Dev × Bool :=
  match w with
  | .reg off v => d.writeReg h off v
  | .field off mask v =>
    let r := d.readReg o h.secure off
    r.1.writeReg h off ((r.2 &&& ~~~ mask) ||| (v &&& mask))
  | .table off bs => if stop then d.writeTable off bs else d.writeTableAll off bs
  | .sdram a bs => d.sdramRec stop a bs
  | _ => (d, false)

/-- All the writes of a body of records, in record order, established at boundary n. -/
def Dev.bodyWrites (body : List Byte) : List RWrite :=
  ((walkRecs (fun _ => none) false (body.length / 8 + 1) 0 body).recs.map Rec.writes).flatten

/-! ### Diversions (R40 to R42) -/

/-- The records of a resident Diversion. -/
def Dev.divWrites (d : Dev) (index : Nat) : List RWrite :=
  let img := (d.div.resident.find? (fun e => e.1 == index)).elim [] (fun e => e.2)
  Dev.bodyWrites ((img.take (img.length - 208)).drop 64)

/-- One activation established at boundary n. Only the Detour sets a port to TDM (R177). -/
def Dev.divApply (d : Dev) (o : Otp) (a : Act) (n : Nat) : Dev :=
  let h : How := ⟨true, false, a.index == 15⟩
  let d := { d with div := { d.div with queue := d.div.queue.filter (fun x => x != a) }, sdBy := 6 }
  let d := forL (d.divWrites a.index) (fun w d => Dev.establishNow (fun d => (d.recWrite o h false w).1) n d) d
  (d.divResult 2 a.index).raise 0x1003 0 (a.tick % 65536 * 65536 + a.index)

/-- Insertion by apply tick. -/
def actInsert (a : Act) : List Act → List Act
  | [] => [a]
  | x :: xs => if x.tick ≤ a.tick then x :: actInsert a xs else a :: x :: xs

/-- The Diversions of step 4 of R9 at boundary n: those whose boundary has come, in ascending apply tick (R41). -/
def Dev.divStep (d : Dev) (o : Otp) (n : Nat) : Dev :=
  forL ((d.div.queue.filter (fun a => decide (a.tick < n))).foldl (fun l a => actInsert a l) []) (fun a d => d.divApply o a n) d

/-! ### Ledger entries (R277, R278) -/

/-- One write of a RECORDS entry. A SWAP takes effect at the apply tick; while the feed's crossfade runs the write has no effect at all
(R122, R123). -/
def Dev.ledgerWrite (d : Dev) (o : Otp) (n : Nat) (w : RWrite) : Dev :=
  let swap := fun (off : Nat) (v : Word) =>
    decide (0x0A1000 ≤ off) && decide (off < 0x0A5000) && decide ((off - 0x0A1000) % 0x20 = 0) && v.getLsbD 31
  let h : How := ⟨true, false, false⟩
  let go := fun (w : RWrite) => Dev.establishNow (fun d => (d.recWrite o h false w).1) n (d.by 11)
  let swapGo := fun (off : Nat) (w : RWrite) =>
    (if d.bit off 30 then d else go w).swapEstablish ((off - 0x0A1000) / 0x20) (n - 1) true
  match w with
  | .reg off v => if swap off v then swapGo off (.reg off (v &&& 0x7FFFFFFF)) else go w
  | .field off m v => if swap off (m &&& v) then swapGo off (.field off m (v &&& 0x7FFFFFFF)) else go w
  | w => go w

/-- One entry established at boundary n. A KAZEO frame's records, which the accepting unit has checked (R277), join the pending
store; a frame moved forward is late (R54). A frame that finds no room there is dropped with META_OVERFLOW (log entry 171). -/
def Dev.entryApply (d : Dev) (o : Otp) (e : LEntry) (n : Nat) : Dev :=
  let d := d.setTwn { d.twn with ledger := d.twn.ledger.map (fun x => if x.seq == e.seq then { x with done := true } else x) }
  match e.ekind with
  | 1 => forL (Dev.bodyWrites e.body) (fun w d => d.ledgerWrite o n w) d
  | 2 =>
    let asap := decide (fWord e.body 6 2 % 2 = 1)
    if 16384 < d.obj.pending.length + fWord e.body 10 2 then
      (d.raise 0x0405 0 (4 * 2 ^ 16 + frameSrc e.body)).dropFrame e.body
    else d.pendRecords e.body (frameRecords e.body) (if asap then e.apply else d.frameApply e.body) e.apply
  | _ => d

/-- Ledger entries at step 4 of R9 at boundary n, in ascending SEQ (R278). -/
def Dev.entryStep (d : Dev) (o : Otp) (n : Nat) : Dev :=
  forL (d.twn.ledger.filter (fun e => !e.done && decide (e.apply < n))) (fun e d =>
    let d := d.entryApply o e n
    if e.late then (d.setTwn { d.twn with ldgBad := n + 1 }).raise 0x0D09 0 e.seq else d) d

/-- LEDGER_GAP: a missing entry that a due one waits for (R279). -/
def Dev.gapStep (d : Dev) (n : Nat) : Dev :=
  let miss := d.ledgerSeq + 1
  if d.twn.held.any (fun e => decide (e.apply < n)) && !d.needsEpoch && d.twn.gapSaid != miss then
    (d.setTwn { d.twn with
      gapSaid := miss
      ldgBad := n + 1 }).raise 0x0D0A 0 miss
  else d

/-- The primary repeats each entry until the partner's Courier reports it (R279), and keeps it for that while there is no partner; a unit
whose Twin engine does not run keeps only what is still to be established. -/
def Dev.repeatStep (d : Dev) : Dev :=
  let d := if d.twnOn then d else d.setTwn { d.twn with ledger := d.twn.ledger.filter (fun e => e.open_ d.clk.tick) }
  if d.primary && d.twn.present then forL (d.twn.ledger.filter (fun e => decide (d.twn.pLedger < e.seq))) (fun e d => d.ledgerSend e) d
  else d

/-! ### Transfers (R270) -/

/-- Chunks of at most 8,192 bytes. -/
def chunks : Nat → Nat → List Byte → List (Nat × List Byte)
  | 0, _, _ => []
  | fuel + 1, off, bs => if bs.isEmpty then [] else (off, bs.take 8192) :: chunks fuel (off + 8192) (bs.drop 8192)

/-- A whole content and its COMMIT. -/
def Dev.sendXfer (d : Dev) (content part tick x seq : Nat) (data : List Byte) : Dev :=
  let id := d.twn.xferId
  let head := leBytes 1 content ++ leBytes 1 part ++ leBytes 2 0 ++ leBytes 4 id
  let d := forL (chunks (data.length / 8192 + 1) 0 data) (fun c d => d.twinSend 5 d.clk.tick (head ++ leBytes 8 c.1 ++ c.2)) d
  let d := d.twinSend 6 d.clk.tick (head ++ leBytes 8 data.length ++ leBytes 4 (crc32c data) ++ leBytes 4 0 ++ leBytes 8 tick ++
    leBytes 8 x ++ leBytes 8 seq)
  d.setTwn { d.twn with xferId := (id + 1) % 2 ^ 32 }

/-- SNAPSHOT_CHUNK_RX. -/
def Dev.chunkTake (d : Dev) (f : List Byte) : Dev :=
  match d.twinTake 5 f with
  | (d, none) => d
  | (d, some t) =>
    let b := t.body
    let c := fByte b 0
    let off := fWord b 8 8
    let data := b.drop 16
    if b.length < 16 ∨ 8192 < data.length ∨ fWord b 2 2 ≠ 0 ∨ c = 0 ∨ 5 < c ∨ (d.twnOn = false ∧ c ≠ 5) then d
    else
      let same := fun (x : Xfer) => x.content == c && x.part == fByte b 1 && x.id == fWord b 4 4
      let old : Xfer := (d.twn.xfers.find? same).getD ⟨c, fByte b 1, fWord b 4 4, [], 0, true⟩
      let new : Xfer := { old with
        data := setBytes old.data off data
        count := old.count + data.length
        inOrder := old.inOrder && decide (off = old.count) }
      d.setTwn { d.twn with xfers := d.twn.xfers.filter (fun x => !(x.content == c && x.part == fByte b 1)) ++ [new] }

/-- A committed content: the content code, its part and its bytes. -/
structure Committed where
  content : Nat
  part    : Nat
  data    : List Byte
  deriving DecidableEq, Repr

/-- COMMIT_RX: an EPOCH or RSTATE content waits for its boundary; an image is handed to the loader (R270, R280 to R283). -/
def Dev.commitTake (d : Dev) (f : List Byte) : Dev × Option Committed :=
  match d.twinTake 6 f with
  | (d, none) => (d, none)
  | (d, some t) =>
    let b := t.body
    let c := fByte b 0
    let mine := fun (x : Xfer) => x.content == c && x.part == fByte b 1 && x.id == fWord b 4 4
    match d.twn.xfers.find? mine with
    | none => (d, none)
    | some x =>
      let d := d.setTwn { d.twn with xfers := d.twn.xfers.filter (fun y => !mine y) }
      let data := getBytes x.data 0 x.count
      if b.length ≠ 48 ∨ fWord b 8 8 ≠ x.count ∨ crc32c data ≠ fWord b 16 4 then (d, none)
      else if c = 1 then
        (if d.needsEpoch then d.setTwn { d.twn with epoch := some ⟨fWord b 24 8, fWord b 32 8, fWord b 40 8, data⟩ } else d, none)
      else if c = 2 then
        (if d.twn.st = 2 ∧ x.part < 24 then d.setTwn { d.twn with rstate := some (x.part, fWord b 24 8, data) } else d, none)
      else (d, some ⟨c, x.part, data⟩)

/-! ### EPOCH contents (R280) -/

/-- A record in the form of R26. -/
def recBytes (type : Nat) (payload : List Byte) : List Byte :=
  let n := (payload.length + 7) / 8 * 8
  leBytes 2 type ++ leBytes 2 0 ++ leBytes 4 (8 + n) ++ payload ++ List.replicate (n - payload.length) 0

/-- The offsets of a row's words. -/
def RegRow.offs (r : RegRow) : List Nat :=
  ((List.range r.n1).map (fun i => (List.range r.n2).map (fun j => r.base + i * r.s1 + j * r.s2))).flatten

/-- The registers of R39 as established: those with read-write bits. -/
def Dev.epochRegs (d : Dev) : List (Nat × Nat) :=
  let rows := (regBlocks.map (fun b => b.2.2)).flatten
  let regs := (rows.map (fun r =>
    let m := r.bits (fun a => a == .rw || a == .rws)
    if m = 0 then [] else (r.offs.filter regTarget).map (fun off => (off, ((if r.late then d.re off else d.rd off) &&& m).toNat)))).flatten
  regs ++ (List.range 16384).map (fun i => (0x070000 + 4 * i, leNat (getBytes d.obj.mbox (0x070000 + 4 * i) 4)))

def regRecord (l : List (Nat × Nat)) : List Byte := recBytes 1 ((l.map (fun e => leBytes 4 e.1 ++ leBytes 4 e.2)).flatten)

/-- The established coefficients of every biquad section, as the writes that set them (R130). -/
def Dev.epochBiquads (d : Dev) : List (Nat × Nat) :=
  ((List.range 8192).map (fun k =>
    let c := mget (fun _ => coefReset) d.cond.coef k
    (Off.OUT_BQ_SEL, k / 16 * 65536 + k % 16) ::
      ((List.range 5).map (fun i => (Off.OUT_BQ_B0 + 4 * i, (c.getD i 0).toNat)) ++ [(Off.OUT_BQ_CMT, 2 ^ 31)]))).flatten

/-- Windows of R277 as established. -/
def epochWindows : List (Nat × Nat) :=
  [(0x1000000, 0x20000), (0x1100000, 0x200), (0x1200000, 0x200000), (0x1800000, 0x200000), (0x1C00000, 0x44000)]

/-- The far parts of filter banks and HRIR sets: address and bytes (R113, R125). -/
def Dev.farParts (d : Dev) : List (Nat × Nat) :=
  ((List.range 1024).map (fun i => (d.bankFarW (i / 2) (i % 2) * 128, farGranules (d.bankLenW (i / 2) (i % 2)) * 128))) ++
    ((List.range 16).map (fun h => ((d.rd (Off.RCF_H_FAR h)).toNat * 128, 64 * 16 * segP (d.hrirCapW h) 2 * 128)))

/-- A pending record as PENDING_META holds it. -/
def PRec.metaBytes (r : PRec) : List Byte :=
  leBytes 8 r.apply ++ leBytes 2 r.src ++ leBytes 4 r.seq ++ leBytes 2 r.pos ++ leBytes 1 r.kind ++ List.replicate 7 0 ++ r.bytes

/-- The whole content. -/
def Dev.epochContent (d : Dev) : List Byte :=
  regRecord d.epochBiquads ++ regRecord d.epochRegs ++
    (epochWindows.map (fun w => recBytes 3 (leBytes 4 w.1 ++ leBytes 4 w.2 ++ getBytes d.tabE w.1 w.2))).flatten ++
    ((d.farParts.filter (fun p => decide (p.2 ≠ 0) && decide (p.1 + p.2 ≤ d.stagingBase))).map (fun p =>
      recBytes 5 (leBytes 8 p.1 ++ leBytes 4 p.2 ++ leBytes 4 0 ++ getBytes d.sdram p.1 p.2))).flatten ++
    ((d.twn.ledger.filter (fun e => !e.done)).map (fun e => recBytes 0x10 e.bytes)).flatten ++
    (d.obj.pending.map (fun r => recBytes 0x11 r.metaBytes)).flatten ++
    (d.div.queue.map (fun a => recBytes 0x12 (leBytes 1 a.index ++ leBytes 1 0 ++ leBytes 6 0 ++ leBytes 8 a.tick))).flatten

/-- EPOCH_TRANSFER: the primary captures and sends the content to a joiner that asks for it. X + 1 is the boundary just passed;
E is the least the rule allows. -/
def Dev.epochSend (d : Dev) : Dev :=
  if decide (2 ≤ d.twn.st) && d.twn.present && d.primary && d.planMatch && d.twn.pFlags.testBit 2 then
    d.sendXfer 1 0 (d.clk.tick + 2) (d.clk.tick - 1) d.ledgerSeq d.epochContent
  else d

/-- The pending items of a content. -/
def Dev.epochItem (d : Dev) (r : Rec) : Dev :=
  let b := r.body
  if r.type = 0x10 then
    (match parseEntry (b.take ((24 + fWord b 20 4 + 3) / 4 * 4)) with
     | some e => (d.setTwn { d.twn with ledger := d.twn.ledger ++ [e] }).noteSwaps e
     | none => d)
  else if r.type = 0x11 then
    let src := fWord b 8 2
    let seq := fWord b 10 4
    let old := d.obj.pending.find? (fun p => p.src == src && p.seq == seq)
    let fr := old.elim d.obj.frames (fun p => p.frame)
    let p : PRec := ⟨fWord b 0 8, fWord b 0 8, src, seq, fWord b 14 2, fByte b 16, (b.drop 24).take 48, fr⟩
    { d with obj := { d.obj with
      pending := d.obj.pending ++ [p]
      frames := if old.isSome then d.obj.frames else d.obj.frames + 1 } }
  else if r.type = 0x12 then
    { d with div := { d.div with queue := d.div.queue ++ [⟨fByte b 0, fWord b 8 8, fByte b 0 == 15⟩] } }
  else d

/-- Insertion by (apply tick, SEQ). -/
def entryInsert (e : LEntry) : List LEntry → List LEntry
  | [] => [e]
  | x :: xs => if x.apply < e.apply ∨ (x.apply = e.apply ∧ x.seq ≤ e.seq) then x :: entryInsert e xs else e :: x :: xs

/-- A committed content established at boundary n, then every entry with apply tick X+1 to E (R280). -/
def Dev.epochStep (d : Dev) (o : Otp) (n : Nat) : Dev :=
  match d.twn.epoch with
  | none => d
  | some e =>
    if n ≤ e.e then d
    else if d.pipe.from_.isSome then d.setTwn { d.twn with epoch := none }
    else
      let recs := (walkRecs (fun _ => none) false (e.data.length / 8 + 1) 0 e.data).recs
      let h : How := ⟨true, false, false⟩
      let d := Dev.establishNow (fun d => forL (recs.map Rec.writes).flatten (fun w d => (d.recWrite o h false w).1) d) n (d.by 11)
      let d := d.setTwn { d.twn with
        epoch := none
        epochOk := true
        ledger := []
        held := (d.twn.held.filter (fun x => decide (e.seq < x.seq))).map (fun x => { x with late := false })
        nextSeq := max d.twn.nextSeq (e.seq + 1)
        putOff := some [] }
      let d := { d with
        obj := { d.obj with pending := [] }
        div := { d.div with queue := [] } }
      let d := (forL recs (fun r d => d.epochItem r) d).setLedgerSeq e.seq
      let d := Dev.joinLedger true (d.twn.held.length + 1) d
      forL ((d.twn.ledger.filter (fun x => !x.done && decide (x.apply ≤ e.e))).foldl (fun l x => entryInsert x l) [])
        (fun x d => d.entryApply o x n) d

/-! ### RSTATE parts (R282) -/

def w4 (v : F32) : List Byte := leBytes 4 v.toNat
def w4s (n : Nat) (vs : List F32) : List Byte := ((List.range n).map (fun i => w4 (vs.getD i 0))).flatten
def fReals (b : List Byte) (at_ n : Nat) : List F32 := (List.range n).map (fun i => fReal b (at_ + 4 * i))

/-- The 96 words of a feed; n: the compute tick captured. -/
def Dev.feedState (d : Dev) (f n : Nat) : List Byte :=
  let s := d.outSt f
  let x := d.bankFade f
  ((List.range 4).map (fun i => w4s 4 (s.xo.getD i []))).flatten ++
    ((List.range 16).map (fun i => w4s 4 (mget (fun _ => []) s.bq i))).flatten ++ w4s 4 (mget (fun _ => []) d.geo.shelf f) ++
    w4 s.trim ++ w4 s.gain ++ leBytes 4 (if s.mute then 1 else 0) ++ leBytes 4 (if x.2 = 0 then 0 else (n - x.1) * d.L) ++
    leBytes 8 (if x.2 = 0 then 0 else x.1) ++ List.replicate 24 0
def Dev.setFeedState (d : Dev) (f n : Nat) (b : List Byte) : Dev :=
  let st := fun (i : Nat) => let v := fReals b (16 * i) 4; if v.all (fun x => x == 0) then [] else v
  let bq := (List.range 16).foldl (fun (m : NMap (List F32)) i => mset (fun _ => []) m i (st (4 + i))) []
  let s := d.outSt f
  let a := fWord b 352 8
  let d := d.setOutSt f { s with
    seen := true
    last := n
    xo := (List.range 4).map st
    bq := bq
    trim := fReal b 336
    gain := fReal b 340
    mute := decide (fWord b 344 4 % 2 = 1) }
  let d := { d with geo := { d.geo with shelf := mset (fun _ => []) d.geo.shelf f (st 20) } }
  let k := if a = 0 then 0 else d.efld (Off.RCF_F_CTL f) 21 16 + 1
  { d with conv := { d.conv with fade := mset (fun _ => (0, 0)) d.conv.fade f (if k = 0 then (0, 0) else (a, k)) } }

/-- Ramp start and target, then lengths and j, of some groups. -/
def rampBytes (sizes : List Nat) (ramps : NMap Ramp) (n pad : Nat) : List Byte :=
  let r := fun (g : Nat) => mget noRamp ramps g
  let gs := (List.range sizes.length).zip sizes
  (gs.map (fun g => w4s g.2 (r g.1).s ++ w4s g.2 (r g.1).t)).flatten ++ (gs.map (fun g => leBytes 2 (r g.1).len)).flatten ++
    (gs.map (fun g => leBytes 2 (if (r g.1).len = 0 then 0 else n - (r g.1).start))).flatten ++ List.replicate pad 0
def rampsOf (sizes : List Nat) (b : List Byte) (n : Nat) : NMap Ramp :=
  let total := 8 * sizes.foldl (· + ·) 0
  let k := sizes.length
  ((List.range k).foldl (fun (acc : NMap Ramp × Nat) g =>
    let sz := sizes.getD g 0
    let len := fWord b (total + 2 * g) 2
    let j := fWord b (total + 2 * k + 2 * g) 2
    (if len = 0 then acc.1 else mset noRamp acc.1 g ⟨n - j, len, fReals b acc.2 sz, fReals b (acc.2 + 4 * sz) sz⟩, acc.2 + 8 * sz)) ([], 0)).1

/-- The 336 bytes of an object, and the 96 of a listener. -/
def Dev.objSeed (d : Dev) (o n : Nat) : List Byte :=
  let ps := (List.range 16).map (fun l => d.pair o l)
  d.objState o ++ rampBytes [3, 1, 1, 1] (d.objDyn o).ramps n 0 ++ (ps.map (fun p => w4s 3 (p.dir.getD []))).flatten ++
    leBytes 2 (sumN 16 (fun l => if (d.pair o l).hull = 2 then 2 ^ l else 0)) ++ List.replicate 14 0
def Dev.setObjSeed (d : Dev) (o n : Nat) (b : List Byte) : Dev :=
  let d := d.setObjDyn o
    { pos := fReals b 0 3, gain := fReal b 12, spread := fReal b 16, diffuse := fReal b 20, lastApply := fWord b 24 8,
      lastSeq := fWord b 32 4, lastSrc := fWord b 36 2, rampLeft := fWord b 38 2, waveFb := fWord b 40 2, zoneEmpty := fWord b 42 2,
      ramps := rampsOf [3, 1, 1, 1] (b.drop 64) n }
  forN 16 (fun l d =>
    let v := fReals b (128 + 12 * l) 3
    let none_ := v.all (fun x => x == 0)
    d.setPair o l { d.pair o l with
      dir := if none_ then none else some v
      hull := if fWord b 320 2 / 2 ^ l % 2 = 1 then 2 else if none_ then 0 else 1 }) d
def Dev.lisSeed (d : Dev) (i n : Nat) : List Byte := d.lisState i ++ rampBytes [3, 3] (d.lisDyn i).ramps n 8
def Dev.setLisSeed (d : Dev) (i n : Nat) (b : List Byte) : Dev :=
  d.setLisDyn i { pos := fReals b 0 3, ori := fReals b 12 3, lastApply := fWord b 24 8, ramps := rampsOf [3, 3] (b.drop 32) n }

/-- The 16 bytes of a crosspoint. -/
def Dev.xpSeed (d : Dev) (x : Nat) : List Byte :=
  let p := d.xp x
  w4 p.cur ++ w4 (if p.pending then p.target else p.cur) ++ leBytes 4 p.cand ++ w4 p.prev
def Dev.setXpSeed (d : Dev) (x : Nat) (b : List Byte) : Dev :=
  let p := d.xp x
  d.setXp x { p with
    cur := fReal b 0
    target := fReal b 4
    pending := !(fReal b 0 == fReal b 4)
    cand := fWord b 8 4
    prev := fReal b 12 }

/-- Part p of the recursive render state after compute tick n. -/
def Dev.rstatePart (d : Dev) (p n : Nat) : List Byte :=
  if p < 8 then ((List.range 64).map (fun i => d.feedState (64 * p + i) n)).flatten
  else if p < 16 then
    ((List.range 128).map (fun i => d.objSeed (128 * (p - 8) + i) n)).flatten ++
      (if p = 15 then ((List.range 8).map (fun i => d.lisSeed i n)).flatten else [])
  else ((List.range 2048).map (fun i => d.xpSeed (2048 * (p - 16) + i))).flatten

/-- The current compute tick has ended: no job of it is left. -/
def Dev.tickDone (d : Dev) : Bool := d.icx.jobs.all (fun j => j.key.tick != d.clk.tick || j.st.over)

/-- RSTATE_TRANSFER: the next part, captured after the current compute tick has ended, to a joiner that plays. -/
def Dev.rstateSend (d : Dev) : Dev :=
  let joining := decide (bitsOf d.twn.pHealth.toNat 63 61 = 2) && !d.twn.pFlags.testBit 2
  if decide (2 ≤ d.twn.st) && d.twn.present && d.planMatch && joining && d.playing && d.tickDone then
    let p := d.twn.seedNext
    let n := d.clk.tick
    let d := d.sendXfer 2 p n 0 0 (d.rstatePart p n)
    d.setTwn { d.twn with seedNext := (p + 1) % 24 }
  else d

/-- RSTATE_ESTABLISH at boundary n, after step 5: a part captured after compute tick n − 1; any other is discarded, as is one before the first playout
tick. -/
def Dev.rstateStep (d : Dev) (n : Nat) : Dev :=
  match d.twn.rstate with
  | none => d
  | some (p, t, b) =>
    let size := if p < 8 then 64 * 384 else if p < 15 then 128 * 336 else if p = 15 then 128 * 336 + 768 else 2048 * 16
    let d := d.setTwn { d.twn with rstate := none }
    if t + 1 ≠ n ∨ b.length ≠ size ∨ d.twn.st ≠ 2 ∨ d.playing = false then d
    else
      let d := d.setTwn { d.twn with seeded := if d.twn.seeded.contains p then d.twn.seeded else d.twn.seeded ++ [p] }
      if p < 8 then forN 64 (fun i d => d.setFeedState (64 * p + i) t (b.drop (384 * i))) d
      else if p < 16 then
        let d := forN 128 (fun i d => d.setObjSeed (128 * (p - 8) + i) t (b.drop (336 * i))) d
        if p = 15 then forN 8 (fun i d => d.setLisSeed i t (b.drop (128 * 336 + 96 * i))) d else d
      else forN 2048 (fun i d => d.setXpSeed (2048 * (p - 16) + i) (b.drop (16 * i))) d

/-! ### Step 4 of R9 -/

/-- Step 4 at boundary n: a snapshot commit, then Diversions, then journal entries; with the gap check and the repeats that the
boundary brings. -/
def Dev.step4 (d : Dev) (o : Otp) (n : Nat) : Dev :=
  ((((d.epochStep o n).divStep o n).entryStep o n).gapStep n).repeatStep

end Sys2Proof.Machine
end

