-- ==== Sys2Proof/Machine/Secure.lean ====
section
/-! DEFINITION. Trust, OTP and debug unlocking (R319 to R322), and a write of one register word with the effects that reach the
OTP. -/

namespace Sys2Proof.Machine

/-- Master numbers (R305); the loader's writes are those of the Steward's side and carry no number of their own. -/
def masterNo : Master → Nat
  | .pcie | .spi => 0
  | .steward _ | .loader => 1
  | .warden w => 2 + w % 8
  | .dma _ => 10
  | .debug => 11
  | .icx => 12
  | .ledger => 13

/-- Is an access of this master secure now (R305, R319, R321, R322)? -/
def Dev.secureOf (d : Dev) (o : Otp) : Master → Bool
  | .pcie => d.sys.provisioning || o.hostTrust || d.bit Off.SYS_HOST_TRUST 0
  | .spi => d.sys.provisioning || d.bit Off.SYS_HOST_TRUST 1
  | .steward m => m
  | .warden _ => false
  | .dma s => s
  | .debug => d.sys.dbgLevel == 2
  | .icx | .ledger | .loader => true

/-- The requester of a master's SDRAM accesses (R292, R305). -/
def masterReq : Master → Nat
  | .pcie | .spi => 5
  | .steward _ | .loader => 6
  | .warden _ => 7
  | .dma _ => 8
  | .debug => 9
  | .icx => 10
  | .ledger => 11

/-- How a write of a secure or non-secure master is made. Only in a unit held for debug with BOOT_SEL 3, or by Diversion 15, is a port set to TDM (R177). -/
def Dev.howOf (d : Dev) (secure race : Bool) : How :=
  ⟨secure, race, d.sys.phase == 3 && d.straps.bootSel == 3⟩

/-! ### OTP (R320) -/

/-- The 48 bytes of SEC_PROG_DATA. -/
def Dev.progData (d : Dev) : List Byte := ((List.range 12).map (fun i => leBytes 4 (d.rd (Off.SEC_PROG_DATA i)).toNat)).flatten

/-- Usable slots: programmed and not revoked. -/
def Otp.usable (o : Otp) (revoked : BitVec 4) (i : Nat) : Bool := o.programmed i && !revoked.getLsbD i

def State.progResult (s : State) (r : Nat) : State := { s with dev := s.dev.setFld Off.SEC_PROG_CMD 30 28 r }

/-- GO of SEC_PROG_CMD: each hash and fuse is programmed once. -/
def State.otpProgram (s : State) (target : Nat) : State :=
  if target < 5 then
    if s.otp.programmed target then s.progResult 2
    else ({ s with otp := { s.otp with keys := mset (fun _ => []) s.otp.keys target s.dev.progData } }).progResult 1
  else if target = 5 then
    if s.otp.hostTrust then s.progResult 2 else ({ s with otp := { s.otp with hostTrust := true } }).progResult 1
  else if target = 6 then
    if s.otp.dbgDisable then s.progResult 2 else ({ s with otp := { s.otp with dbgDisable := true } }).progResult 1
  else s

/-- A write of SEC_REVOKE. -/
def State.otpRevoke (s : State) (v : Nat) : State :=
  let b := BitVec.ofNat 4 v
  let rev := s.otp.revoked ||| b
  if b = 0 then s
  else if (List.range 4).any (fun i => s.otp.usable rev i) then
    { s with
      otp := { s.otp with revoked := rev }
      dev := s.dev.raise 0x0103 0 b.toNat }
  else { s with dev := s.dev.raise 0x0103 0 (256 + b.toNat) }

/-! ### Debug unlocking (R322) -/

def Dev.dbgResp (d : Dev) : List Byte := ((List.range 49).map (fun i => leBytes 4 (d.rd (Off.DBG_RESP i)).toNat)).flatten

/-- The message a response signs. -/
def challenge (o : Otp) (level : Nat) (nonce : BitVec 256) : List Byte :=
  [0x43, 0x4C, 0x44, 0x55] ++ leBytes 1 level ++ leBytes 3 0 ++ (List.range 16).map o.uidByte ++ leBytes 32 nonce.toNat

/-- OP of DBG_CMD. -/
def Dev.dbgOp (d : Dev) (o : Otp) (op level : Nat) : Dev :=
  let set := fun (x : Sys) => { d with sys := x }
  if d.sys.dbgLocked then d
  else match op with
    | 1 => set { d.sys with
        nonce := some (Config.nonce d.sys.nonces)
        nonces := d.sys.nonces + 1 }
    | 2 =>
      let r := d.dbgResp
      let key := r.take 97
      let good := match d.sys.nonce with
        | none => false
        | some n => (level == 1 || level == 2) && !o.dbgDisable && o.programmed 4 && sha384 key == mget (fun _ => []) o.keys 4 &&
            ecdsaVerify key (sha384 (challenge o level n)) (beNat ((r.drop 100).take 48)) (beNat ((r.drop 148).take 48))
      if good then
        (set { d.sys with
          nonce := none
          dbgLevel := level
          dbgFails := 0 }).raise 0x0104 0 (level * 256 + 1)
      else
        (set { d.sys with
          nonce := none
          dbgFails := d.sys.dbgFails + 1
          dbgLocked := decide (3 ≤ d.sys.dbgFails + 1) }).raise 0x0104 0 (level * 256)
    | 3 => set { d.sys with dbgLevel := 0 }
    | _ => d

/-! ### A register write -/

/-- The stored parity of a word is formed anew at each write of its stored bits (R317). -/
def Dev.goodParity (d : Dev) (secure : Bool) (off : Nat) : Dev :=
  match regRow off with
  | none => d
  | some r =>
    if r.fields.any (fun f => f.acc == .rw || (secure && f.acc == .rws)) then
      { d with sys := { d.sys with badWords := d.sys.badWords.filter (fun x => x != off) } }
    else d

/-- A write of one register word by a master that is secure or not, and whether it is answered with an error response; DIV_IMG_CMD.GO is the
loader's. -/
def State.putReg (s : State) (secure race : Bool) (off : Nat) (v : Word) : State × Bool :=
  let h := s.dev.howOf secure race
  let r := (s.dev.goodParity h.secure off).writeReg h off v
  let d := if off = Off.ICX_CANCEL ∨ off = Off.ICX_FENCE ∨ off = Off.SYS_ABORT_CMD then r.1.afterRelease else r.1
  let s : State := { s with dev := d }
  if off = Off.SEC_REVOKE_R then (if h.secure then s.otpRevoke (getBits v 3 0) else s, false)
  else if off = Off.SEC_PROG_CMD then
    (if h.secure && v.getLsbD 31 then s.otpProgram (getBits v 2 0) else s, false)
  else if off = Off.DBG_CMD then
    (if v.getLsbD 31 then { s with dev := s.dev.dbgOp s.otp (getBits v 30 28) (getBits v 1 0) } else s, false)
  else (s, r.2)

end Sys2Proof.Machine
end

