-- ==== Sys2Proof/Machine/Checks.lean ====
section
/-! DEFINITION. The capacity check and the budget check of a plan (R34, R35, and the rules that add to them), and the return of
plan state to reset (R32). -/

namespace Sys2Proof.Machine

/-- Plan state as written, laid where the established copy is read (R33, R34). -/
def Dev.asWritten (d : Dev) : Dev := { d with tabE := d.tabW, est := d.regs }

/-! ### Templates (R35, R137) -/

/-- The timetable's KIND codes that a template may have (R137, R139). -/
def kindOk (k : Nat) : Bool :=
  [0x01, 0x02, 0x03, 0x10, 0x11, 0x20, 0x21, 0x22, 0x23, 0x30, 0x31, 0x40, 0x41, 0x42, 0x50, 0x60, 0x70].contains k

/-- A non-zero reserved field of a descriptor (R138). -/
def Tmpl.reservedSet (t : Tmpl) : Bool :=
  let b := fun (i : Nat) => (t.desc.getD i 0).toNat
  decide (b 1 / 8 % 4 ≠ 0) || decide (128 ≤ b 1) || decide (64 ≤ b 3) || decide (4 ≤ b 6) || !allZero (t.desc.drop 56)

/-- How many successor fields of a slot's templates name u. -/
def namedBy (ts : List Tmpl) (u : Tmpl) : Nat := ts.foldl (fun n t => n + (t.succ.filter (fun s => s == u.idx)).length) 0

/-- The templates of a slot with every predecessor first; those on a cycle, or behind one, are left out. -/
def topoOrder : Nat → List Tmpl → List Tmpl
  | 0, _ => []
  | fuel + 1, ts =>
    let free := ts.filter (fun u => namedBy ts u == 0)
    if free.isEmpty then [] else free ++ topoOrder fuel (ts.filter (fun u => namedBy ts u != 0))

/-- Does a slot break a rule of R137? -/
def slotBad (ts : List Tmpl) : Bool :=
  let pairs := ts.map (fun t => (t.flow, t.sub))
  decide (pairs.eraseDups.length ≠ pairs.length) ||
    ts.any (fun t => decide (t.preds ≠ namedBy ts t)) ||
    decide ((topoOrder ts.length ts).length ≠ ts.length) ||
    ts.any (fun p => p.cls == 7 && ts.any (fun u => u.cls != 7 && p.names u))

/-- Does the timetable break a rule of R137? -/
def timetableBad (ts : List Tmpl) : Bool :=
  ts.any (fun t => !kindOk t.kind || t.reservedSet || (t.cls == 7 && decide (20000 < t.cost)) ||
    ts.any (fun u => u.flow == t.flow && u.cls != t.cls)) ||
  (List.range (2 ^ periodExp ts)).any (fun s => slotBad (ts.filter (fun t => t.inSlot s)))

/-- B(s) of one slot (R35); `n` Squares serve. -/
def slotBudget (ts : List Tmpl) (n : Nat) : Nat :=
  let ts := ts.filter (fun t => t.cls != 7)
  let dist := (topoOrder ts.length ts).foldl (fun (acc : List (Tmpl × Nat)) t =>
    (t, t.cost + acc.foldl (fun m p => if p.1.names t then max m p.2 else m) 0) :: acc) []
  let p := dist.foldl (fun m e => max m e.2) 0
  max p (ceilDiv (ts.foldl (fun s t => s + t.cost) 0) n)

/-- The worst slot, the lowest on a tie, and its B(s). -/
def worstSlot (ts : List Tmpl) (n : Nat) : Nat × Nat :=
  (List.range (2 ^ periodExp ts)).foldl (fun (w : Nat × Nat) s =>
    let b := slotBudget (ts.filter (fun t => t.inSlot s)) n
    if w.2 < b then (s, b) else w) (0, 0)

/-- At most four spares are used (R155). -/
def Dev.spareCount (d : Dev) : Nat := min 4 (countN 32 (fun i => d.bit Off.ICX_SPARE_MAP i))

/-- Step 9: DIV_BUDGET is written; true when the plan passes. -/
def Dev.budgetCheck (d : Dev) : Dev × Bool :=
  let w := worstSlot (validTmpls d.tabW) (32 - d.spareCount)
  (d.wrN Off.DIV_BUDGET (w.1 * 2 ^ 24 + min w.2 0xFFFFFF), decide (w.2 ≤ 198333))

/-! ### Capacity (R34) -/

/-- SDRAM granules a plan lays claim to, with those whose place is checked marked (R34, R113, R114, R125, R131, R237). -/
def Dev.sdRegions (d : Dev) : List (Bool × Nat × Nat) :=
  let objs := (List.range 1024).filterMap (fun o =>
    if d.farLen o = 0 then none else some (false, d.oFarBase o, d.farLen o / 32))
  let feeds := (List.range 512).map (fun f =>
    let x := [(true, (d.rd (Off.RCF_F_XHIST f)).toNat, histGranules (d.xlen f))]
    let banks := (List.range 2).filterMap (fun b =>
      let g := farGranules (d.bankLenW f b)
      if d.bankLenW f b < 16 ∨ g = 0 then none else some (true, d.bankFarW f b, g))
    let cap := min 16 (d.fld (Off.OUT_F_DELAY f) 20 16)
    let ring := if cap = 0 then [] else [(true, (d.rd (Off.OUT_F_DBASE f)).toNat, cap * 128)]
    x ++ banks ++ ring)
  let sets := (List.range 16).filterMap (fun h =>
    let g := 64 * 16 * segP (d.hrirCapW h) 2
    if d.hrirCapW h < 16 ∨ g = 0 then none else some (true, (d.rd (Off.RCF_H_FAR h)).toNat, g))
  let heads := (List.range 8).filterMap (fun t =>
    if (d.headLayout t).isSome then some (true, (d.rd (Off.RCF_T_XHIST t)).toNat, 32 * 64) else none)
  (true, (d.rd Off.LPO_MEAS_BASE).toNat, 65536) :: (objs ++ feeds.flatten ++ sets ++ heads)

/-- The near parts: first unit and units (R113, R125). -/
def Dev.nearParts (d : Dev) : List (Nat × Nat) :=
  ((List.range 1024).filterMap (fun i =>
    let n := nearUnits (d.bankLenW (i / 2) (i % 2))
    if n = 0 then none else some (d.bankNearW (i / 2) (i % 2), n))) ++
  ((List.range 16).filterMap (fun h =>
    if d.hrirCapW h < 16 then none else some ((d.rd (Off.RCF_H_NEAR h)).toNat, 64 * nearUnits (d.hrirCapW h))))

def sumL (l : List Nat) : Nat := l.foldl (· + ·) 0

/-- Enabled streams of one direction: first channel and channels (R195, R196). -/
def Dev.streamSpans (d : Dev) (off : Nat → Nat) : List (Nat × Nat) :=
  (List.range 128).filterMap (fun s => if d.bit (off s) 31 then some (d.fld (off s) 10 0, d.fld (off s) 20 15 + 1) else none)

/-- Feeds in use: those that PAN and WAVE layouts name, the subwoofer feeds, and two for each Head target. -/
def Dev.feedsInUse (d : Dev) : Nat :=
  let named := ((List.range 16).map (fun l =>
    if d.lKind l = 1 ∨ d.lKind l = 2 then (List.range (d.lSpk l)).map (fun s => d.sFeed l s) else [])).flatten
  let subs := (List.range 512).filter (fun f => d.feedRole f == 2)
  ((named.filter (fun f => decide (f < 512))) ++ subs).eraseDups.length + 2 * countN 8 (fun t => (d.headLayout t).isSome)

/-- Step 8: does plan state, as written, exceed a limit? -/
def Dev.capacityBad (d : Dev) : Bool :=
  let d := d.asWritten
  let wide := !d.div.rate96
  let strs := d.usedStreets
  let regions := d.sdRegions
  let near := d.nearParts
  let rx := d.streamSpans Off.NET_RX_CTL
  let tx := d.streamSpans Off.NET_TX_CTL
  let ends := (List.range 2048).filterMap (fun j => dstEndpoint (d.dstSlot j))
  decide ((if wide then 131072 else 65536) < strs.length) ||
    (List.range 1024).any (fun o => decide (256 < (strs.filter (fun i => d.strObj i == o)).length)) ||
    decide (512 < d.feedsInUse) ||
    decide (4096 < sumL (d.activeObjects.map (fun o => extentOf (d.te (objBase o + 34))))) ||
    decide ((if wide then 4194304 else 2097152) < sumL ((List.range 1024).map (fun i => d.bankLenW (i / 2) (i % 2)))) ||
    timetableBad (validTmpls d.tabE) ||
    decide (1536 < sumL (rx.map (fun e => e.2))) || decide (1536 < sumL (tx.map (fun e => e.2))) ||
    (List.range rx.length).any (fun i => (List.range i).any (fun j =>
      meets (rx.getD i (0, 0)).1 (rx.getD i (0, 0)).2 (rx.getD j (0, 0)).1 (rx.getD j (0, 0)).2)) ||
    decide (ends.eraseDups.length ≠ ends.length) ||
    decide (32768 < sumL (near.map (fun e => e.2))) || near.any (fun e => decide (32768 < e.1 + e.2)) ||
    regions.any (fun r => r.1 && decide (d.stagingBase < (r.2.1 + r.2.2) * 128)) ||
    decide (d.stagingBase < sumL (regions.map (fun r => r.2.2)) * 128)

/-! ### Plan state at reset (R32, R357) -/

/-- Registers of plan state (R32). The words that show what the device is, health words, ICX_FENCED and ICX_SPARE_USE, return to their
reset values with the others and are derived again at the next boundary (R22): the fences themselves end only by a clear (R154). -/
def isPlanReg (off : Nat) : Bool :=
  let blocks := (decide (0x040000 ≤ off) && decide (off < 0x070000)) || (decide (0x080000 ≤ off) && decide (off < 0x0F0000)) ||
    (decide (0x140000 ≤ off) && decide (off < 0x150000))
  blocks || isStreamReg off || isDrvCfg off || off == Off.DIV_SDRAM_APER

/-- Changes that wait and are plan state. -/
def isPlanPend : Pend → Bool
  | .reg off _ => isPlanReg off
  | _ => true

/-- Plan state returns to reset: its registers, every table window, and what the engines keep of them. -/
def Dev.planCleared (d : Dev) : Dev :=
  let d := forN 12 (fun c d => d.drvEstablished c 0) d
  let d := forN 8 (fun w d => if d.wdnBusy w then d.wardenStop w else d) d
  let d := (d.estSpareMap 0)
  { d with
    regs := mkeep (fun off => !isPlanReg off) d.regs
    est := mkeep (fun off => !isPlanReg off) d.est
    tabW := []
    tabE := []
    pendW := d.pendW.filter (fun p => !isPlanPend p)
    obj := { d.obj with
      dyn := []
      lis := []
      mbox := []
      pending := [] }
    rbt := Rbt.init
    geo := { Geo.init with firstCap := d.geo.firstCap }
    conv := Conv.init
    cond := Cond.init
    lpo := Lpo.init
    net := { d.net with
      arrive := []
      ports := []
      aesRx := []
      aesTx := []
      mems := []
      groups := []
      rx := []
      stopping := [] } }

/-- A plan reset also leaves every multicast group (R206). -/
def Dev.planReset (d : Dev) : Dev := Dev.igmpDiff d d.planCleared

end Sys2Proof.Machine
end

