-- ==== Sys2Proof/Machine/Loader.lean ====
section
/-! DEFINITION. The image loader (R24 to R39, R283, R394) and the boot of the firmware (R336 to R338). -/

namespace Sys2Proof.Machine

/-! ### Header and signature (R25, R29) -/

def stAuth : Nat := 4
def stTarget : Nat := 5
def stCapacity : Nat := 6
def stBudget : Nat := 7
def stRecord : Nat := 8
def stBasePlan : Nat := 9
def stRendering : Nat := 11
def stInUse : Nat := 12
def stNotTrusted : Nat := 13
def stImgDone : Nat := 2

/-- KIND of a header, 0 when it is none of the three or unread. -/
def imgKind (b : List Byte) : Nat := if b.length < 7 ∨ 3 < fByte b 6 then 0 else fByte b 6

/-- Largest LENGTH by KIND. -/
def maxLength : Nat → Nat
  | 1 => 16 * 2 ^ 20
  | 2 => 256 * 1024
  | _ => 768 * 1024

/-- The header fields and signature-block fields of step 2 of R31. -/
def headerOk (b : List Byte) : Bool :=
  let k := fByte b 6
  let len := fWord b 8 4
  let sig := fWord b 40 4
  decide (272 ≤ b.length) && decide (fWord b 0 4 = 0x50534C43) && decide (fWord b 4 2 = 1) && decide (1 ≤ k) && decide (k ≤ 3) &&
    decide (if k = 2 then fByte b 7 < 16 else fByte b 7 = 0) && decide (len = b.length) && decide (len ≤ maxLength k) &&
    decide (len % 8 = 0) &&
    decide (if k = 1 then fWord b 20 4 < 4 else if k = 2 then fWord b 20 4 = 0 ∨ fWord b 20 4 = 2 else fWord b 20 4 = 0) &&
    (k == 2 || decide (fWord b 32 8 = 0)) && decide (sig + 208 = len) && allZero ((b.drop 44).take 20) &&
    decide (fWord b sig 4 = 0x47534C43) && allZero ((b.drop (sig + 6)).take 2) && allZero ((b.drop (sig + 105)).take 7)

/-- DEVICE, VARIANT and MIN_REV against SYS_ID (step 3). -/
def targetOk (b : List Byte) : Bool :=
  decide (fWord b 16 2 = 0x9512) && decide (fByte b 18 = 1) && decide (fByte b 19 ≤ Config.revision)

/-- The first condition of R29 that fails, as the reason code of IMAGE_AUTH_FAIL. -/
def Otp.authFail (o : Otp) (b : List Byte) : Option Nat :=
  let sig := b.drop (fWord b 40 4)
  let slot := fByte sig 4
  let key := (sig.drop 8).take 97
  if 4 ≤ slot ∨ o.usable o.revoked slot = false then some 2
  else if fByte sig 5 ≠ 1 then some 3
  else if sha384 key ≠ mget (fun _ => []) o.keys slot then some 1
  else if ecdsaVerify key (sha384 (b.take (fWord b 40 4))) (beNat ((sig.drop 112).take 48)) (beNat ((sig.drop 160).take 48)) then none
  else some 4

/-- The same on this device: in the provisioning state, which lasts until the next reset, no image authenticates, as no slot is programmed
for it yet (R321, log entry 207). -/
def Dev.authFail (d : Dev) (o : Otp) (b : List Byte) : Option Nat := if d.sys.provisioning then some 2 else o.authFail b

/-- The record bytes of an image. -/
def imgRecords (b : List Byte) : List Byte := (b.take (fWord b 40 4)).drop 64

/-- Step 5: the walk, RECORD_COUNT, and the one FIRMWARE_CODE of a FIRMWARE image (R26, R27, R394). -/
def Dev.walkImage (d : Dev) (b : List Byte) : Walk :=
  let u : RecUse := match fByte b 6 with
    | 1 => .plan
    | 2 => .diversion
    | _ => .firmware
  let w := walkRecs (fun r => r.check u d.stagingArea d.farRange) true (b.length / 8 + 1) 0 (imgRecords b)
  let codes := (List.range w.recs.length).filter (fun i => (w.recs[i]?).any (fun r => r.type == 8))
  match (if u = .firmware then codes[1]? else none), w.fail with
  | some i, _ => { w with fail := some (stFormat, i) }
  | none, some _ => w
  | none, none =>
    if fWord b 12 4 ≠ w.recs.length ∨ (u = .firmware ∧ codes = []) then { w with fail := some (stFormat, w.recs.length) } else w

/-- Steps 2 to 5 on an image from a source (0 flash, 1 host, 2 partner): the event of a failed authentication, and the failure. -/
def Dev.imageCheck (d : Dev) (o : Otp) (source : Nat) (b : List Byte) : Dev × Option (Nat × Nat) :=
  if !headerOk b then (d, some (stFormat, 0))
  else if !targetOk b then (d, some (stTarget, 0))
  else match d.authFail o b with
    | some r =>
      (d.raise 0x1001 0 (source * 2 ^ 24 + fByte b 6 * 2 ^ 16 + r * 256 + fByte b (fWord b 40 4 + 4)), some (stAuth, 0))
    | none => (d, (d.walkImage b).fail)

/-! ### Performing a plan (R31, R394) -/

/-- How far the writes of a record came. -/
inductive RecEnd where
  | done
  /-- the status of a failure -/
  | fail (status : Nat)
  /-- a WAIT is not met yet; its timeout in µs -/
  | wait (us : Nat)
  deriving DecidableEq, Repr

/-- One write of a plan record, or one read of a WAIT. -/
def State.loadWrite (s : State) (w : RWrite) : State × RecEnd :=
  let read := fun (off : Nat) => s.dev.readReg s.otp true off
  let put := fun (r : State × Bool) => (r.1, if r.2 then RecEnd.fail stRecord else .done)
  match w with
  | .reg off v => put (s.putReg true false off v)
  | .field off m v =>
    let r := read off
    put (State.putReg { s with dev := r.1 } true false off ((r.2 &&& ~~~ m) ||| (v &&& m)))
  | .wait off m e us =>
    let r := read off
    ({ s with dev := r.1 }, if r.2 &&& m = e then .done else .wait us)
  | .require_ off m e =>
    let r := read off
    ({ s with dev := r.1 }, if r.2 &&& m = e then .done else .fail stTarget)
  | w =>
    let r := (s.dev.by 6).recWrite s.otp ⟨true, false, false⟩ true w
    ({ s with dev := r.1 }, if r.2 then .fail stRecord else .done)

/-- The writes of one record, up to the first that does not succeed. -/
def State.loadRec (s : State) (r : Rec) : State × RecEnd :=
  r.writes.foldl (fun (acc : State × RecEnd) w => if acc.2 == .done then acc.1.loadWrite w else acc) (s, .done)

/-- Step 7 from record i on: how it ended, and the index of the record at which it did. -/
def State.loadRecs (s : State) (i : Nat) (rs : List Rec) : State × RecEnd × Nat :=
  rs.foldl (fun (acc : State × RecEnd × Nat) r =>
    if acc.2.1 == .done then
      let x := acc.1.loadRec r
      (x.1, x.2, if x.2 == .done then acc.2.2 + 1 else acc.2.2)
    else acc) (s, .done, i)

def Dev.setPlanValid (d : Dev) (v : Bool) : Dev := d.setBit Off.DIV_IMG_STAT 0 v

/-- Steps 8 and 9: the status of a failure. -/
def Dev.planChecks (d : Dev) : Dev × Option Nat :=
  if d.capacityBad then (d, some stCapacity)
  else
    let r := d.budgetCheck
    (r.1, if r.2 then none else some stBudget)

/-- Step 6: every resident and every queued activation is discarded, ARM cleared, plan state reset and the rate set. -/
def Dev.planStart (d : Dev) (rate96 : Bool) : Dev :=
  let d := d.setPlanValid false
  let d := forL d.div.queue (fun a d => { d with div := { d.div with queue := d.div.queue.filter (fun x => x != a) } }.divResult 3 a.index) d
  let d := { d with div := { d.div with resident := [] } }
  let d := (d.setFld Off.DIV_STAT 15 0 0).setBit Off.DIV_DETOUR_CFG 0 false
  let d := d.planReset
  { d with
    div := { d.div with rate96 := rate96 }
    twn := { d.twn with rendered := false } }

def Dev.setPlanId (d : Dev) (id : Nat) : Dev := (d.wrN Off.DIV_PLAN_ID_LO (id % 2 ^ 32)).wrN Off.DIV_PLAN_ID_HI (id / 2 ^ 32)

/-- The records of an image that has passed its walk. -/
def imgRecs (b : List Byte) : List Rec := (walkRecs (fun _ => none) true (b.length / 8 + 1) 0 (imgRecords b)).recs

/-- A failure in step 7, 8 or 9. -/
def State.planFail (s : State) : State := { s with dev := (s.dev.planReset).setPlanValid false }

/-- What a plan load has come to: its status and record, or a WAIT that is not met: the record, and the timeout in µs. -/
inductive PlanEnd where
  | posted (status rec : Nat)
  | wait (idx us : Nat)
  deriving DecidableEq, Repr

/-- Steps 7 to 10 from record i on. -/
def State.performFrom (s : State) (b : List Byte) (i : Nat) : State × PlanEnd :=
  let flags := fWord b 20 4
  let r := s.loadRecs i ((imgRecs b).drop i)
  match r.2.1 with
  | .fail st => (r.1.planFail, .posted st r.2.2)
  | .wait us => (r.1, .wait r.2.2 us)
  | .done =>
    let c := r.1.dev.planChecks
    let s : State := { r.1 with dev := c.1 }
    match c.2 with
    | some st => (s.planFail, .posted st 0)
    | none =>
      let d := (s.dev.setPlanId (fWord b 24 8)).setPlanValid true
      ({ s with dev := if flags.testBit 0 then d.renderEnSet else d }, .posted stImgDone 0)

/-- Steps 6 to 10 on a checked PLAN image. -/
def State.performPlan (s : State) (b : List Byte) : State × PlanEnd :=
  State.performFrom { s with dev := s.dev.planStart ((fWord b 20 4).testBit 1) } b 0

/-! ### Loading an image (R31, R39) -/

/-- A load that has come to a WAIT which is not met: STATUS reads BUSY, and the register is read again as time passes (R27). -/
def State.suspend (s : State) (source entry idx left : Nat) : State :=
  { s with dev := { s.dev.setFld Off.DIV_IMG_STAT 31 28 1 with div := { s.dev.div with waiting := some ⟨source, entry, idx, left⟩ } } }

/-- A PLAN or DIVERSION image loaded from a source (`entry`: of the flash directory); the result to post, or none while the load
waits. -/
def State.loadImage (s : State) (source entry : Nat) (img : Option (List Byte)) : State × Option LoadRes :=
  let b := img.getD []
  let kind := imgKind b
  let res := fun (st rec : Nat) => (some ⟨st, rec, source, kind⟩ : Option LoadRes)
  if kind = 1 ∧ s.dev.rendering = true then (s, res stRendering 0)
  else if kind = 3 then (s, res stFormat 0)
  else
    let s : State := if headerOk b && kind == 1 then { s with dev := { s.dev with div := { s.dev.div with plan := b } } } else s
    let c := s.dev.imageCheck s.otp source b
    let s : State := { s with dev := c.1 }
    match c.2 with
    | some f => (s, res f.1 f.2)
    | none =>
      if kind = 1 then
        let r := s.performPlan b
        match r.2 with
        | .posted st rec => (r.1, res st rec)
        | .wait idx us => (r.1.suspend source entry idx (us * 1000), none)
      else
        let index := fByte b 7
        let d := s.dev
        if !d.planValid || fWord b 32 8 != d.planId then (s, res stBasePlan 0)
        else if fWord b 20 4 / 2 % 2 ≠ (if d.div.rate96 then 1 else 0) then (s, res stTarget 0)
        else if d.div.queue.any (fun a => a.index == index) then (s, res stInUse 0)
        else
          let d := { d with div := { d.div with resident := mset (fun _ => []) d.div.resident index b } }
          ({ s with dev := d.setFld Off.DIV_STAT 15 0 (d.fld Off.DIV_STAT 15 0 ||| 2 ^ index) }, res stImgDone 0)

/-- The result posted in DIV_IMG_STAT, with IMAGE_REJECT for a failure. Of an index of 2²⁰ or more the low 20 bits are shown (log
entry 168). -/
def Dev.postLoad (d : Dev) (r : LoadRes) : Dev :=
  let rec_ := r.failRec % 2 ^ 20
  let d := (d.setFld Off.DIV_IMG_STAT 31 28 r.status).setFld Off.DIV_IMG_STAT 27 8 rec_
  if r.status = stImgDone then d else d.raise 0x1002 0 (r.status * 2 ^ 28 + r.source * 2 ^ 26 + r.kind * 2 ^ 24 + rec_)

/-- STATUS reads BUSY until the result is posted. -/
def Dev.beginLoad (d : Dev) (r : LoadRes) : Dev :=
  { (d.setFld Off.DIV_IMG_STAT 31 28 1).setFld Off.DIV_IMG_STAT 27 8 0 with div := { d.div with loading := some r } }
def Dev.imgBusy (d : Dev) : Bool := d.fld Off.DIV_IMG_STAT 31 28 == 1

/-- LOAD_DONE. -/
def Dev.loadDone (d : Dev) : Dev :=
  match d.div.loading with
  | none => d
  | some r => { d with div := { d.div with loading := none } }.postLoad r

/-- CHECK (R33). -/
def Dev.checkGo (d : Dev) (secure : Bool) : Dev :=
  let refuse := fun (st : Nat) => (d.setFld Off.DIV_IMG_STAT 31 28 st).raise 0x1002 0 (st * 2 ^ 28 + 3 * 2 ^ 26)
  if !secure then refuse stNotTrusted
  else if d.rendering then refuse stRendering
  else
    let d := d.setPlanValid false
    let c := d.planChecks
    match c.2 with
    | some st => c.1.planReset.beginLoad ⟨st, 0, 3, 0⟩
    | none => (c.1.setPlanValid true).beginLoad ⟨stImgDone, 0, 3, 0⟩

/-- DISCARD (R39, R43). -/
def Dev.discardGo (d : Dev) (index : Nat) : Dev :=
  if d.div.queue.any (fun a => a.index == index) then d.setFld Off.DIV_IMG_STAT 31 28 stInUse
  else
    let d := { d with div := { d.div with resident := d.div.resident.filter (fun e => e.1 != index) } }
    let d := d.setFld Off.DIV_STAT 15 0 (sumN 16 (fun i => if d.isResident i then 2 ^ i else 0))
    let d := if index = 15 then d.setBit Off.DIV_DETOUR_CFG 0 false else d
    d.setFld Off.DIV_IMG_STAT 31 28 stImgDone

/-! ### Firmware (R336 to R338) -/

/-- The ROM's checks of a FIRMWARE image: as steps 2, 3, 5 and authentication, with its own limit on the code. -/
def Dev.firmwareCheck (d : Dev) (o : Otp) (source : Nat) (b : List Byte) : Dev × Option (Nat × Nat) :=
  if imgKind b ≠ 3 then (d, some (stFormat, 0))
  else
    let c := d.imageCheck o source b
    match c.2 with
    | some f => (c.1, some f)
    | none =>
      match ((List.range (d.walkImage b).recs.length).zip (d.walkImage b).recs).find? (fun e =>
        e.2.type == 8 && decide (0xFF000 < fWord e.2.body 0 4)) with
      | some e => (c.1, some (stRange, e.1))
      | none => (c.1, none)

/-- The code of a FIRMWARE image. -/
def Dev.firmwareCode (d : Dev) (b : List Byte) : List Byte :=
  ((d.walkImage b).recs.map (fun r => match r.writes with
    | [.code c] => c
    | _ => [])).flatten

/-- The image in Steward SRAM, REMAP set, and the firmware entered (R336, R337). -/
def Dev.enterFirmware (d : Dev) (source entry : Nat) (b : List Byte) : Dev :=
  let keep := b.take 64 ++ (b.drop (fWord b 40 4)).take 208
  let d := { d with
    sram := setBytes (setBytes [] 0 (d.firmwareCode b)) 0xFF000 keep
    sys := { d.sys with
      phase := 1
      source := source
      entry := entry
      waitHost := false
      waitTwin := source == 2 } }
  d.setBit Off.SYS_CTL 0 true

/-- The ROM takes an image; the result to post. -/
def State.takeFirmware (s : State) (source entry : Nat) (img : Option (List Byte)) : State × LoadRes :=
  let b := img.getD []
  let c := s.dev.firmwareCheck s.otp source b
  match c.2 with
  | some f => ({ s with dev := { c.1 with sram := [] } }, ⟨f.1, f.2, source, imgKind b⟩)
  | none => ({ s with dev := c.1.enterFirmware source entry b }, ⟨stImgDone, 0, source, 3⟩)

/-! ### The flash directory (R38) -/

/-- Entry i of the flash directory: KIND, OFFSET, LENGTH, FLAGS. -/
def State.flashEntry (s : State) (i : Nat) : Nat × Nat × Nat × Nat :=
  let w := fun (k : Nat) => leNat (getBytes s.flash (16 * i + 4 * k) 4)
  (w 0, w 1, w 2, w 3)
/-- The bytes an entry names; none where they cannot be read whole. -/
def State.flashBytes (s : State) (i : Nat) : Option (List Byte) :=
  let e := s.flashEntry i
  if 16 * 2 ^ 20 < e.2.2.1 ∨ 2 ^ 28 < e.2.1 + e.2.2.1 then none else some (getBytes s.flash e.2.1 e.2.2.1)
/-- The image an entry names; none also where its FLAGS are not 0 (log entry 144). -/
def State.flashImage (s : State) (i : Nat) : Option (List Byte) := if (s.flashEntry i).2.2.2 ≠ 0 then none else s.flashBytes i
def State.flashKinds (s : State) (k : Nat) : List Nat := (List.range 16).filter (fun i => decide ((s.flashEntry i).1 = k))

/-- A result posted at once, of a load that no command has asked for. -/
def State.postNow (s : State) (r : Option LoadRes) : State :=
  match r with
  | none => s
  | some r => { s with dev := s.dev.postLoad r }

/-- Every DIVERSION entry for the loaded plan, in entry order. An entry whose bytes cannot be read names no BASE_ID and is passed
over (log entry 144). -/
def State.flashDiversions (s : State) : State :=
  (s.flashKinds 3).foldl (fun (s : State) i =>
    let b := (s.flashBytes i).getD []
    if fByte b 6 ≠ 2 ∨ fWord b 32 8 ≠ s.dev.planId then s
    else
      let x := s.loadImage 0 i (s.flashImage i)
      let s := x.1.postNow x.2
      { s with dev := s.dev.settle }) s

/-- FLASH_BOOT_LOAD: the first PLAN entry of the list that loads, then every DIVERSION entry for it. -/
def State.flashFrom (s : State) : List Nat → State
  | [] => s
  | i :: is_ =>
    let x := s.loadImage 0 i (s.flashImage i)
    match x.2 with
    | none => x.1
    | some r =>
      let s : State := x.1.postNow (some r)
      let s : State := { s with dev := s.dev.settle }
      if r.status = stImgDone ∧ r.kind = 1 then s.flashDiversions else s.flashFrom is_
def State.flashBoot (s : State) : State := State.flashFrom { s with dev := s.dev.free .ospi } (s.flashKinds 2)

/-- A load that waits reads its register again; the load goes on when it is met, and ends with RECORD when its timeout has passed
(R27, R394). -/
def State.loadPoll (s : State) : State :=
  match s.dev.div.waiting with
  | none => s
  | some w =>
    let b := s.dev.div.plan
    let read := match (imgRecs b)[w.idx]? with
      | some r => s.loadRec r
      | none => (s, .fail stRecord)
    let s : State := read.1
    let free := fun (s : State) => { s with dev := { s.dev with div := { s.dev.div with waiting := none } } }
    let next : State × PlanEnd := match read.2 with
      | .done => (free s).performFrom b (w.idx + 1)
      | .fail st => ((free s).planFail, .posted st w.idx)
      | .wait _ => if w.left = 0 then ((free s).planFail, .posted stRecord w.idx) else (s, .wait w.idx 0)
    match next.2 with
    | .wait idx us => if idx = w.idx then next.1 else next.1.suspend w.source w.entry idx (us * 1000)
    | .posted st rec =>
      let r : LoadRes := ⟨st, rec, w.source, 1⟩
      let s := next.1
      if w.source = 1 then { s with dev := s.dev.beginLoad r }
      else
        let s := s.postNow (some r)
        if w.source = 0 then
          (if st = stImgDone then s.flashDiversions else s.flashFrom ((s.flashKinds 2).filter (fun i => decide (w.entry < i))))
        else s

/-- The boot ROM tries the KIND 1 entries in order (R336). -/
def State.flashFirmware (s : State) : State × Bool :=
  (s.flashKinds 1).foldl (fun (acc : State × Bool) i =>
    if acc.2 then acc
    else
      let x := acc.1.takeFirmware 0 i (acc.1.flashImage i)
      if x.2.status = stImgDone then (x.1, true)
      else ({ x.1 with dev := (x.1.dev.raise 0x1002 0 (x.2.status * 2 ^ 28 + x.2.kind * 2 ^ 24 + x.2.failRec % 2 ^ 20)).settle }, false)) (s, false)

/-- A cold boot from reset release (R336). -/
def State.coldBoot (s : State) : State :=
  let wait := fun (host twin : Bool) (s : State) =>
    { s with dev := { s.dev with sys := { s.dev.sys with
      waitHost := host
      waitTwin := twin } } }
  match s.dev.straps.bootSel with
  | 0 =>
    let r := State.flashFirmware { s with dev := s.dev.free .ospi }
    if r.2 then r.1 else wait true false r.1
  | 1 => wait true false s
  | 2 => wait s.dev.sys.provisioning true s
  | _ => { s with dev := { s.dev with sys := { s.dev.sys with phase := 3 } } }

/-- The firmware's residence has been tried with a copy of its image; then images are loaded under R37. -/
def State.fillResidence (s : State) (img : Option (List Byte)) : State :=
  let src := s.dev.sys.source
  let b := img.getD []
  let c := s.dev.firmwareCheck s.otp src b
  let st := match c.2 with
    | some f => f.1
    | none => stImgDone
  let d := match c.2 with
    | some f => c.1.raise 0x1002 0 (f.1 * 2 ^ 28 + src * 2 ^ 26 + imgKind b * 2 ^ 24 + f.2 % 2 ^ 20)
    | none => { c.1 with div := { c.1.div with firmware := b } }
  let d := { d with sys := { d.sys with
    phase := 2
    waitTwin := false } }
  let d := if src = 1 ∧ d.imgBusy = true then d.setFld Off.DIV_IMG_STAT 31 28 st else d
  let s : State := { s with dev := d }
  if s.dev.straps.bootSel = 0 then s.flashBoot else s

/-- The bytes that a read of host memory at DIV_IMG_ADDR, as it stands, returns, if they are the DIV_IMG_LEN bytes it asks for. -/
def Dev.hostImage (d : Dev) (src : Option (List Byte)) : Option (List Byte) :=
  match src with
  | some b => if (d.rd Off.DIV_IMG_ADDR_LO).toNat % 8 = 0 ∧ b.length = (d.rd Off.DIV_IMG_LEN).toNat then some b else none
  | none => none

/-- FIRMWARE_RESIDENCE_FILL: from flash the entry that loaded, from the host DIV_IMG_ADDR and DIV_IMG_LEN as they stand; a partner's copy comes by
its own transfer (R338). -/
def State.residence (s : State) (src : Option (List Byte)) : State :=
  if s.dev.sys.phase ≠ 1 ∨ s.dev.populated = 0 then s
  else match s.dev.sys.source with
    | 0 => s.fillResidence (s.flashImage s.dev.sys.entry)
    | 1 => s.fillResidence (s.dev.hostImage src)
    | _ => s

/-- RESET_RELEASE (R335, R336): straps are sampled, OTP values loaded, and the boot ROM runs or checks a retained image. -/
def State.release (s : State) (st : Straps) : State :=
  match s.dev.lmp.pwr with
  | .held image =>
    if s.dev.lmp.hot then s
    else
      let d := s.dev
      let prov := !(List.range 4).any (fun i => s.otp.programmed i)
      let d := { d with
        straps := { st with
          bootSel := st.bootSel % 4
          bank33 := st.bank33 % 16 }
        sys := { d.sys with
          provisioning := prov
          pcieUp := true }
        freed := [.decSync]
        lmp := { d.lmp with
          pwr := .up
          resume := image
          oscSay := [] } }
      let d := (d.setFld Off.PWR_RAIL_STAT 11 8 (st.bank33 % 16)).setBit Off.TWN_STAT 28 st.twinB
      let d := forN 4 (fun e d =>
        let m := mget (fun _ => 0) s.otp.mac e
        (d.wrN (Off.NET_PORT_MAC_LO e) (m % 2 ^ 32)).wrN (Off.NET_PORT_MAC_HI e) (m / 2 ^ 32 % 65536)) d
      let d := forL s.dev.lmp.oscSay (fun v d => d.raise 0x0203 0 v) d
      let s : State := { s with dev := d }
      if image.isSome then s else s.coldBoot
  | _ => s

/-- NAP_WAKE_RESUME: every word of the retained SRAM good, or a cold boot (R330). -/
def State.napResume (s : State) (good : Bool) : State :=
  match s.dev.lmp.resume with
  | none => s
  | some r =>
    let d := { s.dev with lmp := { s.dev.lmp with resume := none } }
    if good then
      { s with dev := { d with
          sram := r.sram
          sys := { d.sys with
            phase := 1
            source := r.source
            entry := r.entry
            waitTwin := r.source == 2 } }.setBit Off.SYS_CTL 0 true }
    else State.coldBoot { s with dev := d }

/-! ### DIV_IMG_CMD -/

/-- LOAD of the bytes that the source read returns; none: it does not return them all (R31, R337). The boot ROM takes it while it waits
for the host; at any other time it goes to the loader, whatever BOOT_SEL (R37, log entry 145). -/
def State.loadGo (s : State) (src : Option (List Byte)) : State :=
  let d := s.dev
  let lo := (d.rd Off.DIV_IMG_ADDR_LO).toNat
  let len := (d.rd Off.DIV_IMG_LEN).toNat
  let addr := lo + 2 ^ 32 * (d.rd Off.DIV_IMG_ADDR_HI).toNat
  let img := d.hostImage src
  if d.sys.phase = 0 ∧ d.sys.waitHost = true then
      let d := (d.wr Off.XBR_OB_BASE_LO 0).wr Off.XBR_OB_BASE_HI ((d.rd Off.DIV_IMG_ADDR_HI) &&& 0xFFFFFFC0)
      let img := if 2 ^ 38 < addr % 2 ^ 38 + len then none else img
      let r := State.takeFirmware { s with dev := d } 1 0 img
      if r.2.status = stImgDone then
        { r.1 with dev := (r.1.dev.setFld Off.DIV_IMG_STAT 31 28 1).setFld Off.DIV_IMG_STAT 27 8 0 }
      else { r.1 with dev := r.1.dev.beginLoad r.2 }
  else
    let busy : State := { s with dev := (d.setFld Off.DIV_IMG_STAT 31 28 1).setFld Off.DIV_IMG_STAT 27 8 0 }
    let r := busy.loadImage 1 0 img
    match r.2 with
    | none => r.1
    | some x => { r.1 with dev := r.1.dev.beginLoad x }

/-- GO of DIV_IMG_CMD: ignored while STATUS = BUSY. -/
def State.imgGo (s : State) (secure : Bool) (src : Option (List Byte)) : State :=
  if s.dev.imgBusy then s
  else match s.dev.fld Off.DIV_IMG_CMD 2 0 with
    | 0 => s.loadGo src
    | 1 => { s with dev := s.dev.checkGo secure }
    | 2 => { s with dev := s.dev.discardGo (s.dev.fld Off.DIV_IMG_CMD 7 4) }
    | _ => s

/-- A write of one register word with every effect; `src` is what host memory returns to a LOAD that the write starts. -/
def State.regWrite (s : State) (secure race : Bool) (src : Option (List Byte)) (off : Nat) (v : Word) : State × Bool :=
  let r := s.putReg secure race off v
  if off = Off.DIV_IMG_CMD ∧ v.getLsbD 31 = true then (r.1.imgGo secure src, false) else r

/-! ### Images over the Twin link (R283, R337) -/

/-- IMAGE_TRANSFER: the plan and each resident Diversion to a partner that asks. -/
def Dev.imageSend (d : Dev) : Dev :=
  if d.twn.present && d.twn.pFlags.testBit 1 && d.planValid && !d.div.plan.isEmpty then
    let d := d.sendXfer 3 0 0 0 0 d.div.plan
    forL d.div.resident (fun e d => d.sendXfer 4 e.1 0 0 0 e.2) d
  else d

/-- FIRMWARE_TRANSFER: the firmware residence to a partner that asks. -/
def Dev.firmwareSend (d : Dev) : Dev :=
  if d.twnOn && d.twn.pFlags.testBit 4 && !d.div.firmware.isEmpty then d.sendXfer 5 0 0 0 0 d.div.firmware else d

/-- COMMIT_RX: images go to the loader, or to the ROM. A plan is taken while none is valid, and none while a load is BUSY (log entry
169). -/
def State.commitRx (s : State) (f : List Byte) : State :=
  let inOrder := s.dev.twn.xfers.any (fun x => x.content == 5 && x.inOrder)
  let r := s.dev.commitTake f
  let s : State := { s with dev := r.1 }
  match r.2 with
  | none => s
  | some c =>
    if c.content = 5 then
      if !inOrder || !s.dev.sys.waitTwin then s
      else if s.dev.sys.phase = 0 then
        let x := s.takeFirmware 2 0 (some c.data)
        if x.2.status = stImgDone then x.1
        else { x.1 with dev := x.1.dev.raise 0x1002 0 (x.2.status * 2 ^ 28 + 2 * 2 ^ 26 + x.2.kind * 2 ^ 24 + x.2.failRec % 2 ^ 20) }
      else if s.dev.sys.phase = 1 ∧ s.dev.populated ≠ 0 then s.fillResidence (some c.data)
      else s
    else if s.dev.straps.bootSel = 2 ∧ s.dev.sys.phase = 2 ∧ s.dev.imgBusy = false ∧
        ((c.content = 3 ∧ s.dev.planValid = false) ∨ c.content = 4) then
      let x := s.loadImage 2 0 (some c.data)
      x.1.postNow x.2
    else s

end Sys2Proof.Machine
end

