-- ==== Sys2Proof/Machine/Access.lean ====
section
/-! DEFINITION. The crossbar (R305 to R316): accesses to CSR space by every master, bursts and their grants, the host's two ways
in, and the parity scanner. -/

namespace Sys2Proof.Machine

/-! ### Counts, captures and events -/

/-- An event for the first of each master in each 3,000 ticks. -/
def Dev.firstOf (d : Dev) (kind : Nat) (m : Master) (code param : Nat) : Dev :=
  let k := kind * 16 + masterNo m
  let t := mget (fun _ => 0) d.evt.seen k
  if t = 0 ∨ t + 3000 ≤ d.clk.tick + 1 then
    { d with evt := { d.evt with seen := mset (fun _ => 0) d.evt.seen k (d.clk.tick + 1) } }.raise code 0
      (masterNo m * 2 ^ 24 + param % 2 ^ 24)
  else d

/-- XBR_ERR_INFO and XBR_ERR_ADDR hold the first error until VALID is cleared. -/
def Dev.xbrCapture (d : Dev) (kind : Nat) (m : Master) (write : Bool) (addr : Nat) : Dev :=
  if d.bit Off.XBR_ERR_INFO 31 then d
  else
    let d := d.wrN Off.XBR_ERR_INFO (2 ^ 31 + b2n write * 2 ^ 30 + kind * 2 ^ 16 + masterNo m)
    (d.wrN Off.XBR_ERR_ADDR_LO (addr % 2 ^ 32)).wrN Off.XBR_ERR_ADDR_HI (addr / 2 ^ 32 % 256)

/-- An access that decodes to the default target, or a burst refused in the same way (R308). -/
def Dev.decodeMiss (d : Dev) (m : Master) (write : Bool) (addr : Nat) : Dev :=
  ((d.xbrCapture 1 m write addr).bump Off.XBR_DECODE_CNT).firstOf 1 m 0x0F01 (addr / 65536)

/-- An error response of R314: `kind` 1 a sub-word write of a register, 2 an unaligned access. -/
def Dev.accessError (d : Dev) (kind : Nat) (m : Master) (write : Bool) (off : Nat) : Dev :=
  ((d.xbrCapture (kind + 1) m write (0x40000000 + off)).bump Off.XBR_ACCESS_CNT).firstOf 2 m 0x0F03 (kind * 65536)

/-- SEC_DENIED (R319): counted once for an access or a burst. -/
def Dev.secDenied (d : Dev) (m : Master) (off : Nat) : Dev :=
  (d.bump Off.SEC_DENIED_CNT).firstOf 3 m 0x0101 (off / 4)

/-! ### One access to CSR space -/

/-- How an access went: the state after it, the response, read data, and the first word that was denied. -/
structure Answer where
  st     : State
  err    : Bool
  data   : List Byte
  denied : Option Nat

def inWindow (off : Nat) : Bool := decide (0x1000000 ≤ off) && decide (off < 0x4000000)
def inMailbox (off : Nat) : Bool := decide (0x070000 ≤ off) && decide (off < 0x080000)
def isHost (m : Master) : Bool := m == .pcie || m == .spi
def zeroBytes (n : Nat) : List Byte := List.replicate n 0

/-- Does a non-secure access of this word meet a secure field? -/
def deniedAt (secure : Bool) (off : Nat) : Option Nat :=
  if secure then none
  else match regRow (off / 4 * 4) with
    | some r => if r.denies then some (off / 4 * 4) else none
    | none => none

/-- An aligned read of 1, 2 or 4 bytes, by a master that was secure or not as the access was granted (R319). -/
def State.csrRead (s : State) (m : Master) (sec : Bool) (off n : Nat) : Answer :=
  if inWindow off then
    let d := match (if 0x2800000 ≤ off then s.dev.windowAt off n else none) with
      | some a => (s.dev.by (masterReq m)).sdSeen (granulesOf a n)
      | none => s.dev
    match s.dev.readTable off n with
    | some b => ⟨{ s with dev := d }, false, b, none⟩
    | none => ⟨{ s with dev := d }, true, zeroBytes n, none⟩
  else if inMailbox off then ⟨s, false, getBytes s.dev.obj.mbox off n, none⟩
  else
    let r := s.dev.readReg s.otp sec (off / 4 * 4)
    ⟨{ s with dev := r.1 }, false, ((leBytes 4 r.2.toNat).drop (off % 4)).take n, deniedAt sec off⟩

/-- An aligned write of 1, 2 or 4 bytes. -/
def State.csrWrite (s : State) (m : Master) (sec race : Bool) (src : Option (List Byte)) (off : Nat) (bs : List Byte) : Answer :=
  if inWindow off then
    let r := (if 0x3000000 ≤ off then s.dev.by (masterReq m) else s.dev).writeTable off bs
    ⟨{ s with dev := r.1 }, r.2, [], none⟩
  else if inMailbox off then
    ⟨{ s with dev := { s.dev with obj := { s.dev.obj with mbox := setBytes s.dev.obj.mbox off bs } } }, false, [], none⟩
  else if bs.length < 4 then ⟨{ s with dev := s.dev.accessError 1 m true off }, true, [], none⟩
  else
    let r := s.regWrite sec race src off (BitVec.ofNat 32 (leNat bs))
    ⟨r.1, r.2, [], deniedAt sec off⟩

/-- One aligned access of at most 4 bytes. -/
def State.csrOne (s : State) (m : Master) (sec race : Bool) (src : Option (List Byte)) (off n : Nat) : Option (List Byte) → Answer
  | none => s.csrRead m sec off n
  | some bs => s.csrWrite m sec race src off bs

/-- A second access after a first, as parts of one. -/
def Answer.andThen (a : Answer) (f : State → Answer) : Answer :=
  let b := f a.st
  ⟨b.st, a.err || b.err, a.data ++ b.data, a.denied.orElse (fun _ => b.denied)⟩

/-- A Warden's access that is not one of its own addresses (R306, R311). -/
def Dev.wardenBarred (d : Dev) : Master → Dev
  | .warden w => d.wardenFault (w % 8) 3
  | _ => d

/-- An access that reaches no register: a host access outside SYS, SEC and DIV while the boot ROM runs or holds the unit for debug (R337),
an access of the locked debug master (R322), and any crossbar access of a Warden (R306). -/
def State.csrBarred (s : State) (m : Master) (off n : Nat) : Option Answer :=
  match m with
  | .pcie | .spi =>
    if (s.dev.sys.phase = 0 ∨ s.dev.sys.phase = 3) ∧ ([0x00, 0x04, 0x30].contains (off / 0x8000)) = false then
      some ⟨s, false, zeroBytes n, none⟩
    else none
  | .debug => if s.dev.sys.dbgLevel = 0 ∧ off / 0x8000 ≠ 0x2C then some ⟨s, true, zeroBytes n, none⟩ else none
  | .warden _ => some ⟨{ s with dev := s.dev.wardenBarred m }, true, zeroBytes n, none⟩
  | _ => none

/-- An access of n bytes to CSR space (R306, R308, R314, R315). -/
def State.csrAccess (s : State) (m : Master) (sec race : Bool) (src : Option (List Byte)) (off n : Nat)
    (write : Option (List Byte)) : Answer :=
  if 0x4000000 < off + n then
    ⟨{ s with dev := (s.dev.decodeMiss m write.isSome (0x40000000 + off)).wardenBarred m }, true, zeroBytes n, none⟩
  else match s.csrBarred m off n with
  | some a => a
  | none =>
    if !([1, 2, 4, 8].contains n) || off % n != 0 then
      ⟨{ s with dev := s.dev.accessError 2 m write.isSome off }, true, zeroBytes n, none⟩
    else if n = 8 then
      (s.csrOne m sec race src off 4 (write.map (fun b => b.take 4))).andThen
        (fun s => s.csrOne m sec race src (off + 4) 4 (write.map (fun b => b.drop 4)))
    else s.csrOne m sec race src off n write

/-- The count of a denied access. -/
def State.noteDenied (s : State) (m : Master) : Option Nat → State
  | some off => { s with dev := s.dev.secDenied m off }
  | none => s

/-! ### Decode of an address (R306) -/

/-- The target of one address: 0 ROM, 1 Steward SRAM, 2 CSR space, 3 flash, 4 SDRAM, 5 outbound, 6 the default target. -/
def Dev.xbrTarget (d : Dev) (m : Master) (a : Nat) : Nat :=
  let rom : Nat → Nat := fun o => if o < 0x40000 then 0 else 6
  let remap := d.bit Off.SYS_CTL 0
  let t : Nat :=
    if a < 0x100000 then (if remap then 1 else rom a)
    else if a < 0x200000 then (if remap then rom (a - 0x100000) else 1)
    else if 0x40000000 ≤ a ∧ a < 0x44000000 then 2
    else if 0x60000000 ≤ a ∧ a < 0x70000000 then 3
    else if 0x8000000000 ≤ a ∧ a < 0x8000000000 + d.populated then 4
    else if 0xC000000000 ≤ a ∧ a < 0x10000000000 then 5
    else 6
  if isHost m && t != 2 then 6 else t

/-- The target of a burst: one that would meet two targets or cross a 4 KiB boundary is refused as at the default target. -/
def Dev.burstTarget (d : Dev) (b : BurstIn) : Nat :=
  let last := b.addr + b.len - 1
  let t := d.xbrTarget b.master b.addr
  if b.len = 0 ∨ 256 < b.len ∨ b.addr / 4096 ≠ last / 4096 ∨ d.xbrTarget b.master last ≠ t then 6 else t

/-! ### The staging area (R30) -/

/-- The image that holds a byte of the staging area, and where: 0 the plan, 1 … 16 Diversion 0 … 15, 17 the firmware. -/
def stagingPlace (o : Nat) : Nat × Nat :=
  if o < 0x1000000 then (0, o)
  else if o < 0x1400000 then (1 + (o - 0x1000000) / 0x40000, o % 0x40000)
  else (17, o - 0x1400000)

def Dev.stagingImage (d : Dev) (k : Nat) : List Byte :=
  if k = 0 then d.div.plan else if k = 17 then d.div.firmware else mget (fun _ => []) d.div.resident (k - 1)

/-- One byte of SDRAM as the crossbar sees it. -/
def Dev.sdByte (d : Dev) (a : Nat) : Byte :=
  let p := stagingPlace (a - d.stagingBase)
  if d.stagingBase ≤ a ∧ p.2 < (d.stagingImage p.1).length then (d.stagingImage p.1).getD p.2 0 else bget d.sdram a

/-- A byte written into the staging area by the secure Steward. -/
def Dev.stagingPut (d : Dev) (a : Nat) (v : Byte) : Dev :=
  let p := stagingPlace (a - d.stagingBase)
  let img := d.stagingImage p.1
  if p.2 < img.length then
    let img := img.set p.2 v
    if p.1 = 0 then { d with div := { d.div with plan := img } }
    else if p.1 = 17 then { d with div := { d.div with firmware := img } }
    else { d with div := { d.div with resident := mset (fun _ => []) d.div.resident (p.1 - 1) img } }
  else d.sdWrite a [v]

/-- A write to SDRAM through the crossbar (R306, R124). -/
def Dev.sdPut (d : Dev) (m : Master) (a : Nat) (bs : List Byte) : Dev × Bool :=
  if d.stagingBase < a + bs.length then
    (match m with
     | .steward true => (((List.range bs.length).zip bs).foldl (fun (d : Dev) p =>
         if d.stagingBase ≤ a + p.1 then d.stagingPut (a + p.1) p.2 else d.sdWrite (a + p.1) [p.2]) d, false)
     | _ => (d, true))
  else match d.rcfGuardSdram a bs.length with
    | some p => (d.rcfRefuse p, true)
    | none => (d.sdWrite a bs, false)

/-! ### Bursts (R308, R309) -/

/-- 32-bit accesses of a burst into CSR space, in ascending address. -/
def State.csrPieces (m : Master) (sec : Bool) : Nat → Answer → Nat → Nat → Option (List Byte) → Answer
  | 0, a, _, _, _ => a
  | fuel + 1, a, off, n, write =>
    if n = 0 then a
    else
      let k := min n (4 - off % 4)
      State.csrPieces m sec fuel (a.andThen (fun s => s.csrAccess m sec false none off k (write.map (fun b => b.take k)))) (off + k) (n - k)
        (write.map (fun b => b.drop k))

/-- n bytes of a burst at its target. -/
def State.burstPart (s : State) (target : Nat) (b : BurstIn) (sec : Bool) (at_ n : Nat) : Answer :=
  let a := b.addr + at_
  let bs := b.write.map (fun w => (w.drop at_).take n)
  match target, bs with
  | 0, none => ⟨s, false, (List.range n).map (fun i => Config.romByte ((a + i) % 0x100000)), none⟩
  | 0, some _ => ⟨s, false, [], none⟩
  | 1, none => ⟨s, false, getBytes s.dev.sram (a % 0x100000) n, none⟩
  | 1, some w => ⟨{ s with dev := { s.dev with sram := setBytes s.dev.sram (a % 0x100000) w } }, false, [], none⟩
  | 2, _ =>
    if at_ = 0 ∧ [1, 2, 4, 8].contains b.len = true then s.csrAccess b.master sec false none (a - 0x40000000) b.len bs
    else State.csrPieces b.master sec n ⟨s, false, [], none⟩ (a - 0x40000000) n bs
  | 3, none => ⟨{ s with dev := s.dev.free .ospi }, false, getBytes s.flash (a - 0x60000000) n, none⟩
  | 3, some _ => ⟨s, true, [], none⟩
  | 4, none =>
    let o := a - 0x8000000000
    let t : State := { s with dev := (s.dev.by (masterReq b.master)).sdSeen (granulesOf o n) }
    (match s.dev.sdRead o n with
     | some _ => ⟨t, false, (List.range n).map (fun i => s.dev.sdByte (o + i)), none⟩
     | none => ⟨t, true, zeroBytes n, none⟩)
  | 4, some w =>
    let r := (s.dev.by (masterReq b.master)).sdPut b.master (a - 0x8000000000) w
    ⟨{ s with dev := r.1 }, r.2, [], none⟩
  | 5, none => ⟨s, false, ((b.ret ++ zeroBytes (at_ + n)).drop at_).take n, none⟩
  | 5, some w =>
    let base := 2 ^ 32 * ((s.dev.rd Off.XBR_OB_BASE_HI).toNat / 64 * 64)
    ⟨{ s with dev := s.dev.emit (.host (base + (a - 0xC000000000)) w) }, false, [], none⟩
  | _, _ => ⟨s, true, zeroBytes n, none⟩

/-- One beat of a burst: its next 16 bytes (R309). -/
def State.beat (s : State) (target : Nat) (b : Burst) : State × Burst :=
  let n := min (b.req.len - b.done) 16
  let a := s.burstPart target b.req b.secure b.done n
  let t := if b.denied then a.st else a.st.noteDenied b.req.master a.denied
  (t, { b with
    done := b.done + n
    data := b.data ++ a.data
    err := b.err || a.err
    denied := b.denied || a.denied.isSome })

/-- The answer of a burst at its last beat. An error response to a descriptor fetch ends the job fetched with FAULT (R311). -/
def State.burstEnd (s : State) (b : Burst) : State :=
  let d := if b.err && b.req.master == .icx then s.dev.fetchFault else s.dev
  { s with dev := { d with resp := ⟨b.err, if b.err then zeroBytes b.data.length else b.data⟩ } }

/-- The beats of a burst that remain. -/
def State.beats (target : Nat) : Nat → State → Burst → State
  | 0, s, b => s.burstEnd b
  | fuel + 1, s, b =>
    if b.req.len ≤ b.done then s.burstEnd b
    else
      let r := s.beat target b
      State.beats target fuel r.1 r.2

/-- A target port finishes the burst it holds; what that raises joins the queue before what follows. -/
def State.portFree (s : State) (target : Nat) : State :=
  match s.dev.sys.held.find? (fun h => h.1 == target) with
  | none => s
  | some h =>
    let s := State.beats target 17
      { s with dev := { s.dev with sys := { s.dev.sys with held := s.dev.sys.held.filter (fun h => h.1 != target) } } } h.2
    { s with dev := s.dev.settle }

/-! ### Accesses of a master's own

Each is granted once the port of CSR space is free of the burst it holds, and its trust is judged then (R309, R319, R323). -/

/-- An access with its answer. -/
def State.access (s : State) (m : Master) (race : Bool) (src : Option (List Byte)) (off n : Nat)
    (write : Option (List Byte)) : State :=
  let s := s.portFree 2
  let a := s.csrAccess m (s.dev.secureOf s.otp m) race src off n write
  let t := a.st.noteDenied m a.denied
  { t with dev := { t.dev with resp := ⟨a.err, a.data⟩ } }

/-- A write of one register word. -/
def State.put (s : State) (m : Master) (off : Nat) (v : Word) : State := s.access m false none off 4 (some (leBytes 4 v.toNat))
/-- A read of one register word. -/
def State.get (s : State) (m : Master) (off : Nat) : State := s.access m false none off 4 none

/-- A span cut at 256-byte boundaries. -/
def split256 : Nat → Nat → Nat → List (Nat × Nat)
  | 0, _, _ => []
  | fuel + 1, off, n =>
    if n = 0 then []
    else
      let k := min n (256 - off % 256)
      (off, k) :: split256 fuel (off + k) (n - k)

/-- A write of any length by a master: one access, or bursts of it, none of which crosses a 256-byte boundary and so none a 4 KiB one
(R308, R309). -/
def State.span (s : State) (m : Master) (off : Nat) (data : List Byte) : State :=
  if [0, 1, 2, 4, 8].contains data.length then s.access m false none off data.length (some data)
  else
    let r := (split256 (data.length / 256 + 2) off data.length).foldl (fun (r : State × Bool) p =>
      let a := State.csrPieces m (r.1.dev.secureOf r.1.otp m) p.2 ⟨r.1, false, [], none⟩ p.1 p.2 (some ((data.drop (p.1 - off)).take p.2))
      (a.st.noteDenied m a.denied, r.2 || a.err)) (s.portFree 2, false)
    { r.1 with dev := { r.1.dev with resp := ⟨r.2, []⟩ } }

/-! ### Grants (R306, R308, R309) -/

/-- A Warden's own crossbar access (R306), and the locked debug master's outside the CSR space (R322). -/
def Dev.burstBarred (d : Dev) (b : BurstIn) (target : Nat) : Bool :=
  match b.master with
  | .warden _ => true
  | .debug => d.sys.dbgLevel == 0 && target != 2
  | _ => false

/-- A granted burst: its first beat is carried, and the port is held for the rest. -/
def State.grantBurst (s : State) (target : Nat) (b : BurstIn) : State :=
  let fresh : Burst := ⟨b, 0, [], false, false, s.dev.secureOf s.otp b.master⟩
  let miss := target == 6
  if miss || s.dev.burstBarred b target then
    let d := (if miss then s.dev.decodeMiss b.master b.write.isSome b.addr else s.dev).wardenBarred b.master
    State.burstEnd { s with dev := d } { fresh with
      data := zeroBytes b.len
      err := true }
  else
    let r := s.beat target fresh
    if b.len ≤ r.2.done then r.1.burstEnd r.2
    else { r.1 with dev := { r.1.dev with sys := { r.1.dev.sys with held := r.1.dev.sys.held ++ [(target, r.2)] } } }

/-- Removes the first element that satisfies p. -/
def dropFirst {α : Type} (p : α → Bool) : List α → List α
  | [] => []
  | x :: xs => if p x then xs else x :: dropFirst p xs

/-- CROSSBAR_GRANT: the port takes the next master, round-robin from one above the last it granted. -/
def State.crossbarGrant (s : State) (target : Nat) (arrive : List BurstIn) : State :=
  let d := s.dev
  let s : State := { s with dev := { d with sys := { d.sys with waiting := d.sys.waiting ++ arrive } } }
  let s := s.portFree target
  let mine := s.dev.sys.waiting.filter (fun b => s.dev.burstTarget b == target)
  let last := mget (fun _ => 0) s.dev.sys.lastGrant target
  let order := (List.range 14).map (fun i => (last + i) % 14)
  match order.findSome? (fun k => mine.find? (fun b => masterNo b.master == k)) with
  | none => s
  | some b =>
    let k := masterNo b.master
    let x := s.dev.sys
    let x := { x with
      waiting := dropFirst (fun c => masterNo c.master == k && s.dev.burstTarget c == target) x.waiting
      lastGrant := mset (fun _ => 0) x.lastGrant target ((k + 1) % 14) }
    State.grantBurst { s with dev := { s.dev with sys := x } } target b

/-! ### The host's ways in (R312, R313) -/

/-- PCIE_TLP: a TLP within the sizes of R312 becomes bursts of master 0. It shows that the link is up (log entry
205). -/
def Dev.tlpIn (d : Dev) (t : Tlp) : Dev :=
  let d := { d with sys := { d.sys with pcieUp := true } }
  let add := fun (bs : List BurstIn) => { d with sys := { d.sys with waiting := d.sys.waiting ++ bs } }
  match t with
  | .memRead off len =>
    if 512 < len then d
    else add ((split256 4 off len).map (fun p => ⟨.pcie, 0x40000000 + p.1, p.2, none, []⟩))
  | .memWrite off data =>
    if 256 < data.length then d
    else add ((split256 3 off data.length).map (fun p =>
      ⟨.pcie, 0x40000000 + p.1, p.2, some ((data.drop (p.1 - off)).take p.2), []⟩))

/-- The words of an SPI transaction, at ascending offsets. -/
def State.spiWords : Nat → State → Nat → List Byte → Bool → Nat → Bool → List Byte → State
  | 0, s, _, _, _, _, err, ans => { s with dev := { s.dev with resp := ⟨err, ans⟩ } }
  | fuel + 1, s, off, bs, write, words, err, ans =>
    if (write = true ∧ bs.length < 4) ∨ (write = false ∧ words = 0) then { s with dev := { s.dev with resp := ⟨err, ans⟩ } }
    else
      let s := s.portFree 2
      let a := s.csrAccess .spi (s.dev.secureOf s.otp .spi) false none off 4 (if write then some (bs.take 4).reverse else none)
      let t := a.st.noteDenied .spi a.denied
      let st : Byte := if a.err then 1 else 0
      State.spiWords fuel t (off + 4) (bs.drop 4) write (words - 1) (err || a.err) (ans ++ (if write then [] else a.data.reverse) ++ [st])

/-- SPI_TRANSACTION: the bytes the host sends, and the words a READ goes on for. -/
def State.spi (s : State) (bytes : List Byte) (readWords : Nat) : State :=
  let off := beNat ((bytes.drop 1).take 4)
  let cmd := (bytes.getD 0 0).toNat
  let s : State := { s with dev := s.dev.free .spiMiso }
  if bytes.length < 5 then s
  else if cmd = 2 then State.spiWords bytes.length s off (bytes.drop 5) true 0 false []
  else if cmd = 3 then State.spiWords (readWords + 1) s off [] false readWords false []
  else s

/-- PERST_N resets master 0 (R310, R364): a burst it holds is completed toward its target, where the beats of a write that remain have no
strobe and those of a read are made and their data discarded; then the request that waits is dropped, and the endpoint and its link
reset, with the MSI-X table and pending bits. -/
def State.perst (s : State) : State :=
  let x := s.dev.sys
  let mine := x.held.filter (fun h => isHost h.2.req.master)
  let s : State := { s with dev := { s.dev with sys := { x with held := x.held.filter (fun h => !isHost h.2.req.master) } } }
  let s := forL mine (fun h s =>
    let t := if h.2.req.write.isSome then s
      else
        let t := State.beats h.1 17 s h.2
        { t with dev := { t.dev with resp := s.dev.resp } }
    let d := (t.dev.xbrCapture 4 h.2.req.master h.2.req.write.isSome h.2.req.addr).bump Off.XBR_ABANDON_CNT
    { t with dev := d.raise 0x0F02 0 (masterNo h.2.req.master * 2 ^ 24 + h.1) }) s
  let d := s.dev
  { s with dev := { d with
    sys := { d.sys with
      waiting := d.sys.waiting.filter (fun b => !isHost b.master)
      pcieUp := false }
    evt := { d.evt with
      msixMask := []
      msixPend := [] } } }

/-! ### The parity scanner (R317, R318) -/

/-- A configuration word: one that holds an RW or RWS field. -/
def isConfigWord (off : Nat) : Bool :=
  match regRow off with
  | some r => r.fields.any (fun f => f.acc == .rw || f.acc == .rws)
  | none => false

/-- A complete scan, in which the words `bad` have come to mismatch; a clean scan that began after FAULT was cleared ends the
fault. -/
def Dev.parityScan (d : Dev) (bad : List Nat) : Dev :=
  let new := bad.foldl (fun (l : List Nat) w => if isConfigWord w && !l.contains w then l ++ [w] else l) d.sys.badWords
  let d := { d with sys := { d.sys with badWords := new } }
  if new.isEmpty then
    (if d.sys.scanDue && !d.bit Off.SYS_PARITY_STAT 31 then
      { d with sys := { d.sys with scanDue := false } }.setBit Off.SYS_PARITY_STAT 30 false
     else d)
  else forL new (fun w d => d.parityFound w) { d with sys := { d.sys with scanDue := false } }

end Sys2Proof.Machine
end

