-- ==== Sys2Proof/Machine/Boundary.lean ====
section
/-! DEFINITION. A tick boundary (R8, R9), the forward step of local time (R220), and what a clock cycle of an idle device does. -/

namespace Sys2Proof.Machine

/-! ### Local time reaches the boundary (R7, R8) -/

/-- The first value of local time, in its granule, at or after N / 3,000 s. -/
def boundaryTime (n : Nat) : Nat := (n * secUnits + 2999) / 3000

/-- The tick index that the next boundary has. -/
def Dev.nextTick (d : Dev) : Nat :=
  if !d.clk.valid then d.clk.tick
  else match d.ptp.stepTo with
    | some (m, _) => m
    | none => if d.clk.started then d.clk.tick + 1 else (d.clk.time * 3000 / (secUnits : Nat)).ceil.toNat

/-- SYS_TICK advances; the ticks a forward step passed over are counted. -/
def Dev.advanceTick (d : Dev) : Dev :=
  let n := d.nextTick
  let t := boundaryTime n
  let ns := if d.clk.valid then (((t : Rat) - d.clk.time) / 65536).floor.toNat else 333333 - d.clk.elapsed
  let d := (if d.clk.valid then d.reachTime t else d.advanceNs ns).passTime ns
  let d := { d with clk := { d.clk with
    tick := n
    started := d.clk.started || d.clk.valid
    elapsed := 0
    past := false
    bounds := d.clk.bounds + 1 } }
  match d.ptp.stepTo with
  | none => d.reselectLate
  | some (m, k) =>
    -- the clock outputs run again from boundary M, that instant's edges included (R224)
    (({ d.bumpN Off.SYS_TICK_SKIP (m - k) with ptp := { d.ptp with stepTo := none } } : Dev).clockEdges (t - 1)).reselectLate

/-! ### The steps of R9 -/

/-- Rendering begins: this boundary begins the first capture tick (R16, R280). -/
def Dev.renderStart (d : Dev) : Dev :=
  if d.rendering && d.planValid && d.clk.valid && d.pipe.from_.isNone && d.pipe.closure.isNone && !d.needsEpoch && d.twn.putOff.isNone then
    let d := { d with
      pipe := { d.pipe with
        from_ := some d.clk.tick
        silentTo := d.clk.tick + 2
        fadeIn := false }
      geo := { d.geo with firstCap := some (d.geo.firstCap.getD d.clk.tick) }
      twn := { d.twn with rendered := true } }
    d.outFresh.setFld Off.SYS_PWR_STATE 31 29 4
  else d

/-- Does compute tick n have render jobs (R16, R220, R354)? -/
def Dev.computes (d : Dev) (n : Nat) : Bool :=
  d.rendering && d.pipe.from_.isSome && decide (d.pipe.silentTo ≤ n + 1) && d.pipe.closure.isNone

/-- The ticks of the last 3,000 with a sequence retired late (R285). -/
def Dev.lateMark (d : Dev) (n : Nat) (late : Bool) : Dev :=
  let l := d.twn.lateTicks.filter (fun x => decide (n < x + 3000))
  d.setTwn { d.twn with lateTicks := if late then n :: l else l }

/-- Steps 1 to 3: the capture is closed, late blocks are replaced, and each Gate selects. `jump`: the boundary closes no capture tick, as the
first one of valid local time or after a forward step. -/
def Dev.boundaryFront (d : Dev) (n : Nat) (jump : Bool) : Dev :=
  let t := n - 1
  if !d.clk.valid || n == 0 then d.closureStage
  else
    let d := ((if jump then d else d.captureClose t).shareBoundary t).settle
    let late := d.anyLate t
    let ok := (d.gateSlots.map (fun s => s.1)).filter (fun j => d.slotReleased j t && !late)
    let d := d.closureStage
    let d := ((((d.lateStep n).settleJobs).dropOver).lateMark n late).settle
    (((d.gateSelect t (fun j => ok.contains j)).compareCheck t).twinPrune t).settle

/-- Steps 4 and 5, and the establishment of an RSTATE part. -/
def Dev.boundaryEstablish (d : Dev) (o : Otp) (n : Nat) (jump : Bool) : Dev :=
  let d := forN 16 (fun c d => d.lpoSwapEnd c) (forL d.conv.fade (fun e d => d.swapEnd e.1) d)
  let d := if d.clk.valid && n != 0 then ((d.step4 o n).settle.establishRecords (n - 1)) else d
  let d := (d.establish n).swapsBegin.abortBoundary
  let d := if d.clk.valid then d.rstateStep n else d
  let d := if d.clk.valid && n != 0 && !jump then d.advanceRamps (n - 1) else d
  ((d.geoTick.extentStep).startWardens n).settle

/-- What the units refresh once a boundary. -/
def Dev.boundaryRefresh (old d : Dev) (n : Nat) (b : BoundaryIn) (jump : Bool) : Dev :=
  let d := d.squaresReturn.refreshHealth.districtHealth.rotateKat
  let d := (if n ≠ 0 ∧ d.computes (n - 1) = true then d.quarterCounts else d).icxFigures.squaresAge
  let d := if n = 0 then d else if jump then d.lpoFirst n else (Dev.lpoBoundary old d (n - 1) b.pdm).shareBoundarySend (n - 1)
  let d := ((d.foldback b.driveTemp b.drivePwr).drvBoundary n).rbtBoundary
  let d := d.streetCounts.rcfFigures
  let d := { d with net := { d.net with splitOn := d.ebit Off.TWN_CTL 31 && d.twn.present } }
  d.txResolve.egressBoundary.twnWatch.claimUpdate.settle

/-- Step 6. -/
def Dev.boundaryJobs (d : Dev) (n : Nat) : Dev :=
  let d := if 2 ≤ n then d.districtInput n else d
  let d := if d.computes n then ((d.captureTick (n - 1)).historyStart (n - 1)).asrcRates.instantiate n else d
  d.twnRefresh.settle

/-- The boundary of the tick that SYS_TICK names. What one step of R9 raises joins the queue of events before what the next one raises
(R344). -/
def Dev.boundarySteps (d : Dev) (o : Otp) (b : BoundaryIn) (jump : Bool) : Dev :=
  let n := d.clk.tick
  let d := d.fencesBoundary.renderStart
  Dev.boundaryJobs (Dev.boundaryRefresh d ((d.boundaryFront n jump).boundaryEstablish o n jump) n b jump) n

/-- TICK_BOUNDARY; while an EPOCH content is being established its steps are put off (R280). SYS_TICK is the same in all of them. -/
def Dev.tickBoundary (d : Dev) (o : Otp) (b : BoundaryIn) : Dev :=
  let jump := d.ptp.stepTo.isSome || !d.clk.started
  let d := d.advanceTick
  let n := d.clk.tick
  let d := match d.twn.putOff with
    | some l => { d with twn := { d.twn with putOff := some (l ++ [(n, b)]) } }
    | none => d.boundarySteps o b jump
  { d with clk := { d.clk with tick := n } }

/-- EPOCH_ESTABLISHED: the boundaries put off are performed in order; rendering begins at none of them (R280). -/
def Dev.epochDone (d : Dev) (o : Otp) : Dev :=
  match d.twn.putOff with
  | none => d
  | some l =>
    let now := d.clk.tick
    let d := forL l (fun p d => Dev.boundarySteps { d with clk := { d.clk with tick := p.1 } } o p.2 false) d
    { d with
      clk := { d.clk with tick := now }
      twn := { d.twn with putOff := none } }

/-! ### TIME_STEP (R220) -/

/-- The Listening Post takes in the tick that the boundary closes, every job is retired without LATE_BLOCK, captures not consumed are discarded, and the Gates are silent until boundary M + 2. -/
def Dev.timeStep (d : Dev) (pdm : PdmBits) : Dev :=
  match d.stepTime with
  | none => d
  | some (e, m, n) =>
    let d := e.passTime (((n * secUnits : Nat) / 3000 - d.clk.time) / 65536 : Rat).floor.toNat
    let d := Dev.lpoBoundary d d d.clk.tick pdm
    let fade := d.rendering && d.pipe.from_.isSome
    let d := (d.retireSilent (d.icx.jobs.filter (fun j => !j.st.over))).settleJobs.dropOver
    let d := { d with pipe := { d.pipe with
      silentTo := m + 2
      fadeIn := fade
      gateSrc := [] } }
    d.lpSync (16 * m)

/-! ### The idle device -/

/-- One cycle of REFCLK passes with no command (R209). -/
def Dev.idle (d : Dev) : Dev := (d.advanceRef 1).passTime 40

/-- A target port finishes its burst well inside such a cycle (R309). -/
def State.portsFree (s : State) : State := forN 6 (fun t s => s.portFree t) s

def State.idle (s : State) : State :=
  let s := if s.dev.isUp then s.portsFree else s
  if s.dev.isUp then State.loadPoll { s with dev := s.dev.idle } else { s with dev := s.dev.passTime 40 }

end Sys2Proof.Machine
end

