-- ==== Sys2Proof/Machine/Run.lean ====
section
/-! DEFINITION. The shapes of a command's meaning: what it does to a device that is up, a register write by a master, and the
one fault, a command that names a unit the device does not have. -/

namespace Sys2Proof.Machine

/-- What a command answers. -/
abbrev Result := Host.Outcome State Fault Refusal

/-- The events raised together join the queue (R344), and the next state is answered. -/
def State.done (s : State) : Result := .next { s with dev := s.dev.settle }

/-- An effect on the device and what stands beside it, in whatever power state. -/
def State.always (s : State) (f : State → State) : Result := (f s).done
/-- An effect on a device that is up; in reset, in low power and unpowered nothing outside the Lamplighter acts (R329, R335). -/
def State.whenUp (s : State) (f : State → State) : Result := s.always (fun s => if s.dev.isUp then f s else s)
/-- The same on the device alone. -/
def State.onDev (s : State) (f : Dev → Dev) : Result := s.whenUp (fun s => { s with dev := f s.dev })
/-- An effect on the Lamplighter's side of the device, in whatever power state. -/
def State.onLamp (s : State) (f : Dev → Dev) : Result := s.always (fun s => { s with dev := f s.dev })
/-- A command that names a unit: the device has only n of them. -/
def State.ofUnit (i n : Nat) (r : Result) : Result := if i < n then r else .fault .noSuchUnit

/-- A register write by a master, with all its effects. -/
def State.write (s : State) (m : Master) (off : Nat) (v : Word) : Result := s.whenUp (fun s => s.put m off v)
/-- A write with bit 31, the GO bit, set. -/
def goBit : Word := 0x80000000
/-- A write that keeps the other stored bits of a word. -/
def State.writeBits (s : State) (m : Master) (off : Nat) (mask v : Word) : Result :=
  s.whenUp (fun s =>
    let s := s.portFree 2
    s.put m off ((s.dev.rd off &&& ~~~ mask) ||| (v &&& mask)))

end Sys2Proof.Machine
end

