-- ==== Sys2Proof/Machine/CmdAccess.lean ====
section
/-! DEFINITION. Meanings: register and table accesses, the crossbar, security and the parity scanner. -/

namespace Sys2Proof.Machine

/-- REGISTER_WRITE: any aligned or unaligned write into CSR space of `size` bytes (R11, R314, R316). -/
def execRegisterWrite (m : Master) (off size : Nat) (v : Word) (s : State) : Result :=
  s.whenUp (fun s => s.access m false none off size (some (leBytes size v.toNat)))
/-- TABLE_WINDOW_WRITE: one access, or a burst carried out as 32-bit accesses (R309, R314). -/
def execTableWindowWrite (m : Master) (off : Nat) (data : List Byte) (s : State) : Result :=
  s.whenUp (fun s => s.span m off data)
/-- READ_CLEAR (R6). -/
def execReadClear (m : Master) (off : Nat) (s : State) : Result := s.whenUp (fun s => s.get m off)
/-- LO_READ_LATCH (R315). -/
def execLoReadLatch (m : Master) (off : Nat) (s : State) : Result := s.whenUp (fun s => s.get m off)
/-- PCIE_TLP (R312). -/
def execPcieTlp (t : Tlp) (s : State) : Result := s.onDev (fun d => d.tlpIn t)
/-- SPI_TRANSACTION (R313). -/
def execSpiTransaction (bytes : List Byte) (readWords : Nat) (s : State) : Result := s.whenUp (fun s => s.spi bytes readWords)
/-- CROSSBAR_GRANT (R309). -/
def execCrossbarGrant (target : Nat) (arrive : List BurstIn) (s : State) : Result :=
  State.ofUnit target 7 (s.whenUp (fun s => s.crossbarGrant target arrive))
/-- PERST_N (R364). -/
def execPerstN (s : State) : Result := s.whenUp State.perst
/-- PARITY_SCAN (R317). -/
def execParityScan (bad : List Nat) (s : State) : Result := s.onDev (fun d => d.parityScan bad)
/-- PARITY_CLEAR (R318). -/
def execParityClear (m : Master) (s : State) : Result := s.write m Off.SYS_PARITY_STAT goBit
/-- OTP_PROGRAM (R320). -/
def execOtpProgram (m : Master) (target : Nat) (s : State) : Result :=
  State.ofUnit target 8 (s.write m Off.SEC_PROG_CMD (goBit ||| BitVec.ofNat 32 target))
/-- SEC_REVOKE (R320). -/
def execSecRevoke (m : Master) (bits : Nat) (s : State) : Result :=
  State.ofUnit bits 16 (s.write m Off.SEC_REVOKE_R (BitVec.ofNat 32 bits))
/-- NEW_CHALLENGE (R322). -/
def execNewChallenge (m : Master) (s : State) : Result := s.write m Off.DBG_CMD (goBit ||| 0x10000000)
/-- SUBMIT (R322). -/
def execSubmit (m : Master) (level : Nat) (s : State) : Result :=
  State.ofUnit level 4 (s.write m Off.DBG_CMD (goBit ||| 0x20000000 ||| BitVec.ofNat 32 level))
/-- RELOCK (R322). -/
def execRelock (m : Master) (s : State) : Result := s.write m Off.DBG_CMD (goBit ||| 0x30000000)
/-- JTAG_ACCESS: a 32-bit access of the debug master (R322). -/
def execJtagAccess (off : Nat) (write : Option Word) (s : State) : Result :=
  s.whenUp (fun s => State.access { s with dev := s.dev.tapAccess } .debug false none off 4 (write.map (fun v => leBytes 4 v.toNat)))

end Sys2Proof.Machine
end

