-- ==== Sys2Proof/Machine/CmdEvent.lean ====
section
/-! DEFINITION. Meanings: the event ring and aborts. -/

namespace Sys2Proof.Machine

/-- EVT_RECORD_WRITE (R346). -/
def execEvtRecordWrite (s : State) : Result := s.onDev Dev.evtRecord
/-- EVT_TAIL_WRITE (R347). -/
def execEvtTailWrite (m : Master) (v : Word) (s : State) : Result := s.write m Off.EVT_TAIL v
/-- EVT_ENABLE (R346, R347). -/
def execEvtEnable (m : Master) (irq0 : Bool) (s : State) : Result :=
  s.write m Off.EVT_CTL (goBit ||| (if irq0 then 0x40000000 else 0))

/-- An abort: SYS_ABORT_ID is written, then SYS_ABORT_CMD with KIND and GO (R352). -/
def State.abort (s : State) (m : Master) (kind : Nat) (id : Word) (race : Bool) : Result :=
  s.whenUp (fun s => (s.put m Off.SYS_ABORT_ID id).access m race none Off.SYS_ABORT_CMD 4 (some (leBytes 4 (2 ^ 31 + kind))))

/-- ABORT_JOB (R352). -/
def execAbortJob (m : Master) (id : Word) (race : Bool) (s : State) : Result := s.abort m 0 id race
/-- ABORT_WARDEN (R352). -/
def execAbortWarden (m : Master) (id : Word) (s : State) : Result := s.abort m 1 id false
/-- ABORT_STREAM (R352). -/
def execAbortStream (m : Master) (id : Word) (s : State) : Result := s.abort m 2 id false
/-- ABORT_FLOW (R352). -/
def execAbortFlow (m : Master) (id : Word) (s : State) : Result := s.abort m 3 id false
/-- ABORT_QUARTER (R352). -/
def execAbortQuarter (m : Master) (id : Word) (s : State) : Result := s.abort m 4 id false
/-- ABORT_SDRAM_FLOW (R352). -/
def execAbortSdramFlow (m : Master) (id : Word) (s : State) : Result := s.abort m 5 id false
/-- CLOSURE: KIND 6, its ID ignored (R352, R354). -/
def execClosure (m : Master) (s : State) : Result := s.abort m 6 0 false

end Sys2Proof.Machine
end

