-- ==== Sys2Proof/Machine/CmdInterchange.lean ====
section
/-! DEFINITION. Meanings: the Interchange. -/

namespace Sys2Proof.Machine

/-- KERB_PREFETCH (R142). -/
def execKerbPrefetch (sq part : Nat) (s : State) : Result := State.ofUnit sq 32 (s.onDev (fun d => d.kerbPrefetch sq part))
/-- COMPLETION_REPORT (R145). -/
def execCompletionReport (sq status : Nat) (ue : Bool) (runNs : Nat) (twin : Option (Nat × Nat)) (s : State) : Result :=
  State.ofUnit sq 32 (State.ofUnit (twin.elim 0 (fun p => p.1)) 32 (s.onDev (fun d => d.reports sq status ue runNs twin)))
/-- WRITE_BACK_END (R146). -/
def execWriteBackEnd (flow tick sub first : Nat) (s : State) : Result :=
  State.ofUnit flow 256 (s.onDev (fun d => d.writeBackEnd ⟨flow, tick, sub, first⟩))
/-- CANCEL (R156, R158). -/
def execCancel (m : Master) (template : Nat) (race : Bool) (s : State) : Result :=
  State.ofUnit template 4096 (s.whenUp (fun s =>
    s.access m race none Off.ICX_CANCEL 4 (some (leBytes 4 (2 ^ 31 + template)))))
/-- MIGRATE (R157). -/
def execMigrate (m : Master) (template quarter : Nat) (s : State) : Result :=
  State.ofUnit template 4096 (State.ofUnit quarter 4 (s.write m Off.ICX_MIGRATE (BitVec.ofNat 32 (2 ^ 31 + quarter * 65536 + template))))
/-- FENCE_SQUARE (R151). -/
def execFenceSquare (m : Master) (sq : Nat) (s : State) : Result :=
  State.ofUnit sq 32 (s.write m Off.ICX_FENCE (BitVec.ofNat 32 (2 ^ 31 + sq)))
/-- CLEAR_SQUARE (R154). -/
def execClearSquare (m : Master) (sq : Nat) (s : State) : Result :=
  State.ofUnit sq 32 (s.write m Off.ICX_FENCE (BitVec.ofNat 32 (2 ^ 31 + 2 ^ 29 + sq)))
/-- FENCE_QUARTER (R154). -/
def execFenceQuarter (m : Master) (q : Nat) (s : State) : Result :=
  State.ofUnit q 4 (s.write m Off.ICX_FENCE (BitVec.ofNat 32 (2 ^ 31 + 2 ^ 30 + q)))
/-- CLEAR_QUARTER (R154). -/
def execClearQuarter (m : Master) (q : Nat) (s : State) : Result :=
  State.ofUnit q 4 (s.write m Off.ICX_FENCE (BitVec.ofNat 32 (2 ^ 31 + 3 * 2 ^ 29 + q)))
/-- SQUARE_UE (R150). -/
def execSquareUe (sq : Nat) (s : State) : Result := State.ofUnit sq 32 (s.onDev (fun d => (d.fence sq 2).afterRelease))
/-- SQUARE_WATCHDOG: one job run across SQ_WDOG.TICKS boundaries (R150). -/
def execSquareWatchdog (sq : Nat) (s : State) : Result :=
  State.ofUnit sq 32 (s.onDev (fun d =>
    let ticks := d.fld (Off.SQ_WDOG sq) 3 0
    if (d.square sq).run.isSome && decide (0 < ticks) && decide (ticks ≤ (d.square sq).crossed) then (d.fence sq 4).afterRelease
    else d))
/-- FENCE_WRITE_BLOCK (R152). -/
def execFenceWriteBlock (sq : Nat) (s : State) : Result := State.ofUnit sq 32 (s.onDev (fun d => d.blockWrites sq))

end Sys2Proof.Machine
end

