-- ==== Sys2Proof/Machine/CmdListen.lean ====
section
/-! DEFINITION. Meanings: the Listening Post and the Reference Drive. -/

namespace Sys2Proof.Machine

/-- DEC_SYNC_EDGE (R230). -/
def execDecSyncEdge (s : State) : Result := s.onDev Dev.decSync
/-- LPO_SYNC_GO (R230). -/
def execLpoSyncGo (m : Master) (s : State) : Result := s.writeBits m Off.LPO_SYNC goBit goBit
/-- SETTLING_END (R230). -/
def execSettlingEnd (c : Nat) (s : State) : Result := State.ofUnit c 16 (s.onDev (fun d => d.settleEnd c))
/-- LPO_SWAP: a write of LPO_CH_CTL with SWAP set (R231). -/
def execLpoSwap (m : Master) (c : Nat) (v : Word) (s : State) : Result := State.ofUnit c 16 (s.write m (Off.LPO_CH_CTL c) (v ||| goBit))
/-- LPO_SWAP_END (R231). -/
def execLpoSwapEnd (c : Nat) (s : State) : Result := State.ofUnit c 16 (s.onDev (fun d => d.lpoSwapEnd c))
/-- MEAS_RESET (R238). -/
def execMeasReset (m : Master) (e : Nat) (s : State) : Result := State.ofUnit e 16 (s.write m Off.LPO_MEAS_CMD (goBit ||| BitVec.ofNat 32 e))
/-- MEAS_IR (R238). -/
def execMeasIr (m : Master) (e : Nat) (s : State) : Result :=
  State.ofUnit e 16 (s.write m Off.LPO_MEAS_CMD (goBit ||| 0x10000000 ||| BitVec.ofNat 32 e))
/-- VIN_MEASURE (R240). -/
def execVinMeasure (mv : Nat) (s : State) : Result := s.onDev (fun d => d.vinTake mv)
/-- CHANNEL_START (R244). -/
def execChannelStart (c : Nat) (s : State) : Result := State.ofUnit c 12 (s.onDev (fun d => d.drvStart c))
/-- CM_RAMP_DONE (R244). -/
def execCmRampDone (c : Nat) (s : State) : Result := State.ofUnit c 12 (s.onDev (fun d => d.drvRampDone c))
/-- DRIVE_SHORT (R246). -/
def execDriveShort (c : Nat) (peaks : List (Nat × Nat)) (dc : Bool) (s : State) : Result :=
  State.ofUnit c 12 (s.onDev (fun d => d.driveShort c peaks dc))
/-- DRIVE_DC (R247). -/
def execDriveDc (c : Nat) (s : State) : Result := State.ofUnit c 12 (s.onDev (fun d => d.driveDc c))
/-- DRIVE_RETRY (R248). -/
def execDriveRetry (c : Nat) (s : State) : Result := State.ofUnit c 12 (s.onDev (fun d => d.driveRetry c))
/-- RETRY_COUNT_RESET (R248). -/
def execRetryCountReset (c : Nat) (s : State) : Result := State.ofUnit c 12 (s.onDev (fun d => d.retryReset c))
/-- LATCHED (R248). -/
def execLatched (m : Master) (c : Nat) (s : State) : Result := State.ofUnit c 12 (s.write m (Off.DRV_CH_STAT c) 0x20000000)
/-- DRIVE_THERMAL_SD (R243). -/
def execDriveThermalSd (s : State) : Result := s.onDev Dev.thermalSd
/-- DRIVE_THERMAL_RESTART (R243). -/
def execDriveThermalRestart (s : State) : Result := s.onDev Dev.thermalRestart
/-- DRIVE_SUPPLY (R249). -/
def execDriveSupply (ovp : Bool) (s : State) : Result := s.onDev (fun d => d.supplyLimit ovp)
/-- DRIVE_SUPPLY_RESTART (R249). -/
def execDriveSupplyRestart (ovp : Bool) (s : State) : Result := s.onDev (fun d => d.supplyRestart ovp)
/-- DRV_CTL_EN_CLEAR (R250). -/
def execDrvCtlEnClear (m : Master) (s : State) : Result := s.writeBits m Off.DRV_CTL goBit 0

end Sys2Proof.Machine
end

