-- ==== Sys2Proof/Machine/CmdNet.lean ====
section
/-! DEFINITION. Meanings: network streams and the Steward's services. -/

namespace Sys2Proof.Machine

/-- STREAM_CONFIG_WRITE (R195). -/
def execStreamConfigWrite (m : Master) (tx : Bool) (i : Nat) (v : Word) (s : State) : Result :=
  State.ofUnit i 128 (s.write m (if tx then Off.NET_TX_CTL i else Off.NET_RX_CTL i) v)
/-- STREAM_PACKET_RX (R197). -/
def execStreamPacketRx (p : RtpPacket) (twin : Option RtpPacket) (s : State) : Result :=
  State.ofUnit p.port 4 (State.ofUnit ((twin.map (fun q => q.port)).getD 0) 4 (s.onDev (fun d => d.rxPackets p twin)))
/-- STREAM_PATH_LOST (R201). -/
def execStreamPathLost (i net : Nat) (s : State) : Result := State.ofUnit i 128 (State.ofUnit net 2 (s.onDev (fun d => d.pathLost i net)))
/-- STREAM_PACKET_TX (R202). -/
def execStreamPacketTx (i q : Nat) (s : State) : Result := State.ofUnit i 128 (s.onDev (fun d => d.txSend i q))
/-- STEWARD_PACKET (R206). -/
def execStewardPacket (port : Nat) (vlan : Option Nat) (p : StewPacket) (s : State) : Result :=
  State.ofUnit port 4 (s.onDev (fun d => d.stewardTake port vlan p))
/-- ARP_REFRESH (R205). -/
def execArpRefresh (s : State) : Result := s.onDev Dev.arpRefreshAll
/-- NET_LINK (R193). -/
def execNetLink (port : Nat) (up : Bool) (s : State) : Result := State.ofUnit port 4 (s.onDev (fun d => d.netLinkAt port up))
/-- NOTICE_SEND (R207). -/
def execNoticeSend (s : State) : Result := s.onDev Dev.noticeGo

end Sys2Proof.Machine
end

