-- ==== Sys2Proof/Machine/CmdObject.lean ====
section
/-! DEFINITION. Meanings: Kazeo frames, the mailbox and the Wardens. -/

namespace Sys2Proof.Machine

/-- Is a datagram on port e taken as a Kazeo frame (R53)? -/
def Dev.kazeoTaken (d : Dev) (e dstIp udpPort : Nat) : Bool :=
  let joined := (d.rxOn e).any (fun s => isMulticast dstIp && (d.rd (Off.NET_RX_GROUP_IP s)).toNat == dstIp)
  d.linkUp e && d.bit Off.OBJ_CTL 0 && (d.rd Off.OBJ_UDP_CFG).getLsbD (16 + e) && d.portIp e != 0 && udpPort != 0 &&
    udpPort == d.fld Off.OBJ_UDP_CFG 15 0 && (dstIp == d.portIp e || joined)

/-- KAZEO_UDP_FRAME (R53). -/
def execKazeoUdpFrame (port : Nat) (vlan : Option Nat) (dstIp udpPort : Nat) (payload : List Byte) (s : State) : Result :=
  State.ofUnit port 4 (s.onDev (fun d =>
    if d.tagTaken port vlan && d.kazeoTaken port dstIp udpPort then (d.takeFrame port payload).1 else d))
/-- MBOX_POST (R54). -/
def execMboxPost (m : Master) (slot : Nat) (s : State) : Result :=
  State.ofUnit slot 8 (s.write m Off.OBJ_MBOX_POST (goBit ||| BitVec.ofNat 32 slot))
/-- COMMIT (R62). -/
def execCommit (w len : Nat) (acts : List WardenAct) (s : State) : Result :=
  State.ofUnit w 8 (s.onDev (fun d => (d.wardenRun w acts).wardenCommit w len))
/-- WARDEN_WFI (R62). -/
def execWardenWfi (w : Nat) (acts : List WardenAct) (s : State) : Result :=
  State.ofUnit w 8 (s.onDev (fun d => (d.wardenRun w acts).wardenStop w))
/-- WARDEN_OVERRUN: boundary N + 1 has found the activation still running (R62); before it, only the acts count. The boundary's own
steps abandon what is still running, so this comes first only while they are put off (R280). -/
def execWardenOverrun (w : Nat) (acts : List WardenAct) (s : State) : Result :=
  State.ofUnit w 8 (s.onDev (fun d =>
    let d := d.wardenRun w acts
    if d.wdnBusy w && decide ((d.warden w).n < d.clk.tick) then d.wardenFault w 1 else d))
/-- WARDEN_FAULT: causes 2 to 4 of an executing Warden (R63). -/
def execWardenFault (w cause : Nat) (acts : List WardenAct) (s : State) : Result :=
  State.ofUnit w 8 (s.onDev (fun d =>
    let d := d.wardenRun w acts
    if d.wdnBusy w && decide (2 ≤ cause) && decide (cause ≤ 4) then d.wardenFault w cause else d))
/-- WDN_MEM_ACCESS (R62). -/
def execWdnMemAccess (m : Master) (write : Option Word) (s : State) : Result :=
  s.whenUp (fun s => s.access m false none Off.WDN_MEM_DATA 4 (write.map (fun v => leBytes 4 v.toNat)))

end Sys2Proof.Machine
end

