-- ==== Sys2Proof/Machine/CmdPlan.lean ====
section
/-! DEFINITION. Meanings: Street Plan images, Diversions and the Detour. -/

namespace Sys2Proof.Machine

/-- LOAD: GO with CMD LOAD; `src` is what a read of the host's bytes returns (R31). -/
def execLoad (m : Master) (src : Option (List Byte)) (s : State) : Result :=
  s.whenUp (fun s => s.access m false src Off.DIV_IMG_CMD 4 (some (leBytes 4 goBit.toNat)))
/-- CHECK (R33). -/
def execCheck (m : Master) (s : State) : Result := s.write m Off.DIV_IMG_CMD (goBit ||| 1)
/-- DISCARD (R39). -/
def execDiscard (m : Master) (index : Nat) (s : State) : Result :=
  State.ofUnit index 16 (s.write m Off.DIV_IMG_CMD (goBit ||| BitVec.ofNat 32 (index * 16 + 2)))
/-- LOAD_DONE (R31). A load that still waits for a register has no result to post; its register is read again (R27). -/
def execLoadDone (s : State) : Result :=
  s.whenUp (fun s => if s.dev.div.loading.isSome then { s with dev := s.dev.loadDone } else s.loadPoll)
/-- DIV_APPLY (R40). -/
def execDivApply (m : Master) (index : Nat) (s : State) : Result :=
  State.ofUnit index 16 (s.write m Off.DIV_APPLY_R (goBit ||| BitVec.ofNat 32 index))
/-- DIV_CANCEL (R41). -/
def execDivCancel (m : Master) (index : Nat) (s : State) : Result :=
  State.ofUnit index 16 (s.write m Off.DIV_APPLY_R (goBit ||| 0x20000000 ||| BitVec.ofNat 32 index))
/-- DETOUR_ARM (R43). -/
def execDetourArm (m : Master) (v : Bool) (s : State) : Result := s.write m Off.DIV_DETOUR_CFG (if v then 1 else 0)

end Sys2Proof.Machine
end

