-- ==== Sys2Proof/Machine/CmdPort.lean ====
section
/-! DEFINITION. Meanings: serial ports and AES3 ports. -/

namespace Sys2Proof.Machine

/-- PORT_CONFIG_WRITE (R177). -/
def execPortConfigWrite (m : Master) (p : Nat) (v : Word) (s : State) : Result := State.ofUnit p 16 (s.write m (Off.PRT_CFG p) v)
/-- SERIAL_FRAME (R180). -/
def execSerialFrame (p : Nat) (f : SerialFrame) (s : State) : Result := State.ofUnit p 16 (s.onDev (fun d => d.serialFrameAt p f))
/-- PORT_UNMUTE_START (R183). -/
def execPortUnmuteStart (p : Nat) (s : State) : Result := State.ofUnit p 16 (s.onDev (fun d => d.portUnmute p))
/-- UNMUTE_TIMEOUT (R183). -/
def execUnmuteTimeout (p : Nat) (s : State) : Result := State.ofUnit p 16 (s.onDev (fun d => d.unmuteRamp p))
/-- PORT_CLOCK_FAULT (R184). -/
def execPortClockFault (p cause : Nat) (s : State) : Result := State.ofUnit p 16 (s.onDev (fun d => d.portFault p cause))
/-- FCLK_LOST (R179). -/
def execFclkLost (edges : List (Option Int)) (s : State) : Result := s.onDev (fun d => d.fclkEdges edges)
/-- FCLK_RESTORED (R179). -/
def execFclkRestored (edges : List (Option Int)) (s : State) : Result := s.onDev (fun d => d.fclkEdges edges)
/-- SMASK_COMMIT (R182). -/
def execSmaskCommit (m : Master) (p : Nat) (s : State) : Result := State.ofUnit p 16 (s.write m (Off.PRT_SMASK_COMMIT p) goBit)
/-- SMASK_APPLY (R182). -/
def execSmaskApply (p : Nat) (s : State) : Result := State.ofUnit p 16 (s.onDev (fun d => d.smaskApply p))
/-- LINK_TEST_DONE (R187). -/
def execLinkTestDone (p : Nat) (s : State) : Result := State.ofUnit p 16 (s.onDev (fun d => d.linkDone p))
/-- AES3_FRAME (R188). -/
def execAes3Frame (r : Nat) (z : Bool) (a b : AesSub) (s : State) : Result := State.ofUnit r 8 (s.onDev (fun d => d.aesFrame r z a b))
/-- AES3_LOCK (R188). -/
def execAes3Lock (r rate : Nat) (s : State) : Result := State.ofUnit r 8 (s.onDev (fun d => d.aesLock r rate))
/-- AES3_UNLOCK (R188). -/
def execAes3Unlock (r absent : Nat) (s : State) : Result := State.ofUnit r 8 (s.onDev (fun d => d.aesUnlock r absent))
/-- AES3_CS_BLOCK (R189). -/
def execAes3CsBlock (r sub : Nat) (s : State) : Result := State.ofUnit r 8 (State.ofUnit sub 2 (s.onDev (fun d => d.aesCsBlock r sub)))
/-- CS_GO (R191). -/
def execCsGo (m : Master) (t : Nat) (s : State) : Result := State.ofUnit t 8 (s.writeBits m (Off.AES_TX_CFG t) 0x40000000 0x40000000)
/-- AES_TX_CS_LOAD (R191). -/
def execAesTxCsLoad (t : Nat) (s : State) : Result := State.ofUnit t 8 (s.onDev (fun d => d.csLoad t))

end Sys2Proof.Machine
end

