-- ==== Sys2Proof/Machine/CmdPower.lean ====
section
/-! DEFINITION. Meanings: resets, power states and the Lamplighter. -/

namespace Sys2Proof.Machine

/-- POR (R333). -/
def execPor (s : State) : Result := s.onLamp Dev.porAct
/-- BROWNOUT (R333). -/
def execBrownout (s : State) : Result := s.onLamp (fun d => d.resetNow 2 0)
/-- RESET_N (R333). -/
def execResetN (s : State) : Result := s.onLamp Dev.resetPin
/-- RAIL_FAULT (R325). -/
def execRailFault (rail : Nat) (s : State) : Result := State.ofUnit rail 16 (s.onLamp (fun d => d.resetNow 7 rail))
/-- THERMAL_RESET (R333). -/
def execThermalReset (s : State) : Result := s.onLamp Dev.thermalReset
/-- THERMAL_RELEASE (R333). -/
def execThermalRelease (s : State) : Result := s.onLamp Dev.thermalRelease
/-- THERMAL_WARN (R333). -/
def execThermalWarn (temp : Int) (s : State) : Result := s.onDev (fun d => d.thermalWarn temp)
/-- REFCLK_LOSS (R333). -/
def execRefclkLoss (s : State) : Result := s.onLamp (fun d => d.resetNow 9 0)
/-- FAILING_HOLDBACK_END (R334). -/
def execFailingHoldbackEnd (s : State) : Result := s.onDev Dev.holdbackEnd
/-- RESET_RELEASE (R335). -/
def execResetRelease (st : Straps) (s : State) : Result := s.always (fun s => s.release st)
/-- FIRMWARE_RESIDENCE_FILL (R338). -/
def execFirmwareResidenceFill (src : Option (List Byte)) (s : State) : Result := s.whenUp (fun s => s.residence src)
/-- WDOG_KICK (R328). -/
def execWdogKick (m : Master) (v : Word) (s : State) : Result := s.write m Off.LMP_WDOG_KICK v
/-- WATCHDOG (R328). -/
def execWatchdog (s : State) : Result := s.onDev Dev.wdogFire
/-- LOCKSTEP_MISMATCH fires the watchdog at once (R351). -/
def execLockstepMismatch (s : State) : Result :=
  s.onDev (fun d => { d with lmp := { d.lmp with wdog := 0 } }.failingReset 5)
/-- OSC_FALLBACK (R326). -/
def execOscFallback (s : State) : Result := s.onLamp (fun d => d.oscChange true)
/-- OSC_RESTORED (R326). -/
def execOscRestored (s : State) : Result := s.onLamp (fun d => d.oscChange false)
/-- RTC_WRITE (R327). -/
def execRtcWrite (m : Master) (v : Word) (s : State) : Result := s.write m Off.LMP_RTC_SEC_LO v
/-- PWR_REQ_NAP (R331). -/
def execPwrReqNap (m : Master) (s : State) : Result := s.write m Off.SYS_PWR_REQ (goBit ||| 1)
/-- PWR_REQ_HIBERNATE (R331). -/
def execPwrReqHibernate (m : Master) (s : State) : Result := s.write m Off.SYS_PWR_REQ (goBit ||| 2)
/-- LOW_POWER_ENTRY_DONE (R330). -/
def execLowPowerEntryDone (s : State) : Result := s.onLamp Dev.lowPowerDone
/-- WAKE (R330). -/
def execWake (s : State) : Result := s.onLamp (fun d => d.wakeGo 1)
/-- RTC_ALARM (R330). -/
def execRtcAlarm (s : State) : Result := s.onLamp Dev.rtcAlarm
/-- NAP_TIMER (R330). -/
def execNapTimer (s : State) : Result := s.onLamp Dev.napTimer
/-- NAP_WAKE_RESUME (R330). -/
def execNapWakeResume (good : Bool) (s : State) : Result := s.whenUp (fun s => s.napResume good)
/-- QUARTER_GATE (R332). -/
def execQuarterGate (q : Nat) (s : State) : Result := State.ofUnit q 4 (s.onDev (fun d => d.quarterGate q))
/-- QUARTER_WAKE (R332). -/
def execQuarterWake (q : Nat) (late : Bool) (s : State) : Result := State.ofUnit q 4 (s.onDev (fun d => d.quarterWakeEnd q late))

end Sys2Proof.Machine
end

