-- ==== Sys2Proof/Machine/CmdRender.lean ====
section
/-! DEFINITION. Meanings: room correction, feed conditioning and the Roundabout. -/

namespace Sys2Proof.Machine

/-- SWAP: a write of RCF_F_CTL with SWAP set (R122). -/
def execSwap (m : Master) (f : Nat) (v : Word) (s : State) : Result :=
  State.ofUnit f 512 (s.write m (Off.RCF_F_CTL f) (v ||| goBit))
/-- BANK_SWAP_END (R122). -/
def execBankSwapEnd (f : Nat) (s : State) : Result := State.ofUnit f 512 (s.onDev (fun d => d.swapEnd f))
/-- BQ_SELECT (R130). -/
def execBqSelect (m : Master) (v : Word) (s : State) : Result := s.write m Off.OUT_BQ_SEL v
/-- BQ_COMMIT (R130). -/
def execBqCommit (m : Master) (s : State) : Result := s.write m Off.OUT_BQ_CMT goBit
/-- MOVE (R167). -/
def execMove (m : Master) (s : State) : Result := s.write m Off.RBT_MOVE_CMD goBit
/-- ZC_TIMEOUT: Z candidates have passed without a crossing (R165). -/
def execZcTimeout (x : Nat) (s : State) : Result :=
  State.ofUnit x 16384 (s.onDev (fun d =>
    if (d.xp x).pending && !(d.xp x).force && decide (d.zcLimit ≤ (d.xp x).cand) then d.stepXp x true else d))
/-- ASRC_LOCK (R172). -/
def execAsrcLock (c ratio : Nat) (s : State) : Result := State.ofUnit c 64 (s.onDev (fun d => d.asrcLock c ratio))
/-- ASRC_UNLOCK (R172). -/
def execAsrcUnlock (g cause : Nat) (s : State) : Result := State.ofUnit g 16 (s.onDev (fun d => d.asrcUnlock g cause))

end Sys2Proof.Machine
end

