-- ==== Sys2Proof/Machine/CmdSdram.lean ====
section
/-! DEFINITION. Meanings: the SDRAM controller. -/

namespace Sys2Proof.Machine

/-- DMC_ENABLE: a write of DMC_CTL (R300). -/
def execDmcEnable (m : Master) (c : Nat) (v : Word) (s : State) : Result := State.ofUnit c 2 (s.write m (Off.DMC_CTL c) v)
/-- SDRAM_REQUEST (R293). A granule lies on one channel, and its requests reach no other (R291). -/
def execSdramRequest (c granule requester : Nat) (op : DmcOp) (s : State) : Result :=
  State.ofUnit c 2 (State.ofUnit requester 14 (s.onDev (fun d => d.dmcRequest (granuleCh granule) granule requester op)))
/-- DMC_ISSUE (R294). -/
def execDmcIssue (c : Nat) (beats : List EccBeat) (s : State) : Result := State.ofUnit c 2 (s.onDev (fun d => d.dmcSlot c beats))
/-- READ_DATA_RETURN (R301). -/
def execReadDataReturn (c : Nat) (beats : List EccBeat) (s : State) : Result := State.ofUnit c 2 (s.onDev (fun d => d.dmcReturn c beats))
/-- REFRESH (R299). -/
def execRefresh (c rank : Nat) (s : State) : Result := State.ofUnit c 2 (State.ofUnit rank 2 (s.onDev (fun d => d.dmcRefresh c rank)))
/-- MR4_POLL (R299). -/
def execMr4Poll (c rank mr4 : Nat) (s : State) : Result := State.ofUnit c 2 (State.ofUnit rank 2 (s.onDev (fun d => d.dmcMr4 c rank mr4)))
/-- RH_WINDOW_END (R297). -/
def execRhWindowEnd (c : Nat) (s : State) : Result := State.ofUnit c 2 (s.onDev (fun d => d.dmcWindowEnd c))
/-- DQS_TRACKING (R300). -/
def execDqsTracking (c : Nat) (s : State) : Result := State.ofUnit c 2 (s.onDev (fun d => d.dmcTrack c))
/-- SCRUB_READ (R302). -/
def execScrubRead (c : Nat) (s : State) : Result := State.ofUnit c 2 (s.onDev (fun d => d.dmcScrub c))
/-- RANK_POWER_DOWN (R303). -/
def execRankPowerDown (c rank : Nat) (s : State) : Result :=
  State.ofUnit c 2 (State.ofUnit rank 2 (s.onDev (fun d => d.dmcPowerDown c rank)))
/-- TIMING_SET_CHANGE: a write of DMC_PWR that gives MODE bit 1 (R303). -/
def execTimingSetChange (m : Master) (setB : Bool) (s : State) : Result := s.writeBits m (Off.DMC_PWR 0) 2 (if setB then 2 else 0)

end Sys2Proof.Machine
end

