-- ==== Sys2Proof/Machine/CmdTick.lean ====
section
/-! DEFINITION. Meanings: the tick, rendering, and what else the SYS block commands. -/

namespace Sys2Proof.Machine

/-- TICK_BOUNDARY (R9). -/
def execTickBoundary (b : BoundaryIn) (s : State) : Result :=
  s.whenUp (fun s => let s := s.portsFree; State.loadPoll { s with dev := s.dev.tickBoundary s.otp b })
/-- EGRESS_LOST (R208), with the Detour's firing (R43). -/
def execEgressLost (s : State) : Result :=
  s.onDev (fun d => let r := d.egressGone; if r.2 then r.1.detourFire else r.1)
/-- EGRESS_RESTORED (R208). -/
def execEgressRestored (s : State) : Result := s.onDev Dev.egressBack
/-- RENDER_DEADLINE (R14). -/
def execRenderDeadline (s : State) : Result := s.onDev Dev.renderDeadline
/-- RENDER_EN_SET (R16, R32). -/
def execRenderEnSet (m : Master) (s : State) : Result := s.writeBits m Off.SYS_CTL (goBit ||| 2) 2
/-- RENDER_EN_CLEAR (R16, R354). -/
def execRenderEnClear (m : Master) (s : State) : Result := s.writeBits m Off.SYS_CTL (goBit ||| 2) 0
/-- SOFT_RESET (R334). -/
def execSoftReset (m : Master) (s : State) : Result := s.writeBits m Off.SYS_CTL goBit goBit
/-- REMAP (R307). -/
def execRemap (m : Master) (v : Bool) (s : State) : Result := s.writeBits m Off.SYS_CTL (goBit ||| 1) (if v then 1 else 0)

end Sys2Proof.Machine
end

