-- ==== Sys2Proof/Machine/CmdTime.lean ====
section
/-! DEFINITION. Meanings: network time. -/

namespace Sys2Proof.Machine

/-- PTP_MESSAGE (R213). -/
def execPtpMessage (i port : Nat) (vlan : Option Nat) (dev : Int) (head : PtpHead) (msg : PtpMsg) (s : State) : Result :=
  State.ofUnit i 2 (State.ofUnit port 4 (s.onDev (fun d => d.ptpTake i port vlan dev head msg)))
/-- DELAY_REQ_SEND (R212). -/
def execDelayReqSend (i port : Nat) (dev : Int) (s : State) : Result :=
  State.ofUnit i 2 (State.ofUnit port 4 (s.onDev (fun d => d.delayReq i port dev)))
/-- MASTER_LOST (R212). -/
def execMasterLost (i : Nat) (s : State) : Result := State.ofUnit i 2 (s.onDev (fun d => d.masterGone i))
/-- DOMAIN_REVERT (R215). -/
def execDomainRevert (s : State) : Result := s.onDev Dev.revert
/-- SLEW_END (R219). -/
def execSlewEnd (s : State) : Result := s.onDev Dev.slewDone
/-- TIME_STEP (R220). -/
def execTimeStep (pdm : PdmBits) (s : State) : Result := s.onDev (fun d => d.timeStep pdm)
/-- WCLK_LOCK (R221). -/
def execWclkLock (phase : Int) (periods : List Int) (s : State) : Result := s.onDev (fun d => d.wclkOn phase periods)
/-- WCLK_UNLOCK (R221). -/
def execWclkUnlock (periods : List Int) (s : State) : Result := s.onDev (fun d => d.wclkPeriods periods)
/-- WCLK_TIME_ADOPT (R221). -/
def execWclkTimeAdopt (s : State) : Result := s.onDev Dev.wclkAdopt
/-- PTP_TIME_WRITE (R210). -/
def execPtpTimeWrite (m : Master) (word : Nat) (v : Word) (s : State) : Result :=
  State.ofUnit word 4 (s.write m (Off.PTP_TIME_SEC_LO + 4 * word) v)

end Sys2Proof.Machine
end

