-- ==== Sys2Proof/Machine/CmdTwin.lean ====
section
/-! DEFINITION. Meanings: Twin operation, the Ledger and the District. -/

namespace Sys2Proof.Machine

/-- TWN_EN (R251). -/
def execTwnEn (m : Master) (v : Bool) (s : State) : Result := s.writeBits m Off.TWN_CTL goBit (if v then goBit else 0)
/-- BELL_WORD_TX (R260). -/
def execBellWordTx (s : State) : Result := s.onDev Dev.bellSend
/-- BELL_WORD_RX (R260). -/
def execBellWordRx (w : BitVec 64) (s : State) : Result := s.onDev (fun d => d.bellTake w)
/-- PARTNER_FAILED (R262). -/
def execPartnerFailed (s : State) : Result := s.onDev Dev.partnerFail
/-- PATH_ALARM (R262). -/
def execPathAlarm (courier lost : Bool) (s : State) : Result := s.onDev (fun d => d.pathAlarmGo courier lost)
/-- PARTNER_RETURNED (R263). -/
def execPartnerReturned (s : State) : Result := s.onDev Dev.partnerBack
/-- COURIER_RX (R266). -/
def execCourierRx (frame : List Byte) (s : State) : Result := s.onDev (fun d => d.courierTake frame)
/-- GATE_BLOCK_RX (R267). -/
def execGateBlockRx (frame : List Byte) (s : State) : Result := s.onDev (fun d => d.gateTake frame)
/-- SHARED_INPUT_RX (R268). -/
def execSharedInputRx (frame : List Byte) (s : State) : Result := s.onDev (fun d => d.shareTake frame)
/-- LEDGER_ENTRY_RX (R269). -/
def execLedgerEntryRx (frame : List Byte) (s : State) : Result := s.onDev (fun d => d.ledgerTake frame)
/-- SNAPSHOT_CHUNK_RX (R270). -/
def execSnapshotChunkRx (frame : List Byte) (s : State) : Result := s.onDev (fun d => d.chunkTake frame)
/-- COMMIT_RX (R270). -/
def execCommitRx (frame : List Byte) (s : State) : Result := s.whenUp (fun s => s.commitRx frame)
/-- COMPARE_RX (R271). -/
def execCompareRx (frame : List Byte) (s : State) : Result := s.onDev (fun d => d.compareTake frame)
/-- TWIN_LANE (R264). -/
def execTwinLane (lane : Nat) (up : Bool) (s : State) : Result := State.ofUnit lane 2 (s.onDev (fun d => d.twinLaneGo lane up))
/-- IN_STEP_REACHED (R255). -/
def execInStepReached (s : State) : Result := s.onDev Dev.inStepGo
/-- HOLDOFF_END (R255). -/
def execHoldoffEnd (s : State) : Result := s.onDev Dev.holdoffGo
/-- LEDGER_SUBMIT: GO with EKIND and BLEN as they stand (R276). -/
def execLedgerSubmit (m : Master) (s : State) : Result := s.writeBits m Off.TWN_LDG_CMD goBit goBit
/-- LEDGER_RELAY_LOST (R276). -/
def execLedgerRelayLost (s : State) : Result := s.onDev Dev.relayLost
/-- EPOCH_TRANSFER (R280). -/
def execEpochTransfer (s : State) : Result := s.onDev Dev.epochSend
/-- EPOCH_ESTABLISHED (R280). -/
def execEpochEstablished (s : State) : Result := s.whenUp (fun s => { s with dev := s.dev.epochDone s.otp })
/-- RSTATE_TRANSFER (R282). -/
def execRstateTransfer (s : State) : Result := s.onDev Dev.rstateSend
/-- IMAGE_TRANSFER (R283). -/
def execImageTransfer (s : State) : Result := s.onDev Dev.imageSend
/-- FIRMWARE_TRANSFER (R337). -/
def execFirmwareTransfer (s : State) : Result := s.onDev Dev.firmwareSend
/-- NEED_FIRMWARE_COURIER (R337). -/
def execNeedFirmwareCourier (s : State) : Result := s.onDev Dev.firmwareAsk
/-- DISTRICT_FRAME_RX (R289). -/
def execDistrictFrameRx (frame : List Byte) (s : State) : Result := s.onDev (fun d => d.districtTake frame)
/-- DISTRICT_MEMBER (R289). -/
def execDistrictMember (i : Nat) (s : State) : Result := State.ofUnit i 8 (s.onDev (fun d => d.districtMember i))

end Sys2Proof.Machine
end

