-- ==== Sys2Proof/Machine/Dispatch.lean ====
section
/-! DEFINITION. One arm per command: its meaning. -/

namespace Sys2Proof.Machine

def exec (i : Instr) (s : State) : Host.Outcome State Fault Refusal :=
  match i with
  | .tickBoundary b => Sys2Proof.Machine.execTickBoundary b s
  | .egressLost => Sys2Proof.Machine.execEgressLost s
  | .egressRestored => Sys2Proof.Machine.execEgressRestored s
  | .renderDeadline => Sys2Proof.Machine.execRenderDeadline s
  | .renderEnSet m => Sys2Proof.Machine.execRenderEnSet m s
  | .renderEnClear m => Sys2Proof.Machine.execRenderEnClear m s
  | .softReset m => Sys2Proof.Machine.execSoftReset m s
  | .remap m v => Sys2Proof.Machine.execRemap m v s
  | .registerWrite m off size v => Sys2Proof.Machine.execRegisterWrite m off size v s
  | .tableWindowWrite m off data => Sys2Proof.Machine.execTableWindowWrite m off data s
  | .readClear m off => Sys2Proof.Machine.execReadClear m off s
  | .loReadLatch m off => Sys2Proof.Machine.execLoReadLatch m off s
  | .load m src => Sys2Proof.Machine.execLoad m src s
  | .check m => Sys2Proof.Machine.execCheck m s
  | .discard m index => Sys2Proof.Machine.execDiscard m index s
  | .divApply m index => Sys2Proof.Machine.execDivApply m index s
  | .divCancel m index => Sys2Proof.Machine.execDivCancel m index s
  | .detourArm m v => Sys2Proof.Machine.execDetourArm m v s
  | .kazeoUdpFrame port vlan dstIp udpPort payload => Sys2Proof.Machine.execKazeoUdpFrame port vlan dstIp udpPort payload s
  | .mboxPost m slot => Sys2Proof.Machine.execMboxPost m slot s
  | .commit w len acts => Sys2Proof.Machine.execCommit w len acts s
  | .wardenWfi w acts => Sys2Proof.Machine.execWardenWfi w acts s
  | .wardenOverrun w acts => Sys2Proof.Machine.execWardenOverrun w acts s
  | .wardenFault w cause acts => Sys2Proof.Machine.execWardenFault w cause acts s
  | .wdnMemAccess m write => Sys2Proof.Machine.execWdnMemAccess m write s
  | .kerbPrefetch sq part => Sys2Proof.Machine.execKerbPrefetch sq part s
  | .completionReport sq status ue runNs twin => Sys2Proof.Machine.execCompletionReport sq status ue runNs twin s
  | .writeBackEnd flow tick sub first => Sys2Proof.Machine.execWriteBackEnd flow tick sub first s
  | .zcTimeout x => Sys2Proof.Machine.execZcTimeout x s
  | .cancel m template race => Sys2Proof.Machine.execCancel m template race s
  | .migrate m template quarter => Sys2Proof.Machine.execMigrate m template quarter s
  | .fenceSquare m sq => Sys2Proof.Machine.execFenceSquare m sq s
  | .clearSquare m sq => Sys2Proof.Machine.execClearSquare m sq s
  | .fenceQuarter m q => Sys2Proof.Machine.execFenceQuarter m q s
  | .clearQuarter m q => Sys2Proof.Machine.execClearQuarter m q s
  | .squareUe sq => Sys2Proof.Machine.execSquareUe sq s
  | .squareWatchdog sq => Sys2Proof.Machine.execSquareWatchdog sq s
  | .fenceWriteBlock sq => Sys2Proof.Machine.execFenceWriteBlock sq s
  | .swap m f v => Sys2Proof.Machine.execSwap m f v s
  | .bankSwapEnd f => Sys2Proof.Machine.execBankSwapEnd f s
  | .bqSelect m v => Sys2Proof.Machine.execBqSelect m v s
  | .bqCommit m => Sys2Proof.Machine.execBqCommit m s
  | .move m => Sys2Proof.Machine.execMove m s
  | .asrcLock c ratio => Sys2Proof.Machine.execAsrcLock c ratio s
  | .asrcUnlock g cause => Sys2Proof.Machine.execAsrcUnlock g cause s
  | .portConfigWrite m p v => Sys2Proof.Machine.execPortConfigWrite m p v s
  | .serialFrame p f => Sys2Proof.Machine.execSerialFrame p f s
  | .portUnmuteStart p => Sys2Proof.Machine.execPortUnmuteStart p s
  | .unmuteTimeout p => Sys2Proof.Machine.execUnmuteTimeout p s
  | .portClockFault p cause => Sys2Proof.Machine.execPortClockFault p cause s
  | .fclkLost edges => Sys2Proof.Machine.execFclkLost edges s
  | .fclkRestored edges => Sys2Proof.Machine.execFclkRestored edges s
  | .smaskCommit m p => Sys2Proof.Machine.execSmaskCommit m p s
  | .smaskApply p => Sys2Proof.Machine.execSmaskApply p s
  | .linkTestDone p => Sys2Proof.Machine.execLinkTestDone p s
  | .aes3Frame r zPreamble a b => Sys2Proof.Machine.execAes3Frame r zPreamble a b s
  | .aes3Lock r rate => Sys2Proof.Machine.execAes3Lock r rate s
  | .aes3Unlock r absent => Sys2Proof.Machine.execAes3Unlock r absent s
  | .aes3CsBlock r sub => Sys2Proof.Machine.execAes3CsBlock r sub s
  | .csGo m t => Sys2Proof.Machine.execCsGo m t s
  | .aesTxCsLoad t => Sys2Proof.Machine.execAesTxCsLoad t s
  | .streamConfigWrite m tx k v => Sys2Proof.Machine.execStreamConfigWrite m tx k v s
  | .streamPacketRx p twin => Sys2Proof.Machine.execStreamPacketRx p twin s
  | .streamPathLost k net => Sys2Proof.Machine.execStreamPathLost k net s
  | .streamPacketTx k q => Sys2Proof.Machine.execStreamPacketTx k q s
  | .stewardPacket port vlan p => Sys2Proof.Machine.execStewardPacket port vlan p s
  | .arpRefresh => Sys2Proof.Machine.execArpRefresh s
  | .netLink port up => Sys2Proof.Machine.execNetLink port up s
  | .noticeSend => Sys2Proof.Machine.execNoticeSend s
  | .ptpMessage d port vlan dev head msg => Sys2Proof.Machine.execPtpMessage d port vlan dev head msg s
  | .delayReqSend d port dev => Sys2Proof.Machine.execDelayReqSend d port dev s
  | .masterLost d => Sys2Proof.Machine.execMasterLost d s
  | .domainRevert => Sys2Proof.Machine.execDomainRevert s
  | .slewEnd => Sys2Proof.Machine.execSlewEnd s
  | .timeStep pdm => Sys2Proof.Machine.execTimeStep pdm s
  | .wclkLock phase periods => Sys2Proof.Machine.execWclkLock phase periods s
  | .wclkUnlock periods => Sys2Proof.Machine.execWclkUnlock periods s
  | .ptpTimeWrite m word v => Sys2Proof.Machine.execPtpTimeWrite m word v s
  | .decSyncEdge => Sys2Proof.Machine.execDecSyncEdge s
  | .lpoSyncGo m => Sys2Proof.Machine.execLpoSyncGo m s
  | .settlingEnd c => Sys2Proof.Machine.execSettlingEnd c s
  | .lpoSwap m c v => Sys2Proof.Machine.execLpoSwap m c v s
  | .lpoSwapEnd c => Sys2Proof.Machine.execLpoSwapEnd c s
  | .measReset m e => Sys2Proof.Machine.execMeasReset m e s
  | .measIr m e => Sys2Proof.Machine.execMeasIr m e s
  | .vinMeasure mv => Sys2Proof.Machine.execVinMeasure mv s
  | .channelStart c => Sys2Proof.Machine.execChannelStart c s
  | .cmRampDone c => Sys2Proof.Machine.execCmRampDone c s
  | .driveShort c peaks dc => Sys2Proof.Machine.execDriveShort c peaks dc s
  | .driveDc c => Sys2Proof.Machine.execDriveDc c s
  | .driveRetry c => Sys2Proof.Machine.execDriveRetry c s
  | .retryCountReset c => Sys2Proof.Machine.execRetryCountReset c s
  | .latched m c => Sys2Proof.Machine.execLatched m c s
  | .driveThermalSd => Sys2Proof.Machine.execDriveThermalSd s
  | .driveThermalRestart => Sys2Proof.Machine.execDriveThermalRestart s
  | .driveSupply ovp => Sys2Proof.Machine.execDriveSupply ovp s
  | .driveSupplyRestart ovp => Sys2Proof.Machine.execDriveSupplyRestart ovp s
  | .drvCtlEnClear m => Sys2Proof.Machine.execDrvCtlEnClear m s
  | .twnEn m v => Sys2Proof.Machine.execTwnEn m v s
  | .bellWordTx => Sys2Proof.Machine.execBellWordTx s
  | .bellWordRx w => Sys2Proof.Machine.execBellWordRx w s
  | .partnerFailed => Sys2Proof.Machine.execPartnerFailed s
  | .pathAlarm courier lost => Sys2Proof.Machine.execPathAlarm courier lost s
  | .partnerReturned => Sys2Proof.Machine.execPartnerReturned s
  | .courierRx frame => Sys2Proof.Machine.execCourierRx frame s
  | .gateBlockRx frame => Sys2Proof.Machine.execGateBlockRx frame s
  | .sharedInputRx frame => Sys2Proof.Machine.execSharedInputRx frame s
  | .ledgerEntryRx frame => Sys2Proof.Machine.execLedgerEntryRx frame s
  | .snapshotChunkRx frame => Sys2Proof.Machine.execSnapshotChunkRx frame s
  | .commitRx frame => Sys2Proof.Machine.execCommitRx frame s
  | .compareRx frame => Sys2Proof.Machine.execCompareRx frame s
  | .twinLane lane up => Sys2Proof.Machine.execTwinLane lane up s
  | .inStepReached => Sys2Proof.Machine.execInStepReached s
  | .holdoffEnd => Sys2Proof.Machine.execHoldoffEnd s
  | .ledgerSubmit m => Sys2Proof.Machine.execLedgerSubmit m s
  | .ledgerRelayLost => Sys2Proof.Machine.execLedgerRelayLost s
  | .epochTransfer => Sys2Proof.Machine.execEpochTransfer s
  | .rstateTransfer => Sys2Proof.Machine.execRstateTransfer s
  | .imageTransfer => Sys2Proof.Machine.execImageTransfer s
  | .firmwareTransfer => Sys2Proof.Machine.execFirmwareTransfer s
  | .districtFrameRx frame => Sys2Proof.Machine.execDistrictFrameRx frame s
  | .districtMember m => Sys2Proof.Machine.execDistrictMember m s
  | .dmcEnable m c v => Sys2Proof.Machine.execDmcEnable m c v s
  | .sdramRequest c granule requester op => Sys2Proof.Machine.execSdramRequest c granule requester op s
  | .dmcIssue c beats => Sys2Proof.Machine.execDmcIssue c beats s
  | .readDataReturn c beats => Sys2Proof.Machine.execReadDataReturn c beats s
  | .refresh c rank => Sys2Proof.Machine.execRefresh c rank s
  | .mr4Poll c rank mr4 => Sys2Proof.Machine.execMr4Poll c rank mr4 s
  | .rhWindowEnd c => Sys2Proof.Machine.execRhWindowEnd c s
  | .dqsTracking c => Sys2Proof.Machine.execDqsTracking c s
  | .scrubRead c => Sys2Proof.Machine.execScrubRead c s
  | .rankPowerDown c rank => Sys2Proof.Machine.execRankPowerDown c rank s
  | .timingSetChange m setB => Sys2Proof.Machine.execTimingSetChange m setB s
  | .pcieTlp t => Sys2Proof.Machine.execPcieTlp t s
  | .spiTransaction bytes readWords => Sys2Proof.Machine.execSpiTransaction bytes readWords s
  | .crossbarGrant target arrive => Sys2Proof.Machine.execCrossbarGrant target arrive s
  | .perstN => Sys2Proof.Machine.execPerstN s
  | .parityScan bad => Sys2Proof.Machine.execParityScan bad s
  | .parityClear m => Sys2Proof.Machine.execParityClear m s
  | .otpProgram m target => Sys2Proof.Machine.execOtpProgram m target s
  | .secRevoke m bits => Sys2Proof.Machine.execSecRevoke m bits s
  | .newChallenge m => Sys2Proof.Machine.execNewChallenge m s
  | .submit m level => Sys2Proof.Machine.execSubmit m level s
  | .relock m => Sys2Proof.Machine.execRelock m s
  | .por => Sys2Proof.Machine.execPor s
  | .brownout => Sys2Proof.Machine.execBrownout s
  | .resetN => Sys2Proof.Machine.execResetN s
  | .railFault rail => Sys2Proof.Machine.execRailFault rail s
  | .thermalReset => Sys2Proof.Machine.execThermalReset s
  | .thermalRelease => Sys2Proof.Machine.execThermalRelease s
  | .thermalWarn temp => Sys2Proof.Machine.execThermalWarn temp s
  | .refclkLoss => Sys2Proof.Machine.execRefclkLoss s
  | .failingHoldbackEnd => Sys2Proof.Machine.execFailingHoldbackEnd s
  | .resetRelease st => Sys2Proof.Machine.execResetRelease st s
  | .firmwareResidenceFill src => Sys2Proof.Machine.execFirmwareResidenceFill src s
  | .wdogKick m v => Sys2Proof.Machine.execWdogKick m v s
  | .watchdog => Sys2Proof.Machine.execWatchdog s
  | .lockstepMismatch => Sys2Proof.Machine.execLockstepMismatch s
  | .oscFallback => Sys2Proof.Machine.execOscFallback s
  | .oscRestored => Sys2Proof.Machine.execOscRestored s
  | .rtcWrite m v => Sys2Proof.Machine.execRtcWrite m v s
  | .pwrReqNap m => Sys2Proof.Machine.execPwrReqNap m s
  | .pwrReqHibernate m => Sys2Proof.Machine.execPwrReqHibernate m s
  | .wake => Sys2Proof.Machine.execWake s
  | .rtcAlarm => Sys2Proof.Machine.execRtcAlarm s
  | .napTimer => Sys2Proof.Machine.execNapTimer s
  | .napWakeResume good => Sys2Proof.Machine.execNapWakeResume good s
  | .quarterGate q => Sys2Proof.Machine.execQuarterGate q s
  | .quarterWake q late => Sys2Proof.Machine.execQuarterWake q late s
  | .evtRecordWrite => Sys2Proof.Machine.execEvtRecordWrite s
  | .evtTailWrite m v => Sys2Proof.Machine.execEvtTailWrite m v s
  | .evtEnable m irq0 => Sys2Proof.Machine.execEvtEnable m irq0 s
  | .abortJob m id race => Sys2Proof.Machine.execAbortJob m id race s
  | .abortWarden m id => Sys2Proof.Machine.execAbortWarden m id s
  | .abortStream m id => Sys2Proof.Machine.execAbortStream m id s
  | .abortFlow m id => Sys2Proof.Machine.execAbortFlow m id s
  | .abortQuarter m id => Sys2Proof.Machine.execAbortQuarter m id s
  | .abortSdramFlow m id => Sys2Proof.Machine.execAbortSdramFlow m id s
  | .closure m => Sys2Proof.Machine.execClosure m s
  | .loadDone => Sys2Proof.Machine.execLoadDone s
  | .epochEstablished => Sys2Proof.Machine.execEpochEstablished s
  | .needFirmwareCourier => Sys2Proof.Machine.execNeedFirmwareCourier s
  | .wclkTimeAdopt => Sys2Proof.Machine.execWclkTimeAdopt s
  | .lowPowerEntryDone => Sys2Proof.Machine.execLowPowerEntryDone s
  | .jtagAccess off write => Sys2Proof.Machine.execJtagAccess off write s

end Sys2Proof.Machine
end

