-- ==== Sys2Proof/WellFormed.lean ====
section
/-! DEFINITION. Which commands are well formed: those that name units the device has. -/

namespace Sys2Proof

/-- Every unit, index or level that a command names exists. -/
def Instr.wf (i : Instr) : Bool :=
  match i with
  | .tickBoundary _ => true
  | .egressLost => true
  | .egressRestored => true
  | .renderDeadline => true
  | .renderEnSet _ => true
  | .renderEnClear _ => true
  | .softReset _ => true
  | .remap _ _ => true
  | .registerWrite _ _ _ _ => true
  | .tableWindowWrite _ _ _ => true
  | .readClear _ _ => true
  | .loReadLatch _ _ => true
  | .load _ _ => true
  | .check _ => true
  | .discard _ index => decide (index < 16)
  | .divApply _ index => decide (index < 16)
  | .divCancel _ index => decide (index < 16)
  | .detourArm _ _ => true
  | .kazeoUdpFrame port _ _ _ _ => decide (port < 4)
  | .mboxPost _ slot => decide (slot < 8)
  | .commit w _ _ => decide (w < 8)
  | .wardenWfi w _ => decide (w < 8)
  | .wardenOverrun w _ => decide (w < 8)
  | .wardenFault w _ _ => decide (w < 8)
  | .wdnMemAccess _ _ => true
  | .kerbPrefetch sq _ => decide (sq < 32)
  | .completionReport sq _ _ _ twin => decide (sq < 32) && twin.all (fun p => decide (p.1 < 32))
  | .writeBackEnd flow _ _ _ => decide (flow < 256)
  | .zcTimeout x => decide (x < 16384)
  | .cancel _ template _ => decide (template < 4096)
  | .migrate _ template quarter => decide (template < 4096) && decide (quarter < 4)
  | .fenceSquare _ sq => decide (sq < 32)
  | .clearSquare _ sq => decide (sq < 32)
  | .fenceQuarter _ q => decide (q < 4)
  | .clearQuarter _ q => decide (q < 4)
  | .squareUe sq => decide (sq < 32)
  | .squareWatchdog sq => decide (sq < 32)
  | .fenceWriteBlock sq => decide (sq < 32)
  | .swap _ f _ => decide (f < 512)
  | .bankSwapEnd f => decide (f < 512)
  | .bqSelect _ _ => true
  | .bqCommit _ => true
  | .move _ => true
  | .asrcLock c _ => decide (c < 64)
  | .asrcUnlock g _ => decide (g < 16)
  | .portConfigWrite _ p _ => decide (p < 16)
  | .serialFrame p _ => decide (p < 16)
  | .portUnmuteStart p => decide (p < 16)
  | .unmuteTimeout p => decide (p < 16)
  | .portClockFault p _ => decide (p < 16)
  | .fclkLost _ => true
  | .fclkRestored _ => true
  | .smaskCommit _ p => decide (p < 16)
  | .smaskApply p => decide (p < 16)
  | .linkTestDone p => decide (p < 16)
  | .aes3Frame r _ _ _ => decide (r < 8)
  | .aes3Lock r _ => decide (r < 8)
  | .aes3Unlock r _ => decide (r < 8)
  | .aes3CsBlock r sub => decide (r < 8) && decide (sub < 2)
  | .csGo _ t => decide (t < 8)
  | .aesTxCsLoad t => decide (t < 8)
  | .streamConfigWrite _ _ i _ => decide (i < 128)
  | .streamPacketRx p twin => decide (p.port < 4) && twin.all (fun q => decide (q.port < 4))
  | .streamPathLost i net => decide (i < 128) && decide (net < 2)
  | .streamPacketTx i _ => decide (i < 128)
  | .stewardPacket port _ _ => decide (port < 4)
  | .arpRefresh => true
  | .netLink port _ => decide (port < 4)
  | .noticeSend => true
  | .ptpMessage i port _ _ _ _ => decide (i < 2) && decide (port < 4)
  | .delayReqSend i port _ => decide (i < 2) && decide (port < 4)
  | .masterLost i => decide (i < 2)
  | .domainRevert => true
  | .slewEnd => true
  | .timeStep _ => true
  | .wclkLock _ _ => true
  | .wclkUnlock _ => true
  | .ptpTimeWrite _ word _ => decide (word < 4)
  | .decSyncEdge => true
  | .lpoSyncGo _ => true
  | .settlingEnd c => decide (c < 16)
  | .lpoSwap _ c _ => decide (c < 16)
  | .lpoSwapEnd c => decide (c < 16)
  | .measReset _ e => decide (e < 16)
  | .measIr _ e => decide (e < 16)
  | .vinMeasure _ => true
  | .channelStart c => decide (c < 12)
  | .cmRampDone c => decide (c < 12)
  | .driveShort c _ _ => decide (c < 12)
  | .driveDc c => decide (c < 12)
  | .driveRetry c => decide (c < 12)
  | .retryCountReset c => decide (c < 12)
  | .latched _ c => decide (c < 12)
  | .driveThermalSd => true
  | .driveThermalRestart => true
  | .driveSupply _ => true
  | .driveSupplyRestart _ => true
  | .drvCtlEnClear _ => true
  | .twnEn _ _ => true
  | .bellWordTx => true
  | .bellWordRx _ => true
  | .partnerFailed => true
  | .pathAlarm _ _ => true
  | .partnerReturned => true
  | .courierRx _ => true
  | .gateBlockRx _ => true
  | .sharedInputRx _ => true
  | .ledgerEntryRx _ => true
  | .snapshotChunkRx _ => true
  | .commitRx _ => true
  | .compareRx _ => true
  | .twinLane lane _ => decide (lane < 2)
  | .inStepReached => true
  | .holdoffEnd => true
  | .ledgerSubmit _ => true
  | .ledgerRelayLost => true
  | .epochTransfer => true
  | .rstateTransfer => true
  | .imageTransfer => true
  | .firmwareTransfer => true
  | .districtFrameRx _ => true
  | .districtMember i => decide (i < 8)
  | .dmcEnable _ c _ => decide (c < 2)
  | .sdramRequest c _ requester _ => decide (c < 2) && decide (requester < 14)
  | .dmcIssue c _ => decide (c < 2)
  | .readDataReturn c _ => decide (c < 2)
  | .refresh c rank => decide (c < 2) && decide (rank < 2)
  | .mr4Poll c rank _ => decide (c < 2) && decide (rank < 2)
  | .rhWindowEnd c => decide (c < 2)
  | .dqsTracking c => decide (c < 2)
  | .scrubRead c => decide (c < 2)
  | .rankPowerDown c rank => decide (c < 2) && decide (rank < 2)
  | .timingSetChange _ _ => true
  | .pcieTlp _ => true
  | .spiTransaction _ _ => true
  | .crossbarGrant target _ => decide (target < 7)
  | .perstN => true
  | .parityScan _ => true
  | .parityClear _ => true
  | .otpProgram _ target => decide (target < 8)
  | .secRevoke _ bits => decide (bits < 16)
  | .newChallenge _ => true
  | .submit _ level => decide (level < 4)
  | .relock _ => true
  | .por => true
  | .brownout => true
  | .resetN => true
  | .railFault rail => decide (rail < 16)
  | .thermalReset => true
  | .thermalRelease => true
  | .thermalWarn _ => true
  | .refclkLoss => true
  | .failingHoldbackEnd => true
  | .resetRelease _ => true
  | .firmwareResidenceFill _ => true
  | .wdogKick _ _ => true
  | .watchdog => true
  | .lockstepMismatch => true
  | .oscFallback => true
  | .oscRestored => true
  | .rtcWrite _ _ => true
  | .pwrReqNap _ => true
  | .pwrReqHibernate _ => true
  | .wake => true
  | .rtcAlarm => true
  | .napTimer => true
  | .napWakeResume _ => true
  | .quarterGate q => decide (q < 4)
  | .quarterWake q _ => decide (q < 4)
  | .evtRecordWrite => true
  | .evtTailWrite _ _ => true
  | .evtEnable _ _ => true
  | .abortJob _ _ _ => true
  | .abortWarden _ _ => true
  | .abortStream _ _ => true
  | .abortFlow _ _ => true
  | .abortQuarter _ _ => true
  | .abortSdramFlow _ _ => true
  | .closure _ => true
  | .loadDone => true
  | .epochEstablished => true
  | .needFirmwareCourier => true
  | .wclkTimeAdopt => true
  | .lowPowerEntryDone => true
  | .jtagAccess _ _ => true

end Sys2Proof
end

