-- ==== Sys2Proof/Safety.lean ====
section
/-! DEFINITION. The terms in which statements speak of a command: what it answers, the events it adds, what it leaves alone, and
the invariants of the machine. -/

namespace Sys2Proof.Machine

/-- The device is up, its register file is in canonical form, and no event waits to join the queue. -/
structure State.Ready (s : State) : Prop where
  up    : s.dev.isUp = true
  regs  : mwf regReset s.dev.regs = true
  fresh : s.dev.evt.fresh = []

/-- A command answers a next state of which P holds. -/
def Completes (c : Instr) (s : State) (P : State → Prop) : Prop := ∃ t, exec c s = .next t ∧ P t

/-- What stands beside the device is unchanged: the OTP, the flash and the queue. -/
def Beside (s t : State) : Prop := t.otp = s.otp ∧ t.flash = s.flash ∧ t.pending = s.pending

/-- The events that join the queue, in order, as (code, instance, parameter). -/
def NewEvents (s t : State) (es : List (Nat × Nat × Nat)) : Prop :=
  t.dev.evt.raised = s.dev.evt.raised ++ es.map (fun e => ⟨e.1, e.2.1, evBlock e.1, e.2.2, s.dev.clk.tick⟩)

/-- No burst holds a target port (R309). -/
def State.PortFree (s : State) (target : Nat) : Prop := ∀ h ∈ s.dev.sys.held, h.1 ≠ target

/-- A master of any trust whose access of n bytes at `off` is granted at once and reaches CSR space (R306, R309, R322, R337). -/
structure State.Open (s : State) (m : Master) (off n : Nat) : Prop where
  reaches : s.csrBarred m off n = none
  free    : s.PortFree 2

/-- A master whose accesses are secure now, and reach the word at `off` (R305, R306, R319, R322, R337). -/
structure State.Trusts (s : State) (m : Master) (off : Nat) : Prop where
  secure  : s.dev.secureOf s.otp m = true
  opens   : s.Open m off 4

/-- A master of any trust whose accesses reach the word at `off`. -/
def State.Reaches (s : State) (m : Master) (off : Nat) : Prop := s.Open m off 4

/-- A frame of the Twin link with sequence number `q` (R264): header, payload and CRC. -/
def twinBytes (unit q type tick : Nat) (payload : List Byte) : List Byte :=
  let body := leBytes 1 type ++ leBytes 1 unit ++ leBytes 2 payload.length ++ leBytes 4 q ++ leBytes 8 tick ++ payload
  body ++ leBytes 4 (crc32c body)

/-- The frame of a type that the unit sends next. -/
def Dev.twinFrame (d : Dev) (type tick : Nat) (payload : List Byte) : List Byte := twinBytes d.unitNo d.twn.fseq type tick payload

/-- Frames of the given type, tick and payload, numbered one after another from `q`. -/
def twinFrames (unit : Nat) : Nat → List (Nat × Nat × List Byte) → List Out
  | _, [] => []
  | q, p :: ps => .twin (twinBytes unit q p.1 p.2.1 p.2.2) :: twinFrames unit ((q + 1) % 2 ^ 32) ps

/-- The device once those frames, at least one, are sent. -/
def Dev.sentFrames (d : Dev) (ps : List (Nat × Nat × List Byte)) : Dev :=
  { d with
    out := d.out ++ twinFrames d.unitNo d.twn.fseq ps
    twn := { d.twn with fseq := (d.twn.fseq + ps.length) % 2 ^ 32 } }

/-- A content for the partner: its code and part, the tick, X and SEQ of its COMMIT, and its bytes (R270). -/
structure Content where
  content : Nat
  part    : Nat
  tick    : Nat
  x       : Nat
  seq     : Nat
  data    : List Byte
  deriving DecidableEq, Repr

/-- Its frames: the bytes in chunks of 8,192 at most, each with its offset, then the COMMIT (R270). -/
def Content.frames (c : Content) (now id : Nat) : List (Nat × Nat × List Byte) :=
  let head := leBytes 1 c.content ++ leBytes 1 c.part ++ leBytes 2 0 ++ leBytes 4 id
  (List.range ((c.data.length + 8191) / 8192)).map (fun i =>
    (5, now, head ++ leBytes 8 (8192 * i) ++ (c.data.drop (8192 * i)).take 8192)) ++
  [(6, now, head ++ leBytes 8 c.data.length ++ leBytes 4 (crc32c c.data) ++ leBytes 4 0 ++ leBytes 8 c.tick ++ leBytes 8 c.x ++ leBytes 8 c.seq)]

/-- The frames of contents one after another, each with a transfer identity of its own. -/
def contentFrames (now : Nat) : Nat → List Content → List (Nat × Nat × List Byte)
  | _, [] => []
  | id, c :: cs => c.frames now id ++ contentFrames now ((id + 1) % 2 ^ 32) cs

/-- The device once those contents, at least one, are sent whole. -/
def Dev.sentContents (d : Dev) (cs : List Content) : Dev :=
  let e := d.sentFrames (contentFrames d.clk.tick d.twn.xferId cs)
  { e with twn := { e.twn with xferId := (d.twn.xferId + cs.length) % 2 ^ 32 } }

/-- The command that brings a frame of the type. -/
def twinRx (type : Nat) (f : List Byte) : Instr :=
  match type with
  | 1 => .courierRx f
  | 2 => .gateBlockRx f
  | 3 => .sharedInputRx f
  | 4 => .ledgerEntryRx f
  | 5 => .snapshotChunkRx f
  | 6 => .commitRx f
  | _ => .compareRx f

/-- What a journal entry sends to the partner: its LEDGER_ENTRY frame, where there is one (R269, R276). -/
def Dev.ledgerFrame (d : Dev) (e : LEntry) : List Out :=
  if 2 ≤ d.twn.st ∧ d.twn.present = true then [.twin (d.twinFrame 4 d.clk.tick (padded4 e.bytes))] else []

/-- No abort stops jobs, and the writes of every job over have been made or lost (R146, R352). -/
structure Dev.Settled (d : Dev) : Prop where
  written : d.toSettle = []
  noAbort : d.pipe.abort = none
  noStop  : d.icx.stopping = []

/-- The events that join the queue together with those of a device reached on the way. -/
def NewEventsAfter (s : State) (e : Dev) (t : State) (es : List (Nat × Nat × Nat)) : Prop :=
  t.dev.evt.raised = s.dev.evt.raised ++ evSort (e.evt.fresh ++ es.map (fun x => ⟨x.1, x.2.1, evBlock x.1, x.2.2, s.dev.clk.tick⟩))

/-- The object state after a frame whose records are all sound was accepted at SYS_TICK: the pair (SOURCE_ID, SEQUENCE) joins
those of the last 3,000 ticks, and each record waits in the pending store for its apply tick (R56 to R58). -/
def Dev.objAfter (d : Dev) (f : List Byte) : Obj :=
  { d.obj with
    accepted := d.obj.accepted.filter (fun a => d.frameFresh a.2.2) ++ [(fWord f 8 2, fWord f 12 4, d.clk.tick)]
    frames := d.obj.frames + 1
    pending := d.obj.pending ++ (frameRecords f).map (fun p =>
      ⟨d.frameApply f, d.frameApply f, fWord f 8 2, fWord f 12 4, p.1, fByte f 24, p.2, d.obj.frames⟩) }

/-- Every record of the frame passes R57 with all its fields. -/
def Dev.SoundRecords (d : Dev) (f : List Byte) : Prop := ∀ p ∈ frameRecords f, d.checkRecord (fByte f 24) p.2 = (d, some p.2)

/-- The unit takes the frame: it is whole, of this type, next in sequence, and from the other unit, or the ROM waits for firmware
(R264, R265, R337). -/
structure Dev.Accepts (d : Dev) (type : Nat) (f : List Byte) (x : TFrame) : Prop where
  from_  : (d.twnOn = true ∧ x.unit ≠ d.unitNo) ∨ (d.twnOn = false ∧ d.sys.waitTwin = true)
  parsed : parseFrame f = some x
  kind   : x.type = type
  next   : d.twn.expect = some x.fseq

/-- A running Twin engine takes the frame: it is whole, of this type, from the other unit, and next in sequence (R264, R265). -/
structure Dev.Receives (d : Dev) (type : Nat) (f : List Byte) (x : TFrame) : Prop where
  on     : d.twnOn = true
  parsed : parseFrame f = some x
  kind   : x.type = type
  other  : x.unit ≠ d.unitNo
  next   : d.twn.expect = some x.fseq

/-- The Twin state after such a frame but for what the frame carries. -/
def Dev.heardSeq (d : Dev) (x : TFrame) : Twn := { d.twn with expect := some ((x.fseq + 1) % 2 ^ 32) }

/-- What a denied access of the master adds to the events: SEC_DENIED for the first in 3,000 ticks (R319). -/
def Dev.deniedEvents (d : Dev) (m : Master) (off : Nat) : List (Nat × Nat × Nat) :=
  let t := mget (fun _ => 0) d.evt.seen (48 + masterNo m)
  if t = 0 ∨ t + 3000 ≤ d.clk.tick + 1 then [(0x0101, 0, masterNo m * 2 ^ 24 + off / 4)] else []

/-- A write of a plan's records that reaches the OTP: one of SEC_PROG_CMD or SEC_REVOKE (R320). -/
def RWrite.burns : RWrite → Bool
  | .reg off _ | .field off _ _ => off == Off.SEC_PROG_CMD || off == Off.SEC_REVOKE_R
  | _ => false
def Rec.burns (r : Rec) : Bool := r.writes.any (fun w => w.burns)

/-- The images of which a command may perform a plan's records: the plan whose load waits for a register, and those that authenticate of
the flash, of what a LOAD reads from the host, and of what a COMMIT completes. -/
def State.PlanAtHand (s : State) (c : Instr) (b : List Byte) : Prop :=
  (s.dev.div.waiting ≠ none ∧ b = s.dev.div.plan) ∨
  (s.dev.authFail s.otp b = none ∧ ((∃ i < 16, s.flashImage i = some b) ∨ (∃ m, c = .load m (some b)) ∨
    ∃ f x, c = .commitRx f ∧ (s.dev.commitTake f).2 = some x ∧ x.data = b))

/-- The master of a command that is an access at an address of its own choosing, or a write of an OTP register. -/
def writer : Instr → Option Master
  | .registerWrite m _ _ _ => some m
  | .tableWindowWrite m _ _ => some m
  | .otpProgram m _ => some m
  | .secRevoke m _ => some m
  | .jtagAccess _ _ => some .debug
  | .spiTransaction _ _ => some .spi
  | _ => none

/-- What every step keeps: with any slot revoked some slot is still usable, each hash programmed is 48 bytes, their list is in
canonical form, and no event waits to join the queue. -/
structure State.Sound (s : State) : Prop where
  slots : s.otp.revoked = 0 ∨ ∃ i < 4, s.otp.usable s.otp.revoked i = true
  sizes : ∀ p ∈ s.otp.keys, p.2.length = 48
  keys  : mwf (fun _ => []) s.otp.keys = true
  fresh : s.dev.evt.fresh = []

/-- Every register word but these reads as before. -/
def SameRegsBut (offs : List Nat) (s t : State) : Prop := ∀ o, o ∉ offs → t.dev.rd o = s.dev.rd o

end Sys2Proof.Machine
end

