-- ==== Sys2Proof/Certificates/Slice0/Obligations.lean ====
section
/-! DEFINITION. The statements for the provers. Each says of some commands, in states that meet hypotheses on the state and the
operands alone, that they answer a next state and what that state holds; the rest are invariants and the laws of a step. -/

open Sys2Proof Sys2Proof.Machine

/-! ### The tick, rendering and the SYS block -/

/-- R8, R9: a boundary of an undisturbed clock advances SYS_TICK by exactly 1; the first boundary after local time becomes valid takes the
index of the first tick at or after it. Nothing beside the device changes. R14, R261: the render deadline of a compute tick passes once. A
unit whose Twin engine and District are off sends nothing. The model's own choices that it rests on: log entries 15, 16. -/
def Obligations.BoundaryAndDeadline : Prop :=
  (∀ (b : BoundaryIn) (s : State), s.Ready → s.dev.clk.valid = true → s.dev.ptp.stepTo = none → s.dev.sys.held = [] →
     s.dev.div.waiting = none →
     Completes (.tickBoundary b) s (fun t => Beside s t ∧
       t.dev.clk.tick = if s.dev.clk.started then s.dev.clk.tick + 1 else (s.dev.clk.time * 3000 / (secUnits : Nat)).ceil.toNat)) ∧
  (∀ s : State, s.Ready → s.dev.clk.valid = true → s.dev.clk.past = false → s.dev.twn.st = 0 → s.dev.dstOn = false →
     Completes .renderDeadline s (fun t => Beside s t ∧ t.dev.clk.past = true ∧ t.dev.clk.tick = s.dev.clk.tick ∧
       t.dev.out = s.dev.out ∧ t.dev.regs = s.dev.regs ∧ NewEvents s t []))

/-- R208: egress is lost when every port of a non-empty egress set has had LINK = 0 at EGRESS_TMO consecutive boundaries (0 used as 1); it
is raised once; it is restored after 3,000 boundaries with a link. R43: with ARM = 0 nothing else happens; with ARM = 1, RENDER_EN = 1 and
index 15 already queued at or after C+2, ARM clears, FIRED sets, DETOUR_FIRED names that activation and no second one is queued; where it is
not, an activation is queued at the earliest tick from C+2 on that has none, in the place the queue keeps for it, and no fullness of the
Ledger refuses it. R43: a write of 1 to ARM sets it only while index 15 is resident; a write of 0 clears it. The model's own choices that it
rests on: log entries 13, 149. -/
def Obligations.EgressLossAndDetour : Prop :=
  ((∀ s : State, s.Ready → s.dev.net.egressLost = false → s.dev.egressSet ≠ [] →
     (∀ e ∈ s.dev.egressSet, max 1 (s.dev.fld Off.NET_CTL 7 0) ≤ mget (fun _ => 0) s.dev.net.downRun e) →
     s.dev.bit Off.DIV_DETOUR_CFG 0 = false →
     Completes .egressLost s (fun t => Beside s t ∧ t.dev.net.egressLost = true ∧ t.dev.regs = s.dev.regs ∧
       t.dev.div = s.dev.div ∧ NewEvents s t [(0x0901, 0, portBits s.dev.egressSet % 2 ^ 32)])) ∧
   (∀ (s : State) (q : Act), s.Ready → s.dev.net.egressLost = false → s.dev.egressSet ≠ [] →
     (∀ e ∈ s.dev.egressSet, max 1 (s.dev.fld Off.NET_CTL 7 0) ≤ mget (fun _ => 0) s.dev.net.downRun e) →
     s.dev.bit Off.DIV_DETOUR_CFG 0 = true → s.dev.rendering = true →
     s.dev.div.queue.find? (fun a => a.index == 15 && decide (s.dev.clk.tick + 2 ≤ a.tick)) = some q →
     Completes .egressLost s (fun t => Beside s t ∧ t.dev.bit Off.DIV_DETOUR_CFG 0 = false ∧ t.dev.bit Off.DIV_DETOUR_CFG 31 = true ∧
       t.dev.div.queue = s.dev.div.queue ∧
       NewEvents s t [(0x0901, 0, portBits s.dev.egressSet % 2 ^ 32), (0x1005, 0, q.tick % 2 ^ 32)])) ∧
   (∀ (s : State) (a : Nat), s.Ready → s.dev.net.egressLost = false → s.dev.egressSet ≠ [] →
     (∀ e ∈ s.dev.egressSet, max 1 (s.dev.fld Off.NET_CTL 7 0) ≤ mget (fun _ => 0) s.dev.net.downRun e) →
     s.dev.bit Off.DIV_DETOUR_CFG 0 = true → s.dev.rendering = true → s.dev.isResident 15 = true → s.dev.primary = true →
     (∀ q ∈ s.dev.div.queue, q.index = 15 → q.tick < s.dev.clk.tick + 2) → s.dev.div.queue.length ≤ 9 →
     s.dev.clk.tick + 2 ≤ a → (∀ q ∈ s.dev.div.queue, q.tick ≠ a) →
     (∀ x, s.dev.clk.tick + 2 ≤ x → x < a → ∃ q ∈ s.dev.div.queue, q.tick = x) →
     (∀ e ∈ s.dev.twn.ledger, ¬ (e.ekind = 3 ∧ e.apply = a ∧ e.body = divBody 15 0)) →
     let e : LEntry := ⟨s.dev.twn.nextSeq, a, 3, s.dev.unitNo, 0, divBody 15 0, false, true⟩
     Completes .egressLost s (fun t => Beside s t ∧ t.dev.bit Off.DIV_DETOUR_CFG 0 = false ∧ t.dev.bit Off.DIV_DETOUR_CFG 31 = true ∧
       t.dev.div = { s.dev.div with queue := s.dev.div.queue ++ [⟨15, a, true⟩] } ∧
       t.dev.twn.ledger = s.dev.twn.ledger ++ [e] ∧ t.dev.out = s.dev.out ++ s.dev.ledgerFrame e ∧
       NewEvents s t [(0x0901, 0, portBits s.dev.egressSet % 2 ^ 32), (0x1005, 0, a % 2 ^ 32)])) ∧
   (∀ s : State, s.Ready → s.dev.net.egressLost = true →
     (∃ e ∈ netPorts, 3000 ≤ mget (fun _ => 0) s.dev.net.upRun e) →
     Completes .egressRestored s (fun t => Beside s t ∧ t.dev.net.egressLost = false ∧ t.dev.regs = s.dev.regs ∧
       t.dev.div = s.dev.div ∧ NewEvents s t [(0x0902, 0, portBits s.dev.egressSet % 2 ^ 32)]))) ∧
  (∀ (m : Master) (v : Bool) (s : State), s.Ready → s.Trusts m Off.DIV_DETOUR_CFG →
     Completes (.detourArm m v) s (fun t => Beside s t ∧ t.dev.bit Off.DIV_DETOUR_CFG 0 = (v && s.dev.isResident 15) ∧
       t.dev.bit Off.DIV_DETOUR_CFG 31 = s.dev.bit Off.DIV_DETOUR_CFG 31 ∧ t.dev.div = s.dev.div ∧
       SameRegsBut [Off.DIV_DETOUR_CFG] s t ∧ NewEvents s t []))

/-- R16, R32, R307, R334, R354: the writes of SYS_CTL by a master that is secure. RENDER_EN sets with a valid plan, and stays 0 without one;
clearing it while rendering starts a Closure that leaves RENDER_EN at 1; a soft reset is announced, cause 4; REMAP swaps the ROM and Steward
SRAM. The model's own choices that it rests on: log entries 130. -/
def Obligations.SysCtlWrites : Prop :=
  (∀ (m : Master) (s : State), s.Ready → s.Trusts m Off.SYS_CTL →
    Completes (.renderEnSet m) s (fun t => Beside s t ∧
      t.dev.rendering = (s.dev.rendering || s.dev.planValid) ∧ t.dev.bit Off.SYS_CTL 0 = s.dev.bit Off.SYS_CTL 0 ∧ NewEvents s t [])) ∧
  (∀ (m : Master) (s : State), s.Ready → s.Trusts m Off.SYS_CTL → s.dev.rendering = true →
    s.dev.pipe.closure = none →
    Completes (.renderEnClear m) s (fun t => Beside s t ∧ t.dev.rendering = true ∧ t.dev.pipe.closure = some 0 ∧
      t.dev.pipe.closAbort = false ∧ NewEvents s t [])) ∧
  (∀ (m : Master) (s : State), s.Ready → s.Trusts m Off.SYS_CTL → s.dev.sys.failing = [] → s.dev.twn.st = 0 →
    s.dev.claimNow = s.dev.effClaim →
    Completes (.softReset m) s (fun t => Beside s t ∧ t.dev.sys.failing = [4] ∧ t.dev.isUp = true)) ∧
  (∀ (m : Master) (v : Bool) (s : State), s.Ready → s.Trusts m Off.SYS_CTL →
    Completes (.remap m v) s (fun t => Beside s t ∧ t.dev.bit Off.SYS_CTL 0 = v ∧ NewEvents s t []))

/-! ### Accesses of the masters -/

/-- R6, R316: what a write leaves of a stored word, bit by bit. A bit of an RW field takes the bit written, a bit of an RWS field takes it
from a secure master only, a bit of a W1C field clears where a 1 is written, and every other bit keeps its value. -/
def Obligations.WriteMergesByAccessCode : Prop :=
  ∀ (r : RegRow) (secure : Bool) (old v : Word) (i : Nat), i < 32 →
    (∀ f ∈ r.fields, ∀ g ∈ r.fields, f.lo ≤ i → i ≤ f.hi → g.lo ≤ i → i ≤ g.hi → f = g) →
    (∀ f ∈ r.fields, f.lo ≤ f.hi ∧ f.hi < 32) →
    (r.merge secure old v).getLsbD i =
      match r.fields.find? (fun f => decide (f.lo ≤ i) && decide (i ≤ f.hi)) with
      | none => old.getLsbD i
      | some f => match f.acc with
        | .rw => v.getLsbD i
        | .rws => if secure then v.getLsbD i else old.getLsbD i
        | .w1c => old.getLsbD i && !v.getLsbD i
        | _ => old.getLsbD i

/-- R6, R11, R305, R322: a 32-bit write of a register whose words have no effect of their own (the blocks XBR, SQ, GEO and STR) by a secure
master, through JTAG as well: the word holds what its access codes take, one that takes effect at the boundary waits for it in the order of
completion, the established words stay, no other word changes, and the answer is no error. -/
def Obligations.PlainRegisterWrite : Prop :=
  ∀ (off : Nat) (v : Word) (s : State), s.Ready → off % 4 = 0 → off / 0x10000 ∈ [3, 5, 8, 9] → ∀ r : RegRow, regRow off = some r →
    ((∀ m : Master, s.Trusts m off →
      Completes (.registerWrite m off 4 v) s (fun t => Beside s t ∧ t.dev.rd off = r.merge true (s.dev.rd off) v ∧
        (∀ o, o ≠ off → t.dev.rd o = s.dev.rd o) ∧ t.dev.est = s.dev.est ∧ t.dev.tabW = s.dev.tabW ∧ t.dev.sdram = s.dev.sdram ∧
        t.dev.pendW = s.dev.pendW ++ (if r.late then [.reg off (r.merge true (s.dev.rd off) v)] else []) ∧
        t.dev.resp = ⟨false, []⟩ ∧ NewEvents s t [])) ∧
    (s.Trusts .debug off →
      Completes (.jtagAccess off (some v)) s (fun t => Beside s t ∧ t.dev.rd off = r.merge true (s.dev.rd off) v ∧
        (∀ o, o ≠ off → t.dev.rd o = s.dev.rd o) ∧ t.dev.resp = ⟨false, []⟩ ∧ NewEvents s t [])) ∧
    (s.Trusts .spi off →
      Completes (.spiTransaction ([2] ++ beBytes 4 off ++ beBytes 4 v.toNat) 0) s (fun t => Beside s t ∧
        t.dev.rd off = r.merge true (s.dev.rd off) v ∧ (∀ o, o ≠ off → t.dev.rd o = s.dev.rd o) ∧
        t.dev.resp = ⟨false, [0]⟩ ∧ NewEvents s t [])))

/-- R314: a sub-word write of a register, and an unaligned write, get an error response and change no register but the counts and the
capture of the crossbar. The model's own choices that it rests on: log entries 31, 32. -/
def Obligations.AccessErrorsChangeNothing : Prop :=
  (∀ (m : Master) (off size : Nat) (v : Word) (s : State), s.Ready → s.Open m off size →
    size = 1 ∨ size = 2 → off % size = 0 → off < 0x1000000 → inMailbox off = false →
    Completes (.registerWrite m off size v) s (fun t => Beside s t ∧ t.dev.resp.err = true ∧
      (∀ o, o ∉ [Off.XBR_ERR_INFO, Off.XBR_ERR_ADDR_LO, Off.XBR_ERR_ADDR_HI, Off.XBR_ACCESS_CNT] → t.dev.rd o = s.dev.rd o) ∧
      t.dev.est = s.dev.est ∧ t.dev.pendW = s.dev.pendW)) ∧
  (∀ (m : Master) (off size : Nat) (v : Word) (s : State), s.Ready → s.Open m off size →
    size = 2 ∨ size = 4 → off % size ≠ 0 → off < 0x1000000 →
    Completes (.registerWrite m off size v) s (fun t => Beside s t ∧ t.dev.resp.err = true ∧
      (∀ o, o ∉ [Off.XBR_ERR_INFO, Off.XBR_ERR_ADDR_LO, Off.XBR_ERR_ADDR_HI, Off.XBR_ACCESS_CNT] → t.dev.rd o = s.dev.rd o) ∧
      t.dev.est = s.dev.est ∧ t.dev.pendW = s.dev.pendW))

/-- R45, R66, R100 under R11: bytes written to a layout table are kept as written and wait, in completion order, for the boundary that
establishes them; the established copy and every register stay. The aperture of DIV_SDRAM_APER: bytes written land at BASE × 16 MiB plus the
offset in the aperture, every other byte of SDRAM reads as before, and no register but the channel's own status; an access that meets the
staging area or lies above populated SDRAM gets an error response and has no effect. -/
def Obligations.TableAndApertureWrites : Prop :=
  (∀ (m : Master) (off : Nat) (data : List Byte) (s : State), s.Ready → mwf (fun _ => 0) s.dev.tabW = true →
     data.length = 1 ∨ data.length = 2 ∨ data.length = 4 → off % data.length = 0 → 0x1200000 ≤ off → off + 4 ≤ 0x1400000 →
     s.Open m off data.length →
     Completes (.tableWindowWrite m off data) s (fun t => Beside s t ∧
       (∀ a, bget t.dev.tabW a = if off ≤ a ∧ a < off + data.length then data.getD (a - off) 0 else bget s.dev.tabW a) ∧
       t.dev.tabE = s.dev.tabE ∧ t.dev.regs = s.dev.regs ∧ t.dev.pendW = s.dev.pendW ++ [.tab off data] ∧ t.dev.resp.err = false)) ∧
  (∀ (m : Master) (off : Nat) (data : List Byte) (s : State), s.Ready → mwf (fun _ => 0) s.dev.sdram = true →
     data.length = 1 ∨ data.length = 2 ∨ data.length = 4 → off % data.length = 0 → 0x3000000 ≤ off → off + 4 ≤ 0x4000000 →
     s.Open m off data.length → s.dev.rcfGuardSdram (s.dev.aperAddr off) data.length = none →
     Completes (.tableWindowWrite m off data) s (fun t => Beside s t ∧
       if s.dev.aperAddr off + data.length ≤ s.dev.stagingBase then
         (∀ a, bget t.dev.sdram a =
           if s.dev.aperAddr off ≤ a ∧ a < s.dev.aperAddr off + data.length then data.getD (a - s.dev.aperAddr off) 0 else bget s.dev.sdram a) ∧
         (let c := granuleCh (s.dev.aperAddr off / 128)
          SameRegsBut [Off.DMC_STAT c, Off.DMC_PWR c, Off.DMC_THR c, Off.DMC_ECC_STAT c, Off.DMC_ECC_ADDR c] s t) ∧ t.dev.resp.err = false
       else t.dev.sdram = s.dev.sdram ∧ t.dev.resp.err = true))

/-- R6, R315: a 32-bit read by a secure master returns the readable bits of the word. Its RC fields then hold their reset value, its other
bits stay; a read of a low word latches the words that belong to it from the same instant. No other register changes. R6, R319: of a read by
a non-secure master the bits of secure-only fields (RWS, ROS) are 0, as write-only bits are for every master; a write by one of a register
all of whose fields are secure-only or read-only is ignored, without an error response; each such access counts once in SEC_DENIED_CNT, and
SEC_DENIED is raised for the first of the master in 3,000 ticks. The model's own choices that it rests on: log entries 31, 32, 219. -/
def Obligations.ReadsClearAndLatch : Prop :=
  (∀ (m : Master) (off : Nat) (r : RegRow) (s : State), s.Ready → mwf regReset s.dev.latch = true → s.Trusts m off → off % 4 = 0 →
     off < 0x1000000 → inMailbox off = false → off ≠ Off.WDN_MEM_DATA → regRow off = some r → isLatched off = false →
     s.dev.sys.badWords = [] →
     (Completes (.readClear m off) s (fun t => Beside s t ∧
       t.dev.resp = ⟨false, leBytes 4 ((s.dev.live s.otp off) &&& r.readable true).toNat⟩ ∧
       t.dev.rd off = (s.dev.rd off &&& ~~~ r.bits (fun a => a == .rc)) ||| (regReset off &&& r.bits (fun a => a == .rc)) ∧
       (∀ o, o ≠ off → t.dev.rd o = s.dev.rd o) ∧ NewEvents s t [])) ∧
     (Completes (.loReadLatch m off) s (fun t => Beside s t ∧
       t.dev.resp = ⟨false, leBytes 4 ((s.dev.live s.otp off) &&& r.readable true).toNat⟩ ∧
       (∀ h ∈ latches off, mget regReset t.dev.latch h = s.dev.live s.otp h) ∧
       (∀ h, h ∉ latches off → mget regReset t.dev.latch h = mget regReset s.dev.latch h) ∧
       (∀ o, o ≠ off → t.dev.rd o = s.dev.rd o) ∧ NewEvents s t [])) ∧
     (m = .debug → Completes (.jtagAccess off none) s (fun t => Beside s t ∧
       t.dev.resp = ⟨false, leBytes 4 ((s.dev.live s.otp off) &&& r.readable true).toNat⟩ ∧ NewEvents s t []))) ∧
  ((∀ (r : RegRow) (secure : Bool) (i : Nat), i < 32 →
     (∀ f ∈ r.fields, ∀ g ∈ r.fields, f.lo ≤ i → i ≤ f.hi → g.lo ≤ i → i ≤ g.hi → f = g) →
     (∀ f ∈ r.fields, f.lo ≤ f.hi ∧ f.hi < 32) →
     (r.readable secure).getLsbD i = match r.fields.find? (fun f => decide (f.lo ≤ i) && decide (i ≤ f.hi)) with
       | none => false
       | some f => match f.acc with
         | .rws | .ros => secure
         | .wo | .wos => false
         | _ => true) ∧
   (∀ (m : Master) (off : Nat) (r : RegRow) (s : State), s.Ready → s.dev.secureOf s.otp m = false → s.Open m off 4 → off % 4 = 0 →
     off < 0x1000000 → inMailbox off = false → regRow off = some r → r.denies = true → s.dev.sys.badWords = [] →
     let counted (t : State) := t.dev.fld Off.SEC_DENIED_CNT 31 0 = min (s.dev.fld Off.SEC_DENIED_CNT 31 0 + 1) (2 ^ 32 - 1) ∧
       NewEvents s t (s.dev.deniedEvents m off)
     (isLatched off = false → off ≠ Off.WDN_MEM_DATA → Completes (.readClear m off) s (fun t => Beside s t ∧
       t.dev.resp = ⟨false, leBytes 4 ((s.dev.live s.otp off) &&& r.readable false).toNat⟩ ∧
       SameRegsBut [off, Off.SEC_DENIED_CNT] s t ∧ counted t)) ∧
     ((∀ f ∈ r.fields, f.acc ∈ [.rws, .wos, .ros, .ro]) → ∀ v : Word, Completes (.registerWrite m off 4 v) s (fun t => Beside s t ∧
       SameRegsBut [Off.SEC_DENIED_CNT] s t ∧ t.dev.est = s.dev.est ∧ t.dev.pendW = s.dev.pendW ∧ t.dev.resp = ⟨false, []⟩ ∧ counted t))))

/-- R312: a TLP of at most 256 bytes that meets no 256-byte boundary becomes one burst of master 0 at its BAR0 offset, last in the queue of
waiting bursts; one that meets a 256-byte boundary becomes one for each part, in ascending order; a longer read than 512 bytes and a longer
write than 256 bring none. R306, R309: a write burst of one beat into Steward SRAM, the only one waiting, is granted and carried: its bytes
are stored and no other byte of Steward SRAM changes. R310, R364: PERST_N drops every waiting request of master 0 and keeps the others in
order; the PCIe endpoint and its link reset, with the MSI-X table. The model's own choices that it rests on: log entries 26 to 29, 205. -/
def Obligations.HostBursts : Prop :=
  ((∀ (off len : Nat) (s : State), s.Ready → 0 < len → off % 256 + len ≤ 256 →
     Completes (.pcieTlp (.memRead off len)) s (fun t => Beside s t ∧
       t.dev.sys.waiting = s.dev.sys.waiting ++ [⟨.pcie, 0x40000000 + off, len, none, []⟩] ∧ t.dev.regs = s.dev.regs ∧ NewEvents s t [])) ∧
   (∀ (off : Nat) (data : List Byte) (s : State), s.Ready → 0 < data.length → off % 256 + data.length ≤ 256 →
     Completes (.pcieTlp (.memWrite off data)) s (fun t => Beside s t ∧
       t.dev.sys.waiting = s.dev.sys.waiting ++ [⟨.pcie, 0x40000000 + off, data.length, some data, []⟩] ∧
       t.dev.regs = s.dev.regs ∧ NewEvents s t [])) ∧
   (∀ (off len : Nat) (s : State), s.Ready → len ≤ 512 →
     let k := 256 - off % 256
     let part (o n : Nat) : BurstIn := ⟨.pcie, 0x40000000 + o, n, none, []⟩
     k < len →
     Completes (.pcieTlp (.memRead off len)) s (fun t => Beside s t ∧
       t.dev.sys.waiting = s.dev.sys.waiting ++ (if len ≤ k + 256 then [part off k, part (off + k) (len - k)]
         else [part off k, part (off + k) 256, part (off + k + 256) (len - k - 256)]) ∧ t.dev.regs = s.dev.regs ∧ NewEvents s t [])) ∧
   (∀ (off : Nat) (data : List Byte) (s : State), s.Ready → data.length ≤ 256 → 256 - off % 256 < data.length →
     let k := 256 - off % 256
     Completes (.pcieTlp (.memWrite off data)) s (fun t => Beside s t ∧
       t.dev.sys.waiting = s.dev.sys.waiting ++ [⟨.pcie, 0x40000000 + off, k, some (data.take k), []⟩,
         ⟨.pcie, 0x40000000 + (off + k), data.length - k, some (data.drop k), []⟩] ∧ t.dev.regs = s.dev.regs ∧ NewEvents s t [])) ∧
   (∀ (off len : Nat) (s : State), s.Ready → 512 < len →
     Completes (.pcieTlp (.memRead off len)) s (fun t => Beside s t ∧ t.dev.sys.waiting = s.dev.sys.waiting ∧ t.dev.regs = s.dev.regs ∧
       NewEvents s t [])) ∧
   (∀ (off : Nat) (data : List Byte) (s : State), s.Ready → 256 < data.length →
     Completes (.pcieTlp (.memWrite off data)) s (fun t => Beside s t ∧ t.dev.sys.waiting = s.dev.sys.waiting ∧ t.dev.regs = s.dev.regs ∧
       NewEvents s t []))) ∧
  (∀ (machine : Bool) (addr : Nat) (w : List Byte) (s : State), s.Ready → mwf (fun _ => 0) s.dev.sram = true →
     s.dev.sys.waiting = [] → s.dev.sys.held = [] → s.dev.bit Off.SYS_CTL 0 = false → 0x100000 ≤ addr → addr < 0x200000 →
     0 < w.length → addr % 16 + w.length ≤ 16 →
     Completes (.crossbarGrant 1 [⟨.steward machine, addr, w.length, some w, []⟩]) s (fun t => Beside s t ∧
       (∀ a, bget t.dev.sram a = if addr - 0x100000 ≤ a ∧ a < addr - 0x100000 + w.length then w.getD (a - (addr - 0x100000)) 0
         else bget s.dev.sram a) ∧
       t.dev.sys.waiting = [] ∧ t.dev.sys.held = [] ∧ t.dev.resp = ⟨false, []⟩ ∧ t.dev.regs = s.dev.regs ∧ NewEvents s t [])) ∧
  (∀ s : State, s.Ready → (∀ h ∈ s.dev.sys.held, isHost h.2.req.master = false) →
     Completes .perstN s (fun t => Beside s t ∧ t.dev.sys.waiting = s.dev.sys.waiting.filter (fun b => !isHost b.master) ∧
       t.dev.sys.held = s.dev.sys.held ∧ t.dev.sys.pcieUp = false ∧ t.dev.evt.msixMask = [] ∧ t.dev.evt.msixPend = [] ∧
       t.dev.regs = s.dev.regs ∧ NewEvents s t []))

/-- R317, R318: a scan that finds a mismatched configuration word sets FAULT and IN_FORCE, keeps the address of the first, counts and raises
CFG_PARITY; a write of 1 to FAULT clears it and the count; the next clean scan ends IN_FORCE. The model's own choices that it rests on: log
entries 36. -/
def Obligations.ParityScanAndClear : Prop :=
  (∀ (w : Nat) (s : State), s.Ready → s.dev.sys.badWords = [] → isConfigWord w = true → w ≠ Off.SYS_PARITY_ACT →
    s.dev.fld Off.SYS_PARITY_ACT 1 0 ≠ 2 → s.dev.bit Off.SYS_PARITY_STAT 31 = false →
    Completes (.parityScan [w]) s (fun t => Beside s t ∧ t.dev.bit Off.SYS_PARITY_STAT 31 = true ∧ t.dev.bit Off.SYS_PARITY_STAT 30 = true ∧
      t.dev.rd Off.SYS_PARITY_ADDR = BitVec.ofNat 32 (w / 4) ∧
      t.dev.fld Off.SYS_PARITY_STAT 15 0 = min (s.dev.fld Off.SYS_PARITY_STAT 15 0 + 1) 65535 ∧
      t.dev.sys.badWords = [w] ∧ NewEvents s t [(0x0102, 0, w / 4 % 2 ^ 32)])) ∧
  (∀ (m : Master) (s : State), s.Ready → s.Trusts m Off.SYS_PARITY_STAT →
    Completes (.parityClear m) s (fun t => Beside s t ∧ t.dev.bit Off.SYS_PARITY_STAT 31 = false ∧ t.dev.fld Off.SYS_PARITY_STAT 15 0 = 0 ∧
      t.dev.bit Off.SYS_PARITY_STAT 30 = s.dev.bit Off.SYS_PARITY_STAT 30 ∧ t.dev.sys.scanDue = true)) ∧
  (∀ s : State, s.Ready → s.dev.sys.badWords = [] → s.dev.sys.scanDue = true → s.dev.bit Off.SYS_PARITY_STAT 31 = false →
    Completes (.parityScan []) s (fun t => Beside s t ∧ t.dev.bit Off.SYS_PARITY_STAT 30 = false ∧ t.dev.sys.scanDue = false))

/-- R320: GO of SEC_PROG_CMD by a secure master programs a key hash from SEC_PROG_DATA once and reports 1; on what is programmed it reports
2 and changes nothing. The fuses HOST_TRUST and DBG_DISABLE likewise: programmed once, and 2 without any change once blown. R320: SEC_REVOKE
by a secure master adds the slots named to those revoked, unless no usable slot would be left; the event tells which. From a non-secure
master it has no effect but to be counted as denied. The model's own choices that it rests on: log entries 136. -/
def Obligations.OtpAndRevocation : Prop :=
  (∀ (m : Master) (k : Nat) (s : State), s.Ready → s.Trusts m Off.SEC_PROG_CMD → k < 5 → mwf (fun _ => []) s.otp.keys = true →
     (s.otp.programmed k = false → Completes (.otpProgram m k) s (fun t => mget (fun _ => []) t.otp.keys k = s.dev.progData ∧
       (∀ j, j ≠ k → mget (fun _ => []) t.otp.keys j = mget (fun _ => []) s.otp.keys j) ∧ t.otp.revoked = s.otp.revoked ∧
       t.otp.hostTrust = s.otp.hostTrust ∧ t.dev.fld Off.SEC_PROG_CMD 30 28 = 1 ∧ t.flash = s.flash ∧ t.pending = s.pending)) ∧
     (s.otp.programmed k = true → Completes (.otpProgram m k) s (fun t => Beside s t ∧ t.dev.fld Off.SEC_PROG_CMD 30 28 = 2 ∧
        SameRegsBut [Off.SEC_PROG_CMD] s t ∧ NewEvents s t [])) ∧
     (s.otp.hostTrust = false → Completes (.otpProgram m 5) s (fun t => t.otp = { s.otp with hostTrust := true } ∧
       t.dev.fld Off.SEC_PROG_CMD 30 28 = 1)) ∧
     (s.otp.hostTrust = true → Completes (.otpProgram m 5) s (fun t => Beside s t ∧ t.dev.fld Off.SEC_PROG_CMD 30 28 = 2 ∧
        SameRegsBut [Off.SEC_PROG_CMD] s t ∧ NewEvents s t [])) ∧
     (s.otp.dbgDisable = false → Completes (.otpProgram m 6) s (fun t => t.otp = { s.otp with dbgDisable := true } ∧
       t.dev.fld Off.SEC_PROG_CMD 30 28 = 1)) ∧
     (s.otp.dbgDisable = true → Completes (.otpProgram m 6) s (fun t => Beside s t ∧ t.dev.fld Off.SEC_PROG_CMD 30 28 = 2 ∧
        SameRegsBut [Off.SEC_PROG_CMD] s t ∧ NewEvents s t []))) ∧
  (∀ (m : Master) (bits : Nat) (s : State), s.Ready → s.Reaches m Off.SEC_REVOKE_R → bits < 16 → bits ≠ 0 →
     (s.dev.secureOf s.otp m = true → (∃ i < 4, s.otp.usable (s.otp.revoked ||| BitVec.ofNat 4 bits) i = true) →
       Completes (.secRevoke m bits) s (fun t => t.otp = { s.otp with revoked := s.otp.revoked ||| BitVec.ofNat 4 bits } ∧
         NewEvents s t [(0x0103, 0, bits)])) ∧
     (s.dev.secureOf s.otp m = true → (∀ i < 4, s.otp.usable (s.otp.revoked ||| BitVec.ofNat 4 bits) i = false) →
       Completes (.secRevoke m bits) s (fun t => t.otp = s.otp ∧ NewEvents s t [(0x0103, 0, 256 + bits)])) ∧
     (s.dev.secureOf s.otp m = false → Completes (.secRevoke m bits) s (fun t => Beside s t ∧ SameRegsBut [Off.SEC_DENIED_CNT] s t ∧
       t.dev.fld Off.SEC_DENIED_CNT 31 0 = min (s.dev.fld Off.SEC_DENIED_CNT 31 0 + 1) (2 ^ 32 - 1) ∧
       NewEvents s t (s.dev.deniedEvents m Off.SEC_REVOKE_R))))

/-- R322: NEW_CHALLENGE takes a fresh nonce; SUBMIT without one fails, counts, and locks at the third failure; SUBMIT with the right
response opens the level, clears the count and spends the nonce; RELOCK closes it. The model's own choices that it rests on: log entries 3,
6, 137. -/
def Obligations.DebugUnlock : Prop :=
  ∀ (m : Master) (s : State), s.Ready → s.Trusts m Off.DBG_CMD → s.dev.sys.dbgLocked = false →
    (Completes (.newChallenge m) s (fun t => Beside s t ∧ t.dev.sys.nonce = some (Config.nonce s.dev.sys.nonces) ∧
      t.dev.sys.nonces = s.dev.sys.nonces + 1 ∧ t.dev.sys.dbgLevel = s.dev.sys.dbgLevel)) ∧
    (∀ level < 4, s.dev.sys.nonce = none → Completes (.submit m level) s (fun t => Beside s t ∧
      t.dev.sys.dbgLevel = s.dev.sys.dbgLevel ∧ t.dev.sys.dbgFails = s.dev.sys.dbgFails + 1 ∧
      t.dev.sys.dbgLocked = decide (3 ≤ s.dev.sys.dbgFails + 1) ∧ NewEvents s t [(0x0104, 0, level * 256)])) ∧
    (∀ (level : Nat) (n : BitVec 256), level = 1 ∨ level = 2 → s.dev.sys.nonce = some n → s.otp.dbgDisable = false →
      s.otp.programmed 4 = true → sha384 (s.dev.dbgResp.take 97) = mget (fun _ => []) s.otp.keys 4 →
      ecdsaVerify (s.dev.dbgResp.take 97) (sha384 (challenge s.otp level n)) (beNat ((s.dev.dbgResp.drop 100).take 48))
        (beNat ((s.dev.dbgResp.drop 148).take 48)) = true →
      Completes (.submit m level) s (fun t => Beside s t ∧ t.dev.sys.dbgLevel = level ∧ t.dev.sys.nonce = none ∧ t.dev.sys.dbgFails = 0 ∧
        NewEvents s t [(0x0104, 0, level * 256 + 1)])) ∧
    (Completes (.relock m) s (fun t => Beside s t ∧ t.dev.sys.dbgLevel = 0 ∧ t.dev.sys.nonce = s.dev.sys.nonce))



/-! ### Street Plans and Diversions -/

/-- R31, R394: GO with LOAD starts a load that stays BUSY until its result is posted. Without the image's bytes, and with a header that
fails, the result is FORMAT with FAIL_RECORD 0; a PLAN image while rendering is refused with RENDERING. None of these touches the resident
Diversions, the queue or PLAN_VALID. R31, R394: the result of a load or of a CHECK is posted with its FAIL_RECORD; every failure raises
IMAGE_REJECT, with status, source, kind and record in the parameter. Where no load is in progress there is nothing to post. The model's own
choices that it rests on: log entries 23, 24, 145, 168. -/
def Obligations.LoadRefusalsAndResults : Prop :=
  (∀ (m : Master) (img : Option (List Byte)) (s : State), s.Ready → s.Trusts m Off.DIV_IMG_CMD →
     ¬ (s.dev.sys.phase = 0 ∧ s.dev.sys.waitHost = true) → s.dev.fld Off.DIV_IMG_STAT 31 28 ≠ 1 →
     let b := if (s.dev.rd Off.DIV_IMG_ADDR_LO).toNat % 8 = 0 ∧ (img.getD []).length = (s.dev.rd Off.DIV_IMG_LEN).toNat then img.getD [] else []
     (imgKind b = 1 → s.dev.rendering = true →
       Completes (.load m img) s (fun t => Beside s t ∧ t.dev.fld Off.DIV_IMG_STAT 31 28 = 1 ∧
         t.dev.div = { s.dev.div with loading := some ⟨11, 0, 1, 1⟩ } ∧ t.dev.planValid = s.dev.planValid ∧ NewEvents s t [])) ∧
     (headerOk b = false → ¬ (imgKind b = 1 ∧ s.dev.rendering = true) →
       Completes (.load m img) s (fun t => Beside s t ∧ t.dev.fld Off.DIV_IMG_STAT 31 28 = 1 ∧
         t.dev.div = { s.dev.div with loading := some ⟨stFormat, 0, 1, imgKind b⟩ } ∧ t.dev.planValid = s.dev.planValid ∧ NewEvents s t []))) ∧
  ((∀ s : State, s.Ready → s.dev.div.loading = none → s.dev.div.waiting = none →
     Completes .loadDone s (fun t => Beside s t ∧ t.dev = s.dev)) ∧
   ∀ (r : LoadRes) (s : State), s.Ready → s.dev.div.loading = some r → r.status < 16 → r.source < 4 → r.kind < 4 → r.failRec < 2 ^ 20 →
     Completes .loadDone s (fun t => Beside s t ∧ t.dev.div = { s.dev.div with loading := none } ∧
       t.dev.fld Off.DIV_IMG_STAT 31 28 = r.status ∧ t.dev.fld Off.DIV_IMG_STAT 27 8 = r.failRec ∧
       t.dev.planValid = s.dev.planValid ∧ SameRegsBut [Off.DIV_IMG_STAT] s t ∧
       NewEvents s t (if r.status = 2 then [] else
         [(0x1002, 0, r.status * 2 ^ 28 + r.source * 2 ^ 26 + r.kind * 2 ^ 24 + r.failRec)])))

/-- R39: a DIVERSION image that passes the checks of steps 2 to 5, made for the plan in force at its rate, whose index is not queued, is
resident at its INDEX afterwards; no other index changes. The model's own choices that it rests on: log entries 6, 24, 138, 207. -/
def Obligations.DiversionLoads : Prop :=
  ∀ (m : Master) (b : List Byte) (s : State), s.Ready → s.Trusts m Off.DIV_IMG_CMD →
    ¬ (s.dev.sys.phase = 0 ∧ s.dev.sys.waitHost = true) → s.dev.fld Off.DIV_IMG_STAT 31 28 ≠ 1 → (s.dev.rd Off.DIV_IMG_ADDR_LO).toNat % 8 = 0 → b.length = (s.dev.rd Off.DIV_IMG_LEN).toNat →
    imgKind b = 2 → headerOk b = true → targetOk b = true → s.dev.authFail s.otp b = none → (s.dev.walkImage b).fail = none →
    s.dev.planValid = true → fWord b 32 8 = s.dev.planId → fWord b 20 4 / 2 % 2 = (if s.dev.div.rate96 then 1 else 0) →
    (∀ a ∈ s.dev.div.queue, a.index ≠ fByte b 7) → mwf (fun _ => []) s.dev.div.resident = true →
    Completes (.load m (some b)) s (fun t => Beside s t ∧ t.dev.div.loading = some ⟨2, 0, 1, 2⟩ ∧
      (∀ i, mget (fun _ => []) t.dev.div.resident i = if i = fByte b 7 then b else mget (fun _ => []) s.dev.div.resident i) ∧
      t.dev.div.queue = s.dev.div.queue ∧ t.dev.planValid = true ∧
      SameRegsBut [Off.DIV_IMG_CMD, Off.DIV_IMG_STAT, Off.DIV_STAT] s t ∧ NewEvents s t [])

/-- R33: CHECK is refused with RENDERING while RENDER_EN = 1, which leaves PLAN_VALID and plan state as they are and raises IMAGE_REJECT
with source 3; otherwise it ends with PLAN_VALID set where the capacity and budget checks pass. R39, R43: DISCARD removes the resident
Diversion of its index, which clears ARM when it is index 15; one that is queued for activation stays, with IN_USE. The model's own choices
that it rests on: log entries 24, 140. -/
def Obligations.CheckAndDiscard : Prop :=
  (∀ (m : Master) (s : State), s.Ready → s.Trusts m Off.DIV_IMG_CMD → s.dev.fld Off.DIV_IMG_STAT 31 28 ≠ 1 →
     (s.dev.rendering = true → Completes (.check m) s (fun t => Beside s t ∧ t.dev.fld Off.DIV_IMG_STAT 31 28 = 11 ∧
       t.dev.div = s.dev.div ∧ t.dev.planValid = s.dev.planValid ∧ SameRegsBut [Off.DIV_IMG_CMD, Off.DIV_IMG_STAT] s t ∧
       t.dev.est = s.dev.est ∧ t.dev.tabW = s.dev.tabW ∧ NewEvents s t [(0x1002, 0, 11 * 2 ^ 28 + 3 * 2 ^ 26)])) ∧
     (let d := Dev.setPlanValid (s.putReg true false Off.DIV_IMG_CMD (goBit ||| 1)).1.dev false
      s.dev.rendering = false →
       (d.capacityBad = true → Completes (.check m) s (fun t => Beside s t ∧ t.dev.fld Off.DIV_IMG_STAT 31 28 = 1 ∧
         t.dev.planValid = false ∧ t.dev.div.loading = some ⟨6, 0, 3, 0⟩ ∧ t.dev.tabW = [] ∧ t.dev.tabE = [] ∧ t.dev.rendering = false)) ∧
       (d.capacityBad = false → d.budgetCheck.2 = true → Completes (.check m) s (fun t => Beside s t ∧
         t.dev.fld Off.DIV_IMG_STAT 31 28 = 1 ∧ t.dev.planValid = true ∧ t.dev.div.loading = some ⟨2, 0, 3, 0⟩ ∧
         t.dev.tabW = s.dev.tabW ∧ t.dev.rendering = false)))) ∧
  (∀ (m : Master) (index : Nat) (s : State), s.Ready → s.Trusts m Off.DIV_IMG_CMD → s.dev.fld Off.DIV_IMG_STAT 31 28 ≠ 1 → index < 16 →
     ((∀ a ∈ s.dev.div.queue, a.index ≠ index) →
       Completes (.discard m index) s (fun t => Beside s t ∧ t.dev.isResident index = false ∧
         (∀ i, i ≠ index → t.dev.isResident i = s.dev.isResident i) ∧ t.dev.div.queue = s.dev.div.queue ∧
         t.dev.bit Off.DIV_DETOUR_CFG 0 = (s.dev.bit Off.DIV_DETOUR_CFG 0 && index != 15) ∧
         t.dev.fld Off.DIV_IMG_STAT 31 28 = 2 ∧
         SameRegsBut [Off.DIV_IMG_CMD, Off.DIV_IMG_STAT, Off.DIV_STAT, Off.DIV_DETOUR_CFG] s t ∧ NewEvents s t [])) ∧
     ((∃ a ∈ s.dev.div.queue, a.index = index) →
       Completes (.discard m index) s (fun t => Beside s t ∧ t.dev.div = s.dev.div ∧ t.dev.fld Off.DIV_IMG_STAT 31 28 = 12 ∧
         SameRegsBut [Off.DIV_IMG_CMD, Off.DIV_IMG_STAT] s t ∧ NewEvents s t [])))

/-- R40, R41, R276: an activation takes its place in the queue for apply tick A, 0 meaning SYS_TICK + 2, unless it is refused with
NOT_RESIDENT, LATE, CONFLICT or QUEUE_FULL, in that order, and without effect: on the Ledger's primary it is journalled with the next
sequence, on the other unit it is relayed. One already journalled for its index and tick is not journalled again, and 256 open entries
refuse it as QUEUE_FULL does. A cancel takes the activation of its index and tick out of the queue, or answers NOT_FOUND. The model's own
choices that it rests on: log entries 40, 56, 165, 166, 167, 208. -/
def Obligations.DiversionQueue : Prop :=
  ∀ (m : Master) (index : Nat) (s : State), s.Ready → s.Trusts m Off.DIV_APPLY_R → index < 16 →
    let a := if s.dev.divTick = 0 then s.dev.clk.tick + 2 else s.dev.divTick
    let full := 256 ≤ (s.dev.twn.ledger.filter (fun e => e.open_ s.dev.clk.tick)).length
    let journalled (op : Nat) := ∃ e ∈ s.dev.twn.ledger, e.ekind = 3 ∧ e.apply = a ∧ e.body = divBody index op
    let entry (op : Nat) : LEntry := ⟨s.dev.twn.nextSeq, a, 3, s.dev.unitNo, 0, divBody index op, false, true⟩
    let result (t : State) (r : Nat) (es : List (Nat × Nat × Nat)) := Beside s t ∧ t.dev.fld Off.DIV_STAT 31 28 = r ∧
      t.dev.fld Off.DIV_STAT 27 24 = index ∧
      SameRegsBut [Off.DIV_APPLY_R, Off.DIV_STAT, Off.TWN_LEDGER_SEQ_LO, Off.TWN_LEDGER_SEQ_HI] s t ∧ NewEvents s t es
    let refused (r : Nat) := Completes (.divApply m index) s (fun t => result t r [(0x1004, 0, r * 2 ^ 28 + index)] ∧
      t.dev.div = s.dev.div ∧ t.dev.twn = s.dev.twn)
    let relayed (c : Instr) (e : LEntry) := Completes c s (fun t => Beside s t ∧ t.dev.div = s.dev.div ∧
      t.dev.twn.relays = s.dev.twn.relays ++ [⟨s.dev.twn.rtag, 2, index, s.dev.nsNow⟩] ∧ t.dev.twn.ledger = s.dev.twn.ledger ∧
      t.dev.out = s.dev.out ++ s.dev.ledgerFrame e ∧ SameRegsBut [Off.DIV_APPLY_R] s t ∧ NewEvents s t [])
    (s.dev.isResident index = false → refused 6) ∧
    (s.dev.isResident index = true → a < s.dev.clk.tick + 2 → refused 4) ∧
    (s.dev.isResident index = true → s.dev.clk.tick + 2 ≤ a → (∃ q ∈ s.dev.div.queue, q.tick = a) → refused 5) ∧
    (s.dev.isResident index = true → s.dev.clk.tick + 2 ≤ a → (∀ q ∈ s.dev.div.queue, q.tick ≠ a) →
      8 ≤ (s.dev.div.queue.filter (fun q => !q.detour)).length → refused 7) ∧
    (s.dev.isResident index = true → s.dev.clk.tick + 2 ≤ a → (∀ q ∈ s.dev.div.queue, q.tick ≠ a) →
      (s.dev.div.queue.filter (fun q => !q.detour)).length < 8 →
      (s.dev.primary = true → ¬ journalled 0 → ¬ full → Completes (.divApply m index) s (fun t => result t 1 [] ∧
        t.dev.div = { s.dev.div with queue := s.dev.div.queue ++ [⟨index, a, false⟩] } ∧ t.dev.ledgerSeq = s.dev.twn.nextSeq % 2 ^ 64 ∧
        t.dev.twn.nextSeq = s.dev.twn.nextSeq + 1 ∧ t.dev.twn.ledger = s.dev.twn.ledger ++ [entry 0] ∧
        t.dev.out = s.dev.out ++ s.dev.ledgerFrame (entry 0))) ∧
      (s.dev.primary = true → ¬ journalled 0 → full → refused 7) ∧
      (s.dev.primary = true → journalled 0 → Completes (.divApply m index) s (fun t => Beside s t ∧ t.dev.div = s.dev.div ∧
        t.dev.twn = s.dev.twn ∧ SameRegsBut [Off.DIV_APPLY_R] s t ∧ NewEvents s t [])) ∧
      (s.dev.primary = false →
        relayed (.divApply m index) ⟨0, a, 3, s.dev.unitNo, s.dev.twn.rtag, divBody index 0, false, false⟩)) ∧
    (∀ q : Act, s.dev.div.queue.find? (fun q => q.index == index && q.tick == a) = some q →
      (s.dev.primary = true → ¬ journalled 1 → ¬ full → Completes (.divCancel m index) s (fun t => result t 3 [] ∧
        t.dev.div = { s.dev.div with queue := s.dev.div.queue.filter (fun x => x != q) } ∧
        t.dev.twn.nextSeq = s.dev.twn.nextSeq + 1 ∧ t.dev.twn.ledger = s.dev.twn.ledger ++ [entry 1] ∧
        t.dev.out = s.dev.out ++ s.dev.ledgerFrame (entry 1))) ∧
      (s.dev.primary = true → ¬ journalled 1 → full → Completes (.divCancel m index) s (fun t => result t 7 [] ∧
        t.dev.div = s.dev.div ∧ t.dev.twn = s.dev.twn)) ∧
      (s.dev.primary = false →
        relayed (.divCancel m index) ⟨0, a, 3, s.dev.unitNo, s.dev.twn.rtag, divBody index 1, false, false⟩)) ∧
    ((∀ q ∈ s.dev.div.queue, ¬ (q.index = index ∧ q.tick = a)) →
      Completes (.divCancel m index) s (fun t => result t 8 [] ∧ t.dev.div = s.dev.div ∧ t.dev.twn = s.dev.twn))



/-! ### Objects, metadata and Wardens -/

/-- R53, R56, R57, R58: a Kazeo datagram that is taken and passes every check waits, all its records sound, in the pending store. A datagram
is taken with the port's own 802.1Q tag, or none where the port has none. A frame that fails is discarded whole: META_FORMAT, META_CRC or
META_OVERFLOW with its route, reason and SOURCE_ID, and its whole records counted in OBJ_DROP_CNT; a duplicate counts in OBJ_DUP_CNT alone.
A datagram that is not taken changes nothing. R54, R251, R276, R277: MBOX_POST takes the first 36 + 48 × RECORD_COUNT bytes of the slot, at
most 8,192, through the checks of R56 and R57; OBJ_MBOX_STAT says what became of it. A frame whose records are all sound is journalled whole
by the Ledger's primary, for its apply tick or SYS_TICK + 2 if that is later, and relayed by the other unit; a full Ledger is shown as an
overflow. With MBOX_EN = 0 the post does nothing. The model's own choices that it rests on: log entries 39, 40, 41, 171, 173, 209, 212. -/
def Obligations.KazeoAndMailboxFrames : Prop :=
  (∀ (port ip udp : Nat) (vlan : Option Nat) (f : List Byte) (s : State), s.Ready → port < 4 →
     let c := Instr.kazeoUdpFrame port vlan ip udp f
     let taken := s.dev.tagTaken port vlan && s.dev.kazeoTaken port ip udp
     let dropped (e : Nat × Nat × Nat) := Completes c s (fun t => Beside s t ∧ t.dev.obj = s.dev.obj ∧
       (t.dev.rd Off.OBJ_DROP_CNT).toNat = min ((s.dev.rd Off.OBJ_DROP_CNT).toNat + (f.length - 36) / 48) (2 ^ 32 - 1) ∧
       SameRegsBut [Off.OBJ_DROP_CNT] s t ∧ NewEvents s t [e])
     (taken = false → Completes c s (fun t => Beside s t ∧ t.dev = s.dev)) ∧
     (taken = true → s.dev.checkFrame false f = .ok → s.dev.SoundRecords f →
       Completes c s (fun t => Beside s t ∧ t.dev = { s.dev with obj := s.dev.objAfter f })) ∧
     (taken = true → f.length < 36 ∨ f.length ≠ 36 + 48 * fWord f 10 2 →
       dropped (0x0402, 0, (2 ^ 24 + port * 2 ^ 16 + frameSrc f) % 2 ^ 32)) ∧
     (taken = true → ∀ r, s.dev.checkFrame false f = .format r →
       dropped (0x0402, 0, (r * 2 ^ 24 + port * 2 ^ 16 + frameSrc f) % 2 ^ 32)) ∧
     (taken = true → s.dev.checkFrame false f = .crc → dropped (0x0403, 0, (port * 2 ^ 16 + frameSrc f) % 2 ^ 32)) ∧
     (taken = true → s.dev.checkFrame false f = .overflow → dropped (0x0405, 0, (port * 2 ^ 16 + frameSrc f) % 2 ^ 32)) ∧
     (taken = true → s.dev.checkFrame false f = .duplicate →
       Completes c s (fun t => Beside s t ∧ t.dev.obj = s.dev.obj ∧
         (t.dev.rd Off.OBJ_DUP_CNT).toNat = min ((s.dev.rd Off.OBJ_DUP_CNT).toNat + 1) (2 ^ 32 - 1) ∧
         SameRegsBut [Off.OBJ_DUP_CNT] s t ∧ NewEvents s t []))) ∧
  (∀ (m : Master) (slot : Nat) (s : State), s.Ready → s.Trusts m Off.OBJ_MBOX_POST → slot < 8 →
     let n := 36 + 48 * leNat (getBytes s.dev.obj.mbox (0x070000 + 0x2000 * slot + 10) 2)
     let f := getBytes s.dev.obj.mbox (0x070000 + 0x2000 * slot) (min n 8192)
     let a := if fWord f 6 2 % 2 = 1 then s.dev.clk.tick + 2 else max (fWord f 16 8) (s.dev.clk.tick + 2)
     let body := reframe f (frameRecords f)
     let full := 256 ≤ (s.dev.twn.ledger.filter (fun e => e.open_ s.dev.clk.tick)).length
     let noted : Obj := { s.dev.obj with accepted := (s.dev.objAfter f).accepted }
     let posted (t : State) (r : Nat) := Beside s t ∧ t.dev.fld Off.OBJ_MBOX_STAT 31 28 = r ∧
       SameRegsBut [Off.OBJ_MBOX_POST, Off.OBJ_MBOX_STAT, Off.TWN_LEDGER_SEQ_LO, Off.TWN_LEDGER_SEQ_HI] s t ∧ NewEvents s t []
     (s.dev.bit Off.OBJ_CTL 1 = false → Completes (.mboxPost m slot) s (fun t => Beside s t ∧ t.dev.obj = s.dev.obj ∧
       SameRegsBut [Off.OBJ_MBOX_POST] s t ∧ NewEvents s t [])) ∧
     (s.dev.bit Off.OBJ_CTL 1 = true → s.dev.checkFrame false f = .ok → s.dev.SoundRecords f →
       (s.dev.primary = true → ¬ full →
         let e : LEntry := ⟨s.dev.twn.nextSeq, a, 2, s.dev.unitNo, 0, body, false, false⟩
         Completes (.mboxPost m slot) s (fun t => posted t 1 ∧ t.dev.obj = noted ∧ t.dev.twn.ledger = s.dev.twn.ledger ++ [e] ∧
           t.dev.twn.nextSeq = s.dev.twn.nextSeq + 1 ∧ t.dev.ledgerSeq = s.dev.twn.nextSeq % 2 ^ 64 ∧
           t.dev.out = s.dev.out ++ s.dev.ledgerFrame e)) ∧
       (s.dev.primary = true → full → Completes (.mboxPost m slot) s (fun t => posted t 5 ∧ t.dev.obj = s.dev.obj ∧ t.dev.twn = s.dev.twn)) ∧
       (s.dev.primary = false → Completes (.mboxPost m slot) s (fun t => posted t 1 ∧ t.dev.obj = noted ∧
         t.dev.twn.relays = s.dev.twn.relays ++ [⟨s.dev.twn.rtag, 1, slot, s.dev.nsNow⟩] ∧ t.dev.twn.ledger = s.dev.twn.ledger ∧
         t.dev.out = s.dev.out ++ s.dev.ledgerFrame ⟨0, a, 2, s.dev.unitNo, s.dev.twn.rtag, body, false, false⟩))) ∧
     (s.dev.bit Off.OBJ_CTL 1 = true → 8192 < n → Completes (.mboxPost m slot) s (fun t => Beside s t ∧ t.dev.obj = s.dev.obj ∧
       t.dev.fld Off.OBJ_MBOX_STAT 31 28 = 2 ∧
       SameRegsBut [Off.OBJ_MBOX_POST, Off.OBJ_MBOX_STAT, Off.OBJ_DROP_CNT] s t ∧
       NewEvents s t [(0x0402, 0, 2 ^ 24 + 4 * 2 ^ 16 + frameSrc f)])) ∧
     (s.dev.bit Off.OBJ_CTL 1 = true → s.dev.checkFrame false f = .duplicate →
       Completes (.mboxPost m slot) s (fun t => Beside s t ∧ t.dev.obj = s.dev.obj ∧ t.dev.fld Off.OBJ_MBOX_STAT 31 28 = 4 ∧
         SameRegsBut [Off.OBJ_MBOX_POST, Off.OBJ_MBOX_STAT, Off.OBJ_DUP_CNT] s t ∧ NewEvents s t [])))

/-- R55, R62: a COMMIT by an executing Warden while WDN_EN = 0 is refused with FORMAT; one that passes the checks, with the Warden's own
SOURCE_ID in bytes 8 and 9 and no CRC, is stored, and its result is OK, or LATE where it names a tick before N. The buffer taken is the one
last written; later writes to it go to the other. A Warden that is not executing commits nothing. What its program has done before stands.
R62, R63, R351: WFI and a fault end an activation, whose uncommitted buffer is discarded; a fault of an executing Warden sets its FAULT bit
and raises WARDEN_FAULT with the cause, OVERRUN, of an activation still running after boundary N + 1 has begun, being 1. A store to the
staging buffer just committed goes to the other. What the Warden's program has done before stands: a store to its data SRAM, a load of N, a
counter that reads 0 under DET. An access outside its map gets an error response and is cause 3. R62: a write of WDN_MEM_DATA by a secure
master stores the word in the instruction or data memory that WDN_MEM_ADDR names, and OFFSET advances by 4; a read returns the word there.
While the Warden has RUN set a write is ignored and a read returns 0. The model's own choices that it rests on: log entries 7, 22, 172, 174.
-/
def Obligations.Wardens : Prop :=
  (∀ (w len : Nat) (acts : List WardenAct) (s : State), s.Ready → w < 8 → mwf (fun _ => Warden.init) s.dev.obj.wardens = true →
     let e := s.dev.wardenRun w acts
     let x := e.warden w
     let buf := if x.cur = 0 then x.stage0 else x.stage1
     let raw := (buf ++ List.replicate (len - buf.length) 0).take len
     let f := if 10 ≤ raw.length then raw.take 8 ++ leBytes 2 (0xFFF8 + w) ++ raw.drop 10 else raw
     (s.dev.wdnBusy w = false → Completes (.commit w len []) s (fun t => Beside s t ∧ t.dev = s.dev)) ∧
     (e.wdnBusy w = true → e.bit Off.OBJ_CTL 2 = false → Completes (.commit w len acts) s (fun t => Beside s t ∧
       t.dev.warden w = { x with result := 1, sent := some x.cur } ∧
       t.dev.obj.pending = e.obj.pending ∧ t.dev.regs = e.regs ∧ t.dev.resp = e.resp ∧ NewEventsAfter s e t [])) ∧
     (e.wdnBusy w = true → e.bit Off.OBJ_CTL 2 = true → e.checkFrame true f = .ok → e.SoundRecords f →
       Completes (.commit w len acts) s (fun t => Beside s t ∧
         t.dev.warden w = { x with result := if fWord f 6 2 % 2 = 0 ∧ fWord f 16 8 < x.n then 3 else 0, sent := some x.cur } ∧
         t.dev.obj.pending = (e.objAfter f).pending ∧ (∀ v, v ≠ w → t.dev.warden v = e.warden v) ∧
         t.dev.regs = e.regs ∧ t.dev.resp = e.resp ∧ NewEventsAfter s e t []))) ∧
  (∀ (w : Nat) (acts : List WardenAct) (s : State), s.Ready → w < 8 → mwf (fun _ => Warden.init) s.dev.obj.wardens = true →
     let e := s.dev.wardenRun w acts
     let x := e.warden w
     let k := if x.sent = some x.cur then 1 - x.cur else x.cur
     let emptied (t : State) := t.dev.warden w = (if k = 0 then { x with stage0 := [] } else { x with stage1 := [] }) ∧
       (∀ v, v ≠ w → t.dev.warden v = e.warden v) ∧ (∀ o, o ≠ Off.WDN_STAT → t.dev.rd o = e.rd o) ∧ t.dev.resp = e.resp
     Completes (.wardenWfi w acts) s (fun t => Beside s t ∧ t.dev.wdnBusy w = false ∧ emptied t ∧ NewEventsAfter s e t []) ∧
     (e.wdnBusy w = true → s.dev.clk.tick ≤ x.n → Completes (.wardenOverrun w acts) s (fun t => Beside s t ∧ t.dev.wdnBusy w = true ∧
       t.dev.obj = e.obj ∧ t.dev.regs = e.regs ∧ NewEventsAfter s e t [])) ∧
     (e.wdnBusy w = true → x.n < s.dev.clk.tick → Completes (.wardenOverrun w acts) s (fun t => Beside s t ∧ t.dev.wdnBusy w = false ∧ emptied t ∧
       t.dev.bit Off.WDN_STAT (8 + w) = true ∧ NewEventsAfter s e t [(0x0406, w, 256 + w)])) ∧
     (∀ cause, 2 ≤ cause → cause ≤ 4 → e.wdnBusy w = true → Completes (.wardenFault w cause acts) s (fun t => Beside s t ∧
       t.dev.wdnBusy w = false ∧ emptied t ∧ t.dev.bit Off.WDN_STAT (8 + w) = true ∧
       NewEventsAfter s e t [(0x0406, w, cause * 256 + w)])) ∧
     (∀ act, acts = [act] → s.dev.wdnBusy w = true →
       (∀ a bs, act = .store a bs → mwf (fun _ => 0) (s.dev.warden w).dmem = true → 0x10000000 ≤ a → a + bs.length ≤ 0x10010000 →
         e.wdnBusy w = true ∧ e.resp.err = false ∧ (∀ i, bget (e.warden w).dmem i =
           if a - 0x10000000 ≤ i ∧ i < a - 0x10000000 + bs.length then bs.getD (i - (a - 0x10000000)) 0 else bget (s.dev.warden w).dmem i)) ∧
       (∀ a bs, act = .store a bs → 0x20000000 ≤ a → a + bs.length ≤ 0x20001000 →
         let y := s.dev.warden w
         e.wdnBusy w = true ∧ e.resp.err = false ∧ x = (if y.sent = some 0 then { y with stage1 := stagePut y.stage1 (a % 4096) bs, cur := 1 }
           else { y with stage0 := stagePut y.stage0 (a % 4096) bs, cur := 0 })) ∧
       (act = .load 0x20002008 8 → e.wdnBusy w = true ∧ e.resp = ⟨false, leBytes 8 (s.dev.warden w).n⟩) ∧
       (∀ k, act = .counter k → s.dev.bit Off.WDN_CTL (8 + w) = true → e.wdnBusy w = true ∧ e.resp = ⟨false, [0, 0, 0, 0]⟩) ∧
       (∀ a n, act = .load a n → 0x30020200 ≤ a → 0 < n → e.wdnBusy w = false ∧ e.resp = ⟨true, []⟩ ∧ e.bit Off.WDN_STAT (8 + w) = true ∧
         e.evt.fresh = [⟨0x0406, w, evBlock 0x0406, 3 * 256 + w, s.dev.clk.tick⟩]))) ∧
  (∀ (m : Master) (s : State), s.Ready → s.Trusts m Off.WDN_MEM_DATA → s.dev.sys.badWords.contains Off.WDN_MEM_DATA = false →
     let a := s.dev.rd Off.WDN_MEM_ADDR
     let w := getBits a 31 29
     let off := getBits a 15 0 / 4 * 4
     mwf (fun _ => Warden.init) s.dev.obj.wardens = true →
     mwf (fun _ => 0) (s.dev.warden w).imem = true → mwf (fun _ => 0) (s.dev.warden w).dmem = true →
     let mem (t : State) (data : Bool) := if data then (t.dev.warden w).dmem else (t.dev.warden w).imem
     (∀ v : Word, s.dev.bit Off.WDN_CTL w = false → Completes (.wdnMemAccess m (some v)) s (fun t => Beside s t ∧
       (∀ i, bget (mem t (a.getLsbD 28)) i =
         if off ≤ i ∧ i < off + 4 then (leBytes 4 v.toNat).getD (i - off) 0 else bget (mem s (a.getLsbD 28)) i) ∧
       mem t (!a.getLsbD 28) = mem s (!a.getLsbD 28) ∧
       t.dev.fld Off.WDN_MEM_ADDR 15 0 = (getBits a 15 0 + 4) % 65536 ∧ SameRegsBut [Off.WDN_MEM_ADDR] s t ∧ NewEvents s t [])) ∧
     (s.dev.bit Off.WDN_CTL w = false → Completes (.wdnMemAccess m none) s (fun t => Beside s t ∧
       t.dev.resp = ⟨false, getBytes (mem s (a.getLsbD 28)) off 4⟩ ∧ t.dev.obj = s.dev.obj ∧
       t.dev.fld Off.WDN_MEM_ADDR 15 0 = (getBits a 15 0 + 4) % 65536 ∧ SameRegsBut [Off.WDN_MEM_ADDR] s t ∧ NewEvents s t [])) ∧
     (∀ v : Word, s.dev.bit Off.WDN_CTL w = true → Completes (.wdnMemAccess m (some v)) s (fun t => Beside s t ∧ t.dev.obj = s.dev.obj ∧
       t.dev.fld Off.WDN_MEM_ADDR 15 0 = (getBits a 15 0 + 4) % 65536 ∧ NewEvents s t [])) ∧
     (s.dev.bit Off.WDN_CTL w = true → Completes (.wdnMemAccess m none) s (fun t => Beside s t ∧ t.dev.resp = ⟨false, [0, 0, 0, 0]⟩ ∧
       t.dev.obj = s.dev.obj ∧ t.dev.fld Off.WDN_MEM_ADDR 15 0 = (getBits a 15 0 + 4) % 65536 ∧ NewEvents s t [])))



/-! ### The Interchange -/

/-- R142, R143: a serving Square with an empty Kerb slot takes the job at the head of the list it takes from, and starts it at once when it
runs nothing. Of a SPLIT job it may take a part, the rest staying at the head of the list, while fewer than 512 are in flight. R145, R152,
R153: the first DONE of a job is granted and the job is WRITING; a DONE after a grant is refused with DUP_RESULT and counted, and of two in
one cycle the lower-numbered Square's is granted (R158); a FAULT of the job itself makes it FAULTED with JOB_FAULT; the report of a Square
whose writes are blocked has no effect, and a job that waits for a shared sample is not yet DONE (R274). The model's own choices that it
rests on: log entries 46, 48, 49, 160, 224. -/
def Obligations.KerbsAndCompletions : Prop :=
  (∀ (sq part l : Nat) (k : JobKey) (ks : List JobKey) (j : Job) (s : State), s.Ready → sq < 32 →
     mwf (fun _ => Square.init) s.dev.icx.squares = true → mwf (fun _ => []) s.dev.icx.ready = true →
     (s.dev.square sq).serving = true → (s.dev.square sq).kerb = none → s.dev.quarterGated (sq / 8) = false →
     s.dev.takeList (sq / 8) = some l → s.dev.readyList l = k :: ks → s.dev.job k = some j →
     let whole := ¬ (j.split = true ∧ 0 < part ∧ part < j.count ∧ s.dev.inFlight < 512)
     (whole → (s.dev.square sq).busy = true → Completes (.kerbPrefetch sq part) s (fun t => Beside s t ∧
       (t.dev.square sq).kerb = some k ∧ (t.dev.square sq).run = (s.dev.square sq).run ∧ t.dev.readyList l = ks ∧
       t.dev.job k = some { j with st := .kerb, lst := l } ∧ t.dev.regs = s.dev.regs ∧ NewEvents s t [])) ∧
     (whole → (s.dev.square sq).busy = false → Completes (.kerbPrefetch sq part) s (fun t => Beside s t ∧
       (t.dev.square sq).kerb = none ∧ (t.dev.square sq).run = some k ∧ t.dev.readyList l = ks ∧
       t.dev.job k = some { j with st := .running, lst := l, started := s.dev.clk.tick } ∧ t.dev.regs = s.dev.regs ∧ NewEvents s t [])) ∧
     (j.split = true → 0 < part → part < j.count → s.dev.inFlight < 512 → (s.dev.square sq).busy = true →
       s.dev.job { k with first := k.first + part } = none →
       Completes (.kerbPrefetch sq part) s (fun t => Beside s t ∧ (t.dev.square sq).kerb = some k ∧
         t.dev.readyList l = { k with first := k.first + part } :: ks ∧
         t.dev.job k = some { j with count := part, st := .kerb, lst := l } ∧
         t.dev.job { k with first := k.first + part } = some { j with key := { k with first := k.first + part }, count := j.count - part } ∧
         NewEvents s t []))) ∧
  (∀ (sq runNs : Nat) (k : JobKey) (j : Job) (s : State), s.Ready → sq < 32 → mwf (fun _ => Square.init) s.dev.icx.squares = true →
     s.dev.Settled → (s.dev.square sq).run = some k → s.dev.job k = some j →
     ((s.dev.square sq).blocked = true → ∀ status ue, Completes (.completionReport sq status ue runNs none) s (fun t => t.dev = s.dev ∧ Beside s t)) ∧
     let ready := ∀ i < j.count, s.dev.itemAwaits j (j.key.first + i) = false
     (¬ ready → s.dev.jobBad j = false → ∀ ue, Completes (.completionReport sq 0 ue runNs none) s (fun t => t.dev = s.dev ∧ Beside s t)) ∧
     ((s.dev.square sq).blocked = false → (s.dev.square sq).kerb = none → s.dev.jobBad j = false → ready → j.grant = none → j.st = .running →
       ∀ ue, Completes (.completionReport sq 0 ue runNs none) s (fun t => Beside s t ∧
         t.dev.job k = some { j with st := .writing, grant := some sq, everGranted := true, written := false } ∧
         (t.dev.square sq).run = none ∧ (∀ x, x ≠ k → t.dev.job x = s.dev.job x) ∧ t.dev.regs = s.dev.regs ∧ NewEvents s t [])) ∧
     ((s.dev.square sq).blocked = false → (s.dev.square sq).kerb = none → s.dev.jobBad j = false → ready → j.grant.isSome = true →
       ∀ ue, Completes (.completionReport sq 0 ue runNs none) s (fun t => Beside s t ∧ t.dev.icx.jobs = s.dev.icx.jobs ∧
         (t.dev.square sq).run = none ∧ SameRegsBut [Off.ICX_DUP_CNT] s t ∧
         (t.dev.rd Off.ICX_DUP_CNT).toNat = min ((s.dev.rd Off.ICX_DUP_CNT).toNat + 1) (2 ^ 32 - 1) ∧
         NewEvents s t [(0x0301, 0, (k.flow * 2 ^ 24 + k.sub * 2 ^ 16 + sq) % 2 ^ 32)])) ∧
     ((s.dev.square sq).blocked = false → (s.dev.square sq).kerb = none → j.st = .running → j.grant = none → s.dev.icx.held = [] →
       Completes (.completionReport sq 1 false runNs none) s (fun t => Beside s t ∧ t.dev.job k = some { j with st := .faulted } ∧
         (t.dev.square sq).run = none ∧ t.dev.regs = s.dev.regs ∧
         NewEvents s t [(0x0304, sq, (k.flow * 2 ^ 24 + k.sub * 2 ^ 16 + sq) % 2 ^ 32)])) ∧
     (∀ sq2 ns2, sq2 < 32 → sq2 ≠ sq → (s.dev.square sq2).run = some k → (s.dev.square sq).blocked = false → (s.dev.square sq2).blocked = false →
       (s.dev.square sq).kerb = none → (s.dev.square sq2).kerb = none → s.dev.jobBad j = false → ready → j.grant = none → j.st = .running →
       ∀ ue, Completes (.completionReport sq 0 ue runNs (some (sq2, ns2))) s (fun t => Beside s t ∧
         t.dev.job k = some { j with st := .writing, grant := some (min sq sq2), everGranted := true, written := false } ∧
         (t.dev.square sq).run = none ∧ (t.dev.square sq2).run = none ∧ SameRegsBut [Off.ICX_DUP_CNT] s t ∧
         NewEvents s t [(0x0301, 0, (k.flow * 2 ^ 24 + k.sub * 2 ^ 16 + max sq sq2) % 2 ^ 32)])))

/-- R146: a write-back that ends is noted, and nothing is released while an earlier sequence of its flow is not; when its own sequence is
the earliest and every part of it is written back, the sequence is released. R156, R158: ICX_CANCEL answers NO_SUCH for a template without
an instance in this tick and NOT_ACTIVE for one that runs or has run, and then changes nothing; otherwise the instance is retired and the
answer is CANCELLED, with CANCEL_RACE when a part became READY in this very cycle. R157: ICX_MIGRATE waits for the boundary and touches no
job. The model's own choices that it rests on: log entries 17, 50, 56. -/
def Obligations.WriteBackCancelMigrate : Prop :=
  (∀ (k : JobKey) (j : Job) (s : State), s.Ready → k.flow < 256 → s.dev.Settled → s.dev.icx.held = [] →
     s.dev.job k = some j → j.st = .writing → j.written = false →
     (∀ x ∈ s.dev.icx.jobs, ∀ y ∈ s.dev.icx.jobs, x.key = y.key → x = y) →
     ((∃ x ∈ s.dev.icx.jobs, x.key.flow = k.flow ∧ x.st.over = false ∧ x.written = false ∧
         (x.key.tick < k.tick ∨ (x.key.tick = k.tick ∧ x.key.sub < k.sub)) ∧ s.dev.firstSeq k.flow = some (x.key.tick, x.key.sub)) →
       Completes (.writeBackEnd k.flow k.tick k.sub k.first) s (fun t => Beside s t ∧
         t.dev.icx.jobs = s.dev.icx.jobs.map (fun x => if x.key = k then { x with written := true } else x) ∧
         t.dev.regs = s.dev.regs ∧ NewEvents s t [])) ∧
     (s.dev.firstSeq k.flow = some (k.tick, k.sub) →
       (∀ x ∈ s.dev.icx.jobs, x.key.flow = k.flow → x.key.tick = k.tick → x.key.sub = k.sub → x.key.first ≠ k.first →
         x.written = true ∨ x.st.over = true) →
       Completes (.writeBackEnd k.flow k.tick k.sub k.first) s (fun t => Beside s t ∧
         ∃ j', t.dev.job k = some j' ∧ j'.st = .released ∧ j'.written = true ∧ j'.ran = true))) ∧
  (∀ (m : Master) (template : Nat) (race : Bool) (s : State), s.Ready → s.Trusts m Off.ICX_CANCEL → s.Trusts m Off.ICX_MIGRATE →
     template < 4096 →
     (s.dev.Settled → s.dev.instanceOf template = [] →
       Completes (.cancel m template race) s (fun t => Beside s t ∧ t.dev.fld Off.ICX_CANCEL 30 28 = 3 ∧ t.dev.icx = s.dev.icx ∧
         SameRegsBut [Off.ICX_CANCEL] s t ∧ NewEvents s t [])) ∧
     (s.dev.Settled → (∃ j ∈ s.dev.instanceOf template, j.st = .running ∨ j.st = .writing ∨ j.st = .released ∨ j.st = .retired ∨ j.st = .faulted) →
       Completes (.cancel m template race) s (fun t => Beside s t ∧ t.dev.fld Off.ICX_CANCEL 30 28 = 2 ∧ t.dev.icx = s.dev.icx ∧
         SameRegsBut [Off.ICX_CANCEL] s t ∧ NewEvents s t [])) ∧
     (s.dev.instanceOf template ≠ [] →
       (∀ j ∈ s.dev.instanceOf template, j.st = .waiting ∨ j.st = .held ∨ j.st = .ready ∨ j.st = .kerb) →
       Completes (.cancel m template race) s (fun t => Beside s t ∧
         t.dev.fld Off.ICX_CANCEL 30 28 = 1 ∧ (∀ j ∈ t.dev.instanceOf template, j.st.over = true) ∧ t.dev.instanceOf template ≠ [] ∧
         (race = true → (∃ j ∈ s.dev.instanceOf template, j.st = .ready) →
           ⟨0x0302, 0, evBlock 0x0302, template, s.dev.clk.tick⟩ ∈ t.dev.evt.raised))) ∧
     (∀ quarter < 4, Completes (.migrate m template quarter) s (fun t => Beside s t ∧ t.dev.icx = s.dev.icx ∧
       t.dev.pendW = s.dev.pendW ++ [.migrate template quarter] ∧ t.dev.tabW = s.dev.tabW ∧ t.dev.tabE = s.dev.tabE ∧
       SameRegsBut [Off.ICX_MIGRATE] s t ∧ NewEvents s t [])))

/-- R150, R151: a Square is fenced at once by FENCE_SQUARE (cause 1), by an uncorrectable error (2), and by its watchdog (4) once a job has
run across SQ_WDOG.TICKS boundaries: its Kerb slot empties, its bit of ICX_FENCED sets and SQUARE_FENCED tells the cause. Its running job
goes back to the head of its list with ATTEMPT + 1. FENCE_QUARTER waits for the boundary. R151, R155: the Square that was serving is
replaced in the same cycle by the lowest idle spare of its own Quarter, or of any. R152, R154: CLEAR_SQUARE and CLEAR_QUARTER end a fence,
and the Square's known-answer test runs; on a Square that is not fenced they do nothing. From the second boundary after a fence every write
of the Square is blocked, and a grant it holds is withdrawn. The model's own choices that it rests on: log entries 48, 52, 55, 161. -/
def Obligations.FencesAndSpares : Prop :=
  (∀ (sq : Nat) (s : State), s.Ready → sq < 32 → mwf (fun _ => Square.init) s.dev.icx.squares = true →
     mwf (fun _ => []) s.dev.icx.ready = true → s.dev.Settled → (s.dev.square sq).fenced = false →
     let fenced (cause : Nat) (t : State) := Beside s t ∧ (t.dev.square sq).fenced = true ∧ (t.dev.square sq).kerb = none ∧
       (t.dev.square sq).run = (s.dev.square sq).run ∧ (t.dev.square sq).blocked = false ∧ t.dev.bit Off.ICX_FENCED sq = true ∧
       SameRegsBut [Off.ICX_FENCE, Off.ICX_FENCED, Off.ICX_SPARE_USE] s t ∧ NewEvents s t [(0x0303, sq, cause * 256 + sq)] ∧
       (∀ (k : JobKey) (j : Job), (s.dev.square sq).run = some k → (s.dev.square sq).kerb = none → s.dev.job k = some j → j.st = .running →
         s.dev.elsewhere k sq = false → j.attempt < 3 → (∀ x ∈ s.dev.icx.jobs, x.grant ≠ some sq) →
         t.dev.job k = some { j with st := .ready, attempt := j.attempt + 1, grant := none } ∧
         t.dev.readyList j.lst = k :: s.dev.readyList j.lst)
     (∀ m, s.Trusts m Off.ICX_FENCE → Completes (.fenceSquare m sq) s (fenced 1)) ∧
     Completes (.squareUe sq) s (fenced 2) ∧
     (0 < s.dev.fld (Off.SQ_WDOG sq) 3 0 → s.dev.fld (Off.SQ_WDOG sq) 3 0 ≤ (s.dev.square sq).crossed → (s.dev.square sq).run.isSome = true →
       Completes (.squareWatchdog sq) s (fenced 4)) ∧
     (∀ m q, s.Trusts m Off.ICX_FENCE → q < 4 → Completes (.fenceQuarter m q) s (fun t => Beside s t ∧ t.dev.icx = s.dev.icx ∧
       t.dev.pendW = s.dev.pendW ++ [.fenceQuarter q] ∧ SameRegsBut [Off.ICX_FENCE] s t ∧ NewEvents s t []))) ∧
  (∀ (sq p : Nat) (s : State), s.Ready → sq < 32 → mwf (fun _ => Square.init) s.dev.icx.squares = true →
     s.dev.icx.jobs = [] → (s.dev.square sq).serving = true → (s.dev.square sq).spare = false → s.dev.pickSpare sq = some p →
     p < 32 ∧ (s.dev.square p).idleSpare = true ∧
     (∀ i < 32, (s.dev.square i).idleSpare = true → (i / 8 = sq / 8 ∧ p / 8 = sq / 8 → p ≤ i) ∧ (i / 8 = sq / 8 → p / 8 = sq / 8)) ∧
     Completes (.squareUe sq) s (fun t => (t.dev.square p).inPlace = some sq ∧ (t.dev.square p).serving = true ∧
       t.dev.bit Off.ICX_SPARE_USE p = true ∧ (t.dev.square sq).serving = false ∧ Beside s t)) ∧
  (∀ (m : Master) (s : State), s.Ready → s.Trusts m Off.ICX_FENCE → mwf (fun _ => Square.init) s.dev.icx.squares = true → s.dev.Settled →
     let cleared (t : State) (i : Nat) := t.dev.square i = (if (s.dev.square i).fenced then
         { s.dev.square i with fenced := false, blocked := false, cleared := true, kat := .running } else s.dev.square i) ∧
       (t.dev.bit Off.ICX_FENCED i = (s.dev.bit Off.ICX_FENCED i && !(s.dev.square i).fenced))
     (∀ sq < 32, Completes (.clearSquare m sq) s (fun t => Beside s t ∧ cleared t sq ∧ (∀ i, i ≠ sq → t.dev.square i = s.dev.square i) ∧
       SameRegsBut [Off.ICX_FENCE, Off.ICX_FENCED] s t ∧ NewEvents s t [])) ∧
     (∀ q < 4, Completes (.clearQuarter m q) s (fun t => Beside s t ∧ (∀ i < 8, cleared t (8 * q + i)) ∧
       (∀ i, i / 8 ≠ q → t.dev.square i = s.dev.square i) ∧ SameRegsBut [Off.ICX_FENCE, Off.ICX_FENCED] s t ∧ NewEvents s t [])) ∧
     (∀ sq < 32, (s.dev.square sq).fenced = true → 2 ≤ (s.dev.square sq).fenceAge →
       Completes (.fenceWriteBlock sq) s (fun t => Beside s t ∧ t.dev.square sq = { s.dev.square sq with blocked := true } ∧
         (∀ j ∈ t.dev.icx.jobs, j.st = .writing → j.grant = some sq → j.written = true) ∧
         (∀ i, i ≠ sq → t.dev.square i = s.dev.square i) ∧ t.dev.regs = s.dev.regs ∧ NewEvents s t [])))



/-! ### Filters, biquads and the Roundabout -/

/-- R11, R122, R123: a SWAP that finds no crossfade running and none accepted waits for the boundary; one that does is refused with
SWAP_REFUSED, reason 1 or 2, and the write is ignored whole. At boundary A + K + 1 the crossfade ends and XFADING clears. R130: a write of
OUT_BQ_SEL loads the staging words with the established coefficients of the section it selects; GO copies the five staging words to that
section at the next boundary, and no coefficient changes before. The model's own choices that it rests on: log entries 14, 72. -/
def Obligations.SwapsAndBiquads : Prop :=
  (∀ (m : Master) (f : Nat) (v : Word) (s : State), s.Ready → s.Trusts m (Off.RCF_F_CTL f) → f < 512 →
     (s.dev.bit (Off.RCF_F_CTL f) 30 = false → s.dev.swapAccepted f = false →
       Completes (.swap m f v) s (fun t => Beside s t ∧ (∃ p, t.dev.pendW = s.dev.pendW ++ p ++ [.swap f (v ||| goBit)]) ∧
         t.dev.conv = s.dev.conv ∧ t.dev.activeBank f = s.dev.activeBank f ∧ t.dev.bit (Off.RCF_F_CTL f) 30 = false ∧
         t.dev.fld (Off.RCF_F_CTL f) 21 16 = getBits v 21 16 ∧ SameRegsBut [Off.RCF_F_CTL f] s t ∧ NewEvents s t [])) ∧
     (s.dev.bit (Off.RCF_F_CTL f) 30 = true →
       Completes (.swap m f v) s (fun t => Beside s t ∧ t.dev.pendW = s.dev.pendW ∧ t.dev.regs = s.dev.regs ∧
         t.dev.conv = s.dev.conv ∧ NewEvents s t [(0x0602, 0, 2 ^ 24 + f)])) ∧
     (s.dev.bit (Off.RCF_F_CTL f) 30 = false → s.dev.swapAccepted f = true →
       Completes (.swap m f v) s (fun t => Beside s t ∧ t.dev.pendW = s.dev.pendW ∧ t.dev.regs = s.dev.regs ∧
         t.dev.conv = s.dev.conv ∧ NewEvents s t [(0x0602, 0, 2 * 2 ^ 24 + f)])) ∧
     ((s.dev.bankFade f).2 ≠ 0 → (s.dev.bankFade f).1 + (s.dev.bankFade f).2 + 1 ≤ s.dev.clk.tick →
       mwf (fun _ => (0, 0)) s.dev.conv.fade = true →
       Completes (.bankSwapEnd f) s (fun t => Beside s t ∧ t.dev.bankFade f = (0, 0) ∧ t.dev.bit (Off.RCF_F_CTL f) 30 = false ∧
         t.dev.activeBank f = s.dev.activeBank f ∧ (∀ g, g ≠ f → t.dev.bankFade g = s.dev.bankFade g) ∧
         SameRegsBut [Off.RCF_F_CTL f] s t ∧ NewEvents s t []))) ∧
  (∀ (m : Master) (s : State), s.Ready →
     (∀ v : Word, s.Trusts m Off.OUT_BQ_SEL →
       Completes (.bqSelect m v) s (fun t => Beside s t ∧ t.dev.rd Off.OUT_BQ_SEL = v &&& 0x01FF000F ∧
         [t.dev.rd Off.OUT_BQ_B0, t.dev.rd Off.OUT_BQ_B1, t.dev.rd Off.OUT_BQ_B2, t.dev.rd Off.OUT_BQ_A1, t.dev.rd Off.OUT_BQ_A2] =
           (List.range 5).map (fun i => (s.dev.bqCoef (getBits v 24 16) (getBits v 3 0)).getD i 0) ∧
         t.dev.cond = s.dev.cond ∧ t.dev.pendW = s.dev.pendW ∧
         SameRegsBut [Off.OUT_BQ_SEL, Off.OUT_BQ_B0, Off.OUT_BQ_B1, Off.OUT_BQ_B2, Off.OUT_BQ_A1, Off.OUT_BQ_A2] s t ∧ NewEvents s t [])) ∧
     (s.Trusts m Off.OUT_BQ_CMT →
       Completes (.bqCommit m) s (fun t => Beside s t ∧ t.dev.pendW = s.dev.pendW ++
           [.bqCommit (s.dev.fld Off.OUT_BQ_SEL 24 16) (s.dev.fld Off.OUT_BQ_SEL 3 0)
             [s.dev.rd Off.OUT_BQ_B0, s.dev.rd Off.OUT_BQ_B1, s.dev.rd Off.OUT_BQ_B2, s.dev.rd Off.OUT_BQ_A1, s.dev.rd Off.OUT_BQ_A2]] ∧
         t.dev.cond = s.dev.cond ∧ t.dev.regs = s.dev.regs ∧ NewEvents s t [])))

/-- R167: GO of RBT_MOVE_CMD takes OLD, NEW and GAIN as they stand, and STATUS reads QUEUED; while a MOVE is QUEUED or BUSY it is ignored.
R165: a pending crosspoint that has examined Z candidates without a crossing steps: CUR_GAIN takes the target, TIMED_OUT sets, the step is
counted and ZC_TIMEOUT names the crosspoint. R171, R172: a channel locks on valid input whose ratio is from 0.25 to 4.0 and whose rate is
from 32 to 192 kHz, with ASRC_LOCK, and gives samples from the next tick on; the first of its group sets the ratio and the phase, which the
others share. A group that loses lock unlocks each of its channels, with ASRC_UNLOCK, from the next tick on. The model's own choices that it
rests on: log entries 13, 60, 178. -/
def Obligations.MovesTimeoutsAsrc : Prop :=
  (∀ (m : Master) (s : State), s.Ready → s.Trusts m Off.RBT_MOVE_CMD →
     (s.dev.fld Off.RBT_MOVE_CMD 30 28 ≠ 1 → s.dev.fld Off.RBT_MOVE_CMD 30 28 ≠ 2 →
       Completes (.move m) s (fun t => Beside s t ∧ t.dev.fld Off.RBT_MOVE_CMD 30 28 = 1 ∧ t.dev.rbt = s.dev.rbt ∧
         t.dev.pendW = s.dev.pendW ++
           [.move (s.dev.fld Off.RBT_MOVE_OLD 13 0) (s.dev.fld Off.RBT_MOVE_NEW 13 0) (s.dev.rd Off.RBT_MOVE_GAIN)] ∧
         SameRegsBut [Off.RBT_MOVE_CMD] s t ∧ NewEvents s t [])) ∧
     (s.dev.fld Off.RBT_MOVE_CMD 30 28 = 1 ∨ s.dev.fld Off.RBT_MOVE_CMD 30 28 = 2 →
       Completes (.move m) s (fun t => Beside s t ∧ t.dev.rbt = s.dev.rbt ∧ t.dev.pendW = s.dev.pendW ∧ t.dev.regs = s.dev.regs ∧
         NewEvents s t []))) ∧
  (∀ s : State, s.Ready →
     (∀ x < 16384, mwf (fun _ => Xp.init) s.dev.rbt.xp = true → (s.dev.xp x).pending = true → (s.dev.xp x).force = false →
       s.dev.zcLimit ≤ (s.dev.xp x).cand → s.dev.rbt.move = none →
       Completes (.zcTimeout x) s (fun t => Beside s t ∧ (t.dev.xp x).cur = (s.dev.xp x).target ∧ (t.dev.xp x).pending = false ∧
         (t.dev.xp x).timedOut = true ∧ (∀ y, y ≠ x → t.dev.xp y = s.dev.xp y) ∧
         (t.dev.rd Off.RBT_ZC_TMO_CNT).toNat = min ((s.dev.rd Off.RBT_ZC_TMO_CNT).toNat + 1) (2 ^ 32 - 1) ∧
         SameRegsBut [Off.RBT_ZC_TMO_CNT] s t ∧ NewEvents s t [(0x0701, 0, x)])) ∧
     (∀ c ratio, c < 64 → mwf (fun _ => Asrc.init) s.dev.rbt.asrc = true → s.dev.asrcEn c = true → s.dev.asrcInputOk c = true → s.dev.asrcValid c = true →
       (s.dev.asrcCh c).locked = false → 2 ^ 22 ≤ ratio → ratio ≤ 2 ^ 26 → 32000 * 2 ^ 24 ≤ ratio * s.dev.fs →
       ratio * s.dev.fs ≤ 192000 * 2 ^ 24 → mwf (fun _ => 0) s.dev.rbt.phase = true →
       let g := s.dev.asrcGroup c
       let n := (s.dev.clk.tick + 1) * s.dev.L
       let first := ∀ y < 64, ¬ ((s.dev.asrcCh y).locked = true ∧ s.dev.asrcGroup y = g)
       Completes (.asrcLock c ratio) s (fun t => Beside s t ∧ (t.dev.asrcCh c).locked = true ∧
         (first → (t.dev.asrcCh c).spans = ⟨n, none, ratio, n⟩ :: (s.dev.asrcCh c).spans ∧ t.dev.rd (Off.RBT_ASRC_RATIO g) = BitVec.ofNat 32 ratio ∧
           mget (fun _ => 0) t.dev.rbt.phase g = n) ∧
         (¬ first → (t.dev.asrcCh c).spans =
             ⟨n, none, (s.dev.rd (Off.RBT_ASRC_RATIO g)).toNat, mget (fun _ => 0) s.dev.rbt.phase g⟩ :: (s.dev.asrcCh c).spans ∧
           t.dev.rd (Off.RBT_ASRC_RATIO g) = s.dev.rd (Off.RBT_ASRC_RATIO g) ∧ t.dev.rbt.phase = s.dev.rbt.phase) ∧
         (∀ y, y ≠ c → t.dev.asrcCh y = s.dev.asrcCh y) ∧ t.dev.rd (Off.RBT_ASRC_STAT c) = 0x80000000 ∧
         SameRegsBut [Off.RBT_ASRC_STAT c, Off.RBT_ASRC_RATIO g] s t ∧ NewEvents s t [(0x0704, 0, g * 256 + c)])) ∧
     (∀ g cause c, g < 16 → cause < 4 → (cause = 1 → s.dev.asrcFails c = true) → mwf (fun _ => Asrc.init) s.dev.rbt.asrc = true → c < 64 → (s.dev.asrcCh c).locked = true →
       s.dev.asrcGroup c = g →
       Completes (.asrcUnlock g cause) s (fun t => Beside s t ∧
         (∀ y < 64, t.dev.asrcCh y = if (s.dev.asrcCh y).locked = true ∧ s.dev.asrcGroup y = g 
           then (s.dev.asrcCh y).shut ((s.dev.clk.tick + 1) * s.dev.L) else s.dev.asrcCh y) ∧
         t.dev.rd (Off.RBT_ASRC_STAT c) = 0 ∧ t.dev.rd (Off.RBT_ASRC_RATIO g) = 0 ∧
         NewEvents s t [(0x0705, 0, cause * 4096 + g * 256)])))



/-! ### Serial and AES3 ports -/

/-- R11, R177: PRT_CFG takes a word that asks for nothing refused, and it waits for the boundary; FORMAT 3 (reason 4), FORMAT 2 (reason 1),
slots narrower than words (3) and a BCLK above 49.152 MHz (2) leave the fields they concern at their previous values, with PORT_FORMAT; a
change away from TDM is taken also then. R182: a commit copies PRT_SMASK_PEND and reads BUSY, and is ignored while BUSY; at the start of the
frame that follows, in RUNNING for a commit made there, else the first of a silent start, the copy is the mask, PRT_SMASK_AT reads that
frame's index and BUSY clears. R187: the 256th correct frame in a row passes the link test, and the first error after a pass fails it. The
model's own choices that it rests on: log entries 82, 181. -/
def Obligations.PortConfigurationAndMasks : Prop :=
  (∀ (m : Master) (p : Nat) (v : Word) (s : State), s.Ready → s.Trusts m (Off.PRT_CFG p) → p < 16 → s.dev.sys.phase = 2 →
     let w := v &&& 0xFFFFFFF0
     let old := s.dev.rd (Off.PRT_CFG p)
     let fits (x : Word) := cfgBpf x * s.dev.fs ≤ 49152000
     let takes (x : Word) (es : List (Nat × Nat × Nat)) := Completes (.portConfigWrite m p v) s (fun t => Beside s t ∧
       t.dev.rd (Off.PRT_CFG p) = x ∧ t.dev.pendW = s.dev.pendW ++ [.reg (Off.PRT_CFG p) x] ∧ t.dev.net = s.dev.net ∧
       SameRegsBut [Off.PRT_CFG p] s t ∧ NewEvents s t es)
     (cfgFormat w ≤ 1 → cfgWlen w ≤ cfgSlotW w → fits w → takes w []) ∧
     (cfgFormat w = 3 → cfgWlen w ≤ cfgSlotW w → fits (keepBits w old 27 26) → takes (keepBits w old 27 26) [(0x0805, p, 4 * 256 + p)]) ∧
     (cfgFormat w = 2 → cfgWlen w ≤ cfgSlotW w → fits (keepBits w old 27 26) → takes (keepBits w old 27 26) [(0x0805, p, 256 + p)]) ∧
     (cfgFormat w ≤ 1 → cfgSlotW w < cfgWlen w → fits (keepBits w old 15 12) → takes (keepBits w old 15 12) [(0x0805, p, 3 * 256 + p)]) ∧
     (cfgFormat w ≤ 1 → cfgWlen w ≤ cfgSlotW w → ¬ fits w →
       let x := keepBits (keepBits (keepBits w old 30 30) old 20 16) old 15 12
       takes (if cfgFormat old = 2 then x else keepBits x old 27 26) [(0x0805, p, 2 * 256 + p)])) ∧
  (∀ (p : Nat) (s : State), s.Ready → p < 16 → mwf (fun _ => Port.init) s.dev.net.ports = true →
     (∀ m, s.Trusts m (Off.PRT_SMASK_COMMIT p) → s.dev.bit (Off.PRT_SMASK_COMMIT p) 30 = false →
       Completes (.smaskCommit m p) s (fun t => Beside s t ∧ (t.dev.port p).commit = some (s.dev.rd (Off.PRT_SMASK_PEND p)) ∧
         (t.dev.port p).mask = (s.dev.port p).mask ∧ t.dev.bit (Off.PRT_SMASK_COMMIT p) 30 = true ∧
         SameRegsBut [Off.PRT_SMASK_COMMIT p] s t ∧ NewEvents s t [])) ∧
     (∀ m, s.Trusts m (Off.PRT_SMASK_COMMIT p) → s.dev.bit (Off.PRT_SMASK_COMMIT p) 30 = true →
       Completes (.smaskCommit m p) s (fun t => Beside s t ∧ t.dev.net = s.dev.net ∧ t.dev.regs = s.dev.regs ∧ NewEvents s t [])) ∧
     (∀ w, (s.dev.port p).commit = some w → ((s.dev.port p).commitRun = true ∧ s.dev.portSt p = 3) ∨ (s.dev.portSt p = 1 ∧ (s.dev.port p).fresh = true) →
       Completes (.smaskApply p) s (fun t => Beside s t ∧ (t.dev.port p).mask = w ∧ (t.dev.port p).commit = none ∧
         t.dev.bit (Off.PRT_SMASK_COMMIT p) 30 = false ∧
         t.dev.rd (Off.PRT_SMASK_AT p) = BitVec.ofNat 32 (if cfgForeign (s.dev.re (Off.PRT_CFG p)) then (s.dev.port p).frames + 1
           else (s.dev.port p).next.getD (s.dev.nearestIndex 0)) ∧
         SameRegsBut [Off.PRT_SMASK_COMMIT p, Off.PRT_SMASK_AT p] s t ∧ NewEvents s t [])) ∧
     ((s.dev.port p).ltFail = false → 256 ≤ (s.dev.port p).ltRun → s.dev.bit (Off.PRT_STAT p) 26 = false →
       Completes (.linkTestDone p) s (fun t => Beside s t ∧ t.dev.bit (Off.PRT_STAT p) 26 = true ∧ t.dev.net = s.dev.net ∧
         SameRegsBut [Off.PRT_STAT p] s t ∧ NewEvents s t [(0x0809, p, 256 + p)])) ∧
     ((s.dev.port p).ltFail = true → Completes (.linkTestDone p) s (fun t => Beside s t ∧ (t.dev.port p).ltFail = false ∧
       t.dev.regs = s.dev.regs ∧ NewEvents s t [(0x0809, p, p)])))

/-- R180, R183: an ARMED Locked port takes each frame start: the first is mapped to the index of the nearest reference edge, later ones take
consecutive indices, and a correct frame, of BPF bit clocks and a period within 2 %, joins the run of correct frames; a frame start outside
the window raises PORT_ALIGN once per excursion. R181: a frame start more than half a period from the edge of its mapped index is a slip,
counted, with PORT_SLIP, in ARMED as well; a late one is mapped to the next index, an early one to the index that the frame before it has. A
STOPPED port takes no frame. The model's own choices that it rests on: log entries 84, 179. -/
def Obligations.SerialFrames : Prop :=
  ∀ (p : Nat) (f : SerialFrame) (s : State), s.Ready → p < 16 → mwf (fun _ => Port.init) s.dev.net.ports = true →
    let cfg := s.dev.re (Off.PRT_CFG p)
    let err := s.dev.frameErr f.errNs
    (s.dev.portSt p = 0 → Completes (.serialFrame p f) s (fun t => Beside s t ∧ t.dev = s.dev)) ∧
    (s.dev.portSt p = 1 → cfgForeign cfg = false → frameStarts f cfg ≠ [] → frameBclkOk f cfg = true → framePeriodOk f s.dev.fs = true →
      (s.dev.port p).astray = false → (s.dev.port p).atDue = false →
      let win : Int := (10 * max 1 (s.dev.fld Off.PRT_FCLK_CTL 15 8) : Nat)
      let rest := s.dev.frameRest f.errNs
      let shown := ((err + 5) / 10).toNat
      (err ≤ win → -win ≤ err → (s.dev.port p).next = none → (s.dev.port p).top ≤ s.dev.nearestIndex f.errNs →
        Completes (.serialFrame p f) s (fun t => Beside s t ∧ (t.dev.port p).next = some (s.dev.nearestIndex f.errNs + 1) ∧
          (t.dev.port p).good = (s.dev.port p).good + 1 ∧ t.dev.portSt p = 1 ∧ t.dev.bit (Off.PRT_STAT p) 27 = true ∧
          t.dev.bit (Off.PRT_STAT p) 28 = true ∧ (∀ q, q ≠ p → t.dev.port q = s.dev.port q) ∧
          SameRegsBut [Off.PRT_STAT p] s t ∧ NewEvents s t [])) ∧
      (win < err → 2 * err * s.dev.fs ≤ 1000000000 → ∀ n, (s.dev.port p).next = some n → (s.dev.port p).top ≤ n →
        Completes (.serialFrame p f) s (fun t => Beside s t ∧ (t.dev.port p).next = some (n + 1) ∧ (t.dev.port p).astray = true ∧
          t.dev.bit (Off.PRT_STAT p) 27 = false ∧ t.dev.fld (Off.PRT_STAT p) 15 0 = shown ∧
          SameRegsBut [Off.PRT_STAT p] s t ∧ NewEvents s t [(0x0801, p, shown * 65536 + p)])) ∧
      (1000000000 < 2 * err * s.dev.fs → 2 * err * s.dev.fs < 3000000000 → -win ≤ rest → rest ≤ win → s.dev.coherent (cfgGroup cfg) = false →
        ∀ n, (s.dev.port p).next = some n → (s.dev.port p).top ≤ n →
        Completes (.serialFrame p f) s (fun t => Beside s t ∧ (t.dev.port p).next = some (n + 2) ∧ (t.dev.port p).good = 0 ∧
          (t.dev.rd (Off.PRT_SLIP_CNT p)).toNat = min ((s.dev.rd (Off.PRT_SLIP_CNT p)).toNat + 1) (2 ^ 32 - 1) ∧
          SameRegsBut [Off.PRT_STAT p, Off.PRT_SLIP_CNT p] s t ∧ NewEvents s t [(0x0802, p, 2 ^ 24 + 2 * 2 ^ 16 + p)])) ∧
      (2 * err * s.dev.fs < -1000000000 → -3000000000 < 2 * err * s.dev.fs → -win ≤ rest → rest ≤ win → s.dev.coherent (cfgGroup cfg) = false →
        ∀ n, (s.dev.port p).next = some (n + 1) →
        Completes (.serialFrame p f) s (fun t => Beside s t ∧ (t.dev.port p).next = some (n + 1) ∧ (t.dev.port p).good = 0 ∧
          (t.dev.rd (Off.PRT_SLIP_CNT p)).toNat = min ((s.dev.rd (Off.PRT_SLIP_CNT p)).toNat + 1) (2 ^ 32 - 1) ∧
          SameRegsBut [Off.PRT_STAT p, Off.PRT_SLIP_CNT p] s t ∧ NewEvents s t [(0x0802, p, 2 ^ 24 + 2 ^ 16 + p)])))

/-- R183: an ARMED port unmutes after 64 consecutive correct frames; a channel that has waited 256 frames begins its one-tick ramp. R184: a
clock fault mutes a port that is not STOPPED at once, returns it to ARMED and raises PORT_CLOCK; a frame start that does not come is one at
once, any other from the second incorrect frame in a row on. R179: after eight samples in a row without an FCLK edge near enough the
internal instant is the reference, FCLK_OK is 0 and PORT_CLOCK is raised with port 0x1F and cause 4, once; after 64 good edges in a row FCLK
is selected again. With SRC 1 the internal instant stays. The model's own choices that it rests on: log entries 13, 87, 179, 223. -/
def Obligations.PortStatesAndFclk : Prop :=
  (∀ (p : Nat) (s : State), s.Ready → p < 16 → mwf (fun _ => Port.init) s.dev.net.ports = true →
     (s.dev.portSt p = 1 → cfgEn (s.dev.re (Off.PRT_CFG p)) = true → 64 ≤ (s.dev.port p).good → cfgLink (s.dev.re (Off.PRT_CFG p)) = false → (s.dev.port p).mask.getLsbD 0 = true →
       Completes (.portUnmuteStart p) s (fun t => Beside s t ∧ t.dev.portSt p = 2 ∧ (t.dev.port p).ins = [] ∧ (t.dev.port p).outs = [] ∧
         SameRegsBut [Off.PRT_STAT p] s t ∧ NewEvents s t [])) ∧
     (Completes (.unmuteTimeout p) s (fun t => Beside s t ∧ t.dev.regs = s.dev.regs ∧ NewEvents s t [] ∧
         (t.dev.port p).ins = (s.dev.port p).ins.map (fun e =>
           (e.1, if 256 ≤ e.2.waited ∧ e.2.ramp = none then { e.2 with ramp := some 0, waited := 0 } else e.2)) ∧
         (t.dev.port p).outs = (s.dev.port p).outs.map (fun e =>
           (e.1, if 256 ≤ e.2.waited ∧ e.2.ramp = none then { e.2 with ramp := some 0, waited := 0 } else e.2)))) ∧
     (∀ cause < 4, 1 ≤ s.dev.portSt p → cause = 1 ∨ 2 ≤ (s.dev.port p).bad → cfgForeign (s.dev.re (Off.PRT_CFG p)) = true →
       Completes (.portClockFault p cause) s (fun t => Beside s t ∧
         t.dev.portSt p = 1 ∧ (t.dev.port p).ins = [] ∧ (t.dev.port p).outs = [] ∧
         (t.dev.port p).good = 0 ∧ (t.dev.port p).next = none ∧ t.dev.fld (Off.PRT_STAT p) 28 26 = 0 ∧
         SameRegsBut [Off.PRT_STAT p] s t ∧ NewEvents s t [(0x0804, p, cause * 256 + p)]))) ∧
  (∀ (es : List (Option Int)) (s : State), s.Ready →
     let near (e : Option Int) := ∃ o : Int, e = some o ∧ o.natAbs ≤ 1000
     (es ≠ [] → (∀ e ∈ es, ¬ near e) → 8 ≤ s.dev.net.fclkMiss + es.length →
       (s.dev.bit Off.PRT_FCLK_CTL 0 = false → s.dev.bit Off.PRT_FCLK_STAT 30 = false →
         Completes (.fclkLost es) s (fun t => Beside s t ∧ t.dev.bit Off.PRT_FCLK_STAT 31 = false ∧ t.dev.bit Off.PRT_FCLK_STAT 30 = true ∧
           t.dev.net.fclkMiss = s.dev.net.fclkMiss + es.length ∧ t.dev.net.fclkGood = 0 ∧ SameRegsBut [Off.PRT_FCLK_STAT] s t ∧
           NewEvents s t [(0x0804, 0x1F, 0x41F)])) ∧
       (s.dev.bit Off.PRT_FCLK_CTL 0 = true → Completes (.fclkLost es) s (fun t => Beside s t ∧ t.dev.bit Off.PRT_FCLK_STAT 31 = false ∧
         t.dev.bit Off.PRT_FCLK_STAT 30 = s.dev.bit Off.PRT_FCLK_STAT 30 ∧ SameRegsBut [Off.PRT_FCLK_STAT] s t ∧ NewEvents s t []))) ∧
     (es ≠ [] → (∀ e ∈ es, near e) → 64 ≤ s.dev.net.fclkGood + es.length →
       Completes (.fclkRestored es) s (fun t => Beside s t ∧ t.dev.bit Off.PRT_FCLK_STAT 31 = true ∧
         t.dev.bit Off.PRT_FCLK_STAT 30 = (s.dev.bit Off.PRT_FCLK_CTL 0 && s.dev.bit Off.PRT_FCLK_STAT 30) ∧
         t.dev.net.fclkMiss = 0 ∧ t.dev.net.fclkGood = s.dev.net.fclkGood + es.length ∧
         (∀ o : Int, es.getLast? = some (some o) → t.dev.fld Off.PRT_FCLK_STAT 15 0 = (o % 65536).toNat) ∧
         SameRegsBut [Off.PRT_FCLK_STAT] s t ∧ NewEvents s t [])))

/-- R188, R190: an enabled receiver counts each frame and each subframe whose parity fails, and takes up the error-free run, which parity, a
biphase and a preamble error end; it locks at 32 to 192 kHz after two Z preambles 192 error-free frames apart, with AES3_LOCK, and unlocks
with AES3_UNLOCK once eight frames in a row were in error or absent. R189: a completed channel-status block of the professional form whose
CRCC is wrong is not stored: STALE sets and AES3_CRCC is raised; one of the other form replaces the CS window, raises CS_SEQ and clears
STALE (subframe A). R191: CS_GO stages the set, which is live from the next Z frame (here without CRCC_GEN). The model's own choices that it
rests on: log entries 86, 184, 222. -/
def Obligations.Aes3 : Prop :=
  (∀ (r : Nat) (s : State), s.Ready → r < 8 → mwf (fun _ => AesRx.init) s.dev.net.aesRx = true →
     (∀ z a b, s.dev.bit (Off.AES_RX_CFG r) 31 = true →
       Completes (.aes3Frame r z a b) s (fun t => Beside s t ∧ (t.dev.aesRx r).frames = (s.dev.aesRx r).frames + 1 ∧
         (t.dev.rd (Off.AES_RX_ERR r)).toNat =
           min ((s.dev.rd (Off.AES_RX_ERR r)).toNat + (if subParityOk a then 0 else 1) + (if subParityOk b then 0 else 1)) (2 ^ 32 - 1) ∧
         (t.dev.aesRx r).bad = (if subOk a && subOk b then 0 else (s.dev.aesRx r).bad + 1) ∧
         (t.dev.aesRx r).ready = (subOk a && subOk b &&
           ((s.dev.aesRx r).ready || (z && (s.dev.aesRx r).sinceZ == 192 && (s.dev.aesRx r).clean))) ∧
         (∀ q, q ≠ r → t.dev.aesRx q = s.dev.aesRx q) ∧ SameRegsBut [Off.AES_RX_ERR r] s t ∧ NewEvents s t [])) ∧
     (∀ rate, s.dev.bit (Off.AES_RX_CFG r) 31 = true → s.dev.bit (Off.AES_RX_STAT r) 31 = false → (s.dev.aesRx r).ready = true →
       32000 ≤ rate → rate ≤ 192000 →
       Completes (.aes3Lock r rate) s (fun t => Beside s t ∧ t.dev.bit (Off.AES_RX_STAT r) 31 = true ∧
         t.dev.rd (Off.AES_RX_RATE r) = BitVec.ofNat 32 rate ∧ t.dev.net = s.dev.net ∧
         SameRegsBut [Off.AES_RX_STAT r, Off.AES_RX_RATE r] s t ∧ NewEvents s t [(0x0806, r, r)])) ∧
     (∀ absent, s.dev.bit (Off.AES_RX_STAT r) 31 = true → 8 ≤ (s.dev.aesRx r).bad + absent →
       Completes (.aes3Unlock r absent) s (fun t => Beside s t ∧ t.dev.bit (Off.AES_RX_STAT r) 31 = false ∧ t.dev.rd (Off.AES_RX_RATE r) = 0 ∧
         (t.dev.aesRx r).ready = false ∧ SameRegsBut [Off.AES_RX_STAT r, Off.AES_RX_RATE r] s t ∧ NewEvents s t [(0x0807, r, r)]))) ∧
  (∀ (i : Nat) (s : State), s.Ready → i < 8 → mwf (fun _ => AesRx.init) s.dev.net.aesRx = true → mwf (fun _ => AesTx.init) s.dev.net.aesTx = true →
     (∀ x : List Bool × List Bool, (s.dev.aesRx i).doneA = some x →
       let cb := bitBytes 24 x.1
       (cb.getD 0 0 % 2 = 1 → crcc (cb.take 23) ≠ cb.getD 23 0 →
         Completes (.aes3CsBlock i 0) s (fun t => Beside s t ∧ t.dev.bit (Off.AES_RX_STAT i) 30 = true ∧ (t.dev.aesRx i).doneA = none ∧
           SameRegsBut [Off.AES_RX_STAT i] s t ∧ NewEvents s t [(0x0803, i, i)])) ∧
       (cb.getD 0 0 % 2 = 0 → Completes (.aes3CsBlock i 0) s (fun t => Beside s t ∧ t.dev.bit (Off.AES_RX_STAT i) 30 = false ∧
         (t.dev.aesRx i).doneA = none ∧
         (∀ w < 6, t.dev.rd (Off.AES_RX_CS_A i w) = BitVec.ofNat 32 (leNat ((List.range 4).map (fun j => BitVec.ofNat 8 (cb.getD (4 * w + j) 0))))) ∧
         t.dev.fld (Off.AES_RX_STAT i) 15 0 = (s.dev.fld (Off.AES_RX_STAT i) 15 0 + 1) % 65536 ∧ NewEvents s t []))) ∧
     (∀ m, s.Trusts m (Off.AES_TX_CFG i) → Completes (.csGo m i) s (fun t => Beside s t ∧ (t.dev.aesTx i).staged = true ∧
       (t.dev.aesTx i).live = (s.dev.aesTx i).live ∧ NewEvents s t [])) ∧
     (s.dev.nextIsZ = false → Completes (.aesTxCsLoad i) s (fun t => Beside s t ∧ t.dev = s.dev)) ∧
     ((s.dev.aesTx i).staged = true → s.dev.nextIsZ = true → s.dev.bit (Off.AES_TX_CFG i) 29 = false →
       Completes (.aesTxCsLoad i) s (fun t => Beside s t ∧ (t.dev.aesTx i).staged = false ∧
         (t.dev.aesTx i).live = ((List.range 6).map (fun w => (leBytes 4 (s.dev.rd (Off.AES_TX_CS i w)).toNat).map (fun b => b.toNat))).flatten ∧
         t.dev.regs = s.dev.regs ∧ NewEvents s t [])))



/-! ### Network streams -/

/-- R195: a control word of a stream is applied whole or refused whole: a refused one leaves the stream as it was and raises STREAM_CONFIG
with the reason and no other effect; one above 8,960 bytes of payload gives reason 1. A transmit stream takes its word; a receive stream
that was off starts afresh. R205: UNRESOLVED of every enabled transmit stream then says whether a port whose link is up still has no MAC for
its destination. -/
def Obligations.StreamConfiguration : Prop :=
  ∀ (m : Master) (tx : Bool) (i : Nat) (v : Word) (s : State), s.Ready → i < 128 →
    s.Trusts m (if tx then Off.NET_TX_CTL i else Off.NET_RX_CTL i) →
    let w := if tx then v &&& 0xDC1FFFFF else v
    let c := Instr.streamConfigWrite m tx i v
    let stats := (List.range 128).map Off.NET_TX_STAT
    let resolves (t : State) := ∀ j < 128, t.dev.txEn j = true → t.dev.bit (Off.NET_TX_STAT j) 30 =
      (t.dev.txPorts j).any (fun e => t.dev.linkUp e && !t.dev.resolved e (t.dev.rd (Off.NET_TX_DST_IP j)).toNat)
    (∀ r, w.getLsbD 31 = true → s.dev.streamRefusal tx w = some r →
      Completes c s (fun t => Beside s t ∧ SameRegsBut (if tx then stats else []) s t ∧ t.dev.net = s.dev.net ∧
        NewEvents s t [(0x0906, 0, r * 256 + (if tx then 128 else 0) + i)])) ∧
    (w.getLsbD 31 = true → 8960 < s.dev.ctlPayload tx w →
      Completes c s (fun t => SameRegsBut (if tx then stats else []) s t ∧ NewEvents s t [(0x0906, 0, 256 + (if tx then 128 else 0) + i)])) ∧
    (tx = true → w.getLsbD 31 = false ∨ s.dev.streamRefusal tx w = none →
      Completes c s (fun t => Beside s t ∧ t.dev.rd (Off.NET_TX_CTL i) = w ∧ t.dev.net = s.dev.net ∧ resolves t ∧
        t.dev.bit (Off.NET_TX_STAT i) 31 = (w.getLsbD 31 && s.dev.bit (Off.NET_TX_STAT i) 31) ∧
        SameRegsBut (Off.NET_TX_CTL i :: stats) s t ∧ NewEvents s t [])) ∧
    (tx = false → w.getLsbD 31 = true → s.dev.streamRefusal tx w = none → s.dev.rxEn i = false → mwf (fun _ => RxStream.init) s.dev.net.rx = true →
      Completes c s (fun t => Beside s t ∧ t.dev.rd (Off.NET_RX_CTL i) = w ∧
        t.dev.rxStream i = { RxStream.init with red := s.dev.clk.tick + 1, blue := s.dev.clk.tick + 1 } ∧ t.dev.rd (Off.NET_RX_STAT i) = 0 ∧
        (∀ j, j ≠ i → t.dev.rxStream j = s.dev.rxStream j) ∧ SameRegsBut [Off.NET_RX_CTL i, Off.NET_RX_STAT i] s t ∧ NewEvents s t [])) ∧
    (tx = false → w.getLsbD 31 = true → s.dev.streamRefusal tx w = none → s.dev.rxEn i = true →
      Completes c s (fun t => Beside s t ∧ t.dev.rd (Off.NET_RX_CTL i) = w ∧ t.dev.rxStream i = s.dev.rxStream i ∧
        SameRegsBut [Off.NET_RX_CTL i] s t ∧ NewEvents s t [])) ∧
    (tx = false → w.getLsbD 31 = false → mwf (fun _ => RxStream.init) s.dev.net.rx = true →
      Completes c s (fun t => Beside s t ∧ t.dev.rd (Off.NET_RX_CTL i) = w ∧ t.dev.rxStream i = RxStream.init ∧
        t.dev.fld (Off.NET_RX_STAT i) 31 28 = 0 ∧ SameRegsBut [Off.NET_RX_CTL i, Off.NET_RX_STAT i] s t ∧ NewEvents s t []))

/-- R197, R198, R201: a packet for one enabled Locked stream, whole and within the window of its input plane, is stored at the indices its
time stamp gives, one sample of each channel each, and its path is present; a payload of another size is counted as late and not stored. On
a port whose LINK is 0, and of a fragment, a packet with IP options or one of another VLAN, nothing is received (R192). Of two packets in
one cycle the lower-numbered port's is taken first. The model's own choices that it rests on: log entries 88, 91, 190, 195. -/
def Obligations.StreamReception : Prop :=
  ∀ (p : RtpPacket) (i : Nat) (s : State), s.Ready → p.port < 4 → i < 128 → mwf (fun _ => RxStream.init) s.dev.net.rx = true →
    let whole := s.dev.linkUp p.port && s.dev.tagTaken p.port p.vlan && p.whole
    (whole = false → Completes (.streamPacketRx p none) s (fun t => Beside s t ∧ t.dev = s.dev)) ∧
    (∀ q : RtpPacket, q.port < p.port → Completes (.streamPacketRx p (some q)) s (fun t => exec (.streamPacketRx q (some p)) s = .next t)) ∧
    (whole = true → (∀ j < 128, s.dev.packetFor j p = decide (j = i)) →
      let ctl := s.dev.rd (Off.NET_RX_CTL i)
      let n := s.dev.ctlSamples false ctl
      let own := extendStamp (s.dev.nowIndex (s.dev.rxRate i)) p.timestamp + s.dev.rxLofs i
      (p.payload.length ≠ ctlChannels ctl * n * ctlBytes ctl →
        Completes (.streamPacketRx p none) s (fun t => Beside s t ∧
          (t.dev.rd (Off.NET_RX_LATE_CNT i)).toNat = min ((s.dev.rd (Off.NET_RX_LATE_CNT i)).toNat + 1) (2 ^ 32 - 1) ∧
          t.dev.samp = s.dev.samp ∧ t.dev.net = s.dev.net ∧ SameRegsBut [Off.NET_RX_LATE_CNT i] s t ∧ NewEvents s t [])) ∧
      (p.payload.length = ctlChannels ctl * n * ctlBytes ctl → ctl.getLsbD 30 = false →
        mwf (fun _ => []) s.dev.samp = true → (∀ g, mwf (fun _ => 0) (mget (fun _ => []) s.dev.samp g) = true) →
        mwf (fun _ => 0) (s.dev.rxStream i).have_ = true →
        (∀ k < n, mget (fun _ => 0) (s.dev.rxStream i).have_ (own + k) = 0 ∧
          ((s.dev.clk.tick * (s.dev.rxRate i / 3000) : Nat) : Int) ≤ ((own + k : Nat) : Int) + s.dev.rxEps i ∧
          ((own + k : Nat) : Int) + s.dev.rxEps i < (s.dev.nowIndex (s.dev.rxRate i) + 512 : Nat)) →
        (s.dev.rxStream i).count < 63 → (s.dev.rxStream i).redLost = false → (s.dev.rxStream i).blueLost = false →
        Completes (.streamPacketRx p none) s (fun t => Beside s t ∧
          (∀ k < n, mget (fun _ => 0) (t.dev.rxStream i).have_ (own + k) = 1) ∧
          (∀ k < n, ∀ c < ctlChannels ctl, t.dev.sget (Sig.rxRaw i c) (own + k) = sampleOf (8 * ctlBytes ctl)
            (beNat ((p.payload.drop ((k * ctlChannels ctl + c) * ctlBytes ctl)).take (ctlBytes ctl)))) ∧
          t.dev.bit (Off.NET_RX_STAT i) (28 + s.dev.portNet p.port) = true ∧
          (∀ j, j ≠ i → t.dev.rxStream j = s.dev.rxStream j) ∧ SameRegsBut [Off.NET_RX_STAT i] s t ∧ NewEvents s t [])))

/-- R201: a path without an accepted packet for 3,000 ticks is lost, with STREAM_PATH, one never heard since the stream's enable included.
R202 to R205: a packet whose last sample's period has ended goes out on every port of an enabled stream whose link is up and whose
destination is resolved, to the MAC that is resolved, and is counted; before that, and where a forward step passed over its ticks, none is
sent. R193: a change of a port's physical link is its LINK while the port is enabled, with NET_LINK. R205, R206: an ARP request for the
port's own address is answered, an answer is remembered with its MAC, an echo request of at most 1,472 bytes is returned, and a query brings
a report of each membership of the port that it asks for (group 0: all); the destinations in use are asked for again. R192: a frame of
another VLAN is not the port's. R207: a Notice carries at most 64 waiting records to its destination. The model's own choices that it rests
on: log entries 89, 90, 91, 188, 189, 190. -/
def Obligations.StreamPathsAndSteward : Prop :=
  (∀ (i : Nat) (s : State), s.Ready → i < 128 →
     (mwf (fun _ => RxStream.init) s.dev.net.rx = true → s.dev.rxEn i = true → (∃ e ∈ s.dev.rxPorts i, s.dev.portNet e = 0) →
       (s.dev.rxStream i).redLost = false → (s.dev.rxStream i).red - 1 + 3000 ≤ s.dev.clk.tick →
       Completes (.streamPathLost i 0) s (fun t => Beside s t ∧ t.dev.rxStream i = { s.dev.rxStream i with redLost := true } ∧
         t.dev.bit (Off.NET_RX_STAT i) 28 = false ∧ SameRegsBut [Off.NET_RX_STAT i] s t ∧ NewEvents s t [(0x0904, 0, 128 + i)])) ∧
     (∀ q, s.dev.txEn i = false ∨ s.dev.txDue (s.dev.ctlSamples true (s.dev.rd (Off.NET_TX_CTL i))) q = false →
       Completes (.streamPacketTx i q) s (fun t => t.dev = s.dev ∧ Beside s t)) ∧
     (∀ q e mac, s.dev.txEn i = true → s.dev.txDue (s.dev.ctlSamples true (s.dev.rd (Off.NET_TX_CTL i))) q = true →
       (s.dev.txPorts i).filter (fun e => s.dev.linkUp e) = [e] → s.dev.destMac e (s.dev.rd (Off.NET_TX_DST_IP i)).toNat = some mac →
       Completes (.streamPacketTx i q) s (fun t => Beside s t ∧
         (∃ g : Datagram, t.dev.out = s.dev.out ++ [.udp e g] ∧ g.dstMac = mac ∧ g.srcMac = s.dev.portMac e ∧ g.vlan = s.dev.vlanTag e ∧
           g.srcIp = s.dev.portIp e ∧ g.dstIp = (s.dev.rd (Off.NET_TX_DST_IP i)).toNat ∧ g.ident = 0 ∧ g.df = true ∧
           g.dscp = s.dev.fld (Off.NET_TX_QOS i) 13 8 ∧ g.ttl = s.dev.fld (Off.NET_TX_QOS i) 7 0 ∧
           g.dstPort = s.dev.fld (Off.NET_TX_PORT_PT i) 31 16 ∧ g.srcPort = g.dstPort ∧
           g.checksum = udpChecksum g.srcIp g.dstIp g.srcPort g.dstPort g.payload ∧ g.payload = s.dev.txPacket i q) ∧
         (s.dev.txPacket i q).take 4 = beBytes 1 0x80 ++ beBytes 1 (s.dev.fld (Off.NET_TX_PORT_PT i) 6 0) ++ beBytes 2 (q % 65536) ∧
         t.dev.bit (Off.NET_TX_STAT i) 31 = true ∧ t.dev.bit (Off.NET_TX_STAT i) 30 = false ∧
         (t.dev.rd (Off.NET_TX_PKTS i)).toNat = ((s.dev.rd (Off.NET_TX_PKTS i)).toNat + 1) % 2 ^ 32 ∧
         SameRegsBut [Off.NET_TX_STAT i, Off.NET_TX_PKTS i] s t ∧ NewEvents s t [])) ∧
     (∀ q e, s.dev.txEn i = true → s.dev.txDue (s.dev.ctlSamples true (s.dev.rd (Off.NET_TX_CTL i))) q = true →
       (s.dev.txPorts i).filter (fun e => s.dev.linkUp e) = [e] → s.dev.destMac e (s.dev.rd (Off.NET_TX_DST_IP i)).toNat = none →
       s.dev.nextHop e (s.dev.rd (Off.NET_TX_DST_IP i)).toNat ≠ 0 →
       Completes (.streamPacketTx i q) s (fun t => Beside s t ∧
         t.dev.out = s.dev.out ++ [.net e 1 broadcastMac (s.dev.vlanTag e) [s.dev.portIp e, s.dev.nextHop e (s.dev.rd (Off.NET_TX_DST_IP i)).toNat]] ∧
         t.dev.bit (Off.NET_TX_STAT i) 31 = false ∧ t.dev.bit (Off.NET_TX_STAT i) 30 = true ∧ SameRegsBut [Off.NET_TX_STAT i] s t ∧
         NewEvents s t []))) ∧
  (∀ s : State, s.Ready →
     (∀ e < 4, ∀ up : Bool, s.dev.bit (Off.NET_PORT_CFG e) 31 = true → s.dev.linkUp e = !up → s.dev.portIp e = 0 →
       mwf (fun _ => false) s.dev.net.phys = true →
       Completes (.netLink e up) s (fun t => Beside s t ∧ t.dev.linkUp e = up ∧ t.dev.physUp e = up ∧ t.dev.out = s.dev.out ∧
         SameRegsBut [Off.NET_PORT_STAT e] s t ∧ NewEvents s t [(0x0903, 0, (if up then 256 else 0) + e)])) ∧
     (∀ (e : Nat) (p : StewPacket) (vlan : Option Nat), e < 4 → s.dev.linkUp e = false ∨ s.dev.portIp e = 0 ∨ s.dev.tagTaken e vlan = false →
       Completes (.stewardPacket e vlan p) s (fun t => Beside s t ∧ t.dev = s.dev)) ∧
     (∀ e < 4, ∀ vlan, s.dev.linkUp e = true → s.dev.portIp e ≠ 0 → s.dev.tagTaken e vlan = true →
       let sends (p : StewPacket) (os : List Out) := Completes (.stewardPacket e vlan p) s (fun t => Beside s t ∧
         t.dev = { s.dev with out := s.dev.out ++ os })
       (∀ a mac, sends (.arpRequest a mac (s.dev.portIp e)) [.net e 2 mac (s.dev.vlanTag e) [s.dev.portIp e, a]]) ∧
       (∀ a mac ip, ip ≠ s.dev.portIp e → sends (.arpRequest a mac ip) []) ∧
       (∀ a mac (bs : List Byte), bs.length ≤ 1472 → sends (.icmpEcho a mac (s.dev.portIp e) bs)
         [.net e 4 mac (s.dev.vlanTag e) (a :: bs.map (fun b => b.toNat))]) ∧
       (∀ q, sends (.igmpQuery q) (((s.dev.members e).filter (fun g => q == 0 || g.1 == q)).map (fun g =>
         .net e 5 (groupMac 0xE0000016) (s.dev.vlanTag e) [g.1, g.2]))) ∧ sends .other [] ∧
       (∀ a mac, mwf (fun _ => 0) s.dev.net.arp = true → Completes (.stewardPacket e vlan (.arpReply a mac)) s (fun t => Beside s t ∧
         t.dev.out = s.dev.out ∧ (∀ k, mget (fun _ => 0) t.dev.net.arp k = if k = e * 2 ^ 32 + a then mac + 1 else mget (fun _ => 0) s.dev.net.arp k) ∧
         SameRegsBut ((List.range 128).map Off.NET_TX_STAT) s t ∧ NewEvents s t []))) ∧
     (s.dev.bit Off.NET_NOTICE_CFG 31 = false → Completes .arpRefresh s (fun t => Beside s t ∧ t.dev.regs = s.dev.regs ∧
       t.dev.net = s.dev.net ∧ NewEvents s t [] ∧
       (∀ i < 128, ∀ e, s.dev.txEn i = true → e ∈ s.dev.txPorts i → s.dev.linkUp e = true →
         isMulticast (s.dev.rd (Off.NET_TX_DST_IP i)).toNat = false → s.dev.nextHop e (s.dev.rd (Off.NET_TX_DST_IP i)).toNat ≠ 0 →
         .net e 1 broadcastMac (s.dev.vlanTag e) [s.dev.portIp e, s.dev.nextHop e (s.dev.rd (Off.NET_TX_DST_IP i)).toNat] ∈ t.dev.out))) ∧
     (∀ e mac, s.dev.evt.notice ≠ [] → s.dev.fld Off.NET_NOTICE_CFG 15 0 ≠ 0 →
       netPorts.find? (fun e => (s.dev.rd Off.NET_NOTICE_CFG).getLsbD (16 + e) && s.dev.linkUp e) = some e →
       s.dev.destMac e (s.dev.rd Off.NET_NOTICE_IP).toNat = some mac →
       Completes .noticeSend s (fun t => Beside s t ∧ t.dev.evt.notice = s.dev.evt.notice.drop 64 ∧
         t.dev.evt.noticeSeq = (s.dev.evt.noticeSeq + 1) % 2 ^ 32 ∧ t.dev.regs = s.dev.regs ∧
         t.dev.out = s.dev.out ++ [.udp e (s.dev.datagram e mac (s.dev.rd Off.NET_NOTICE_IP).toNat (s.dev.fld Off.NET_NOTICE_CFG 15 0) 0 64
           (s.dev.noticeBytes (s.dev.evt.notice.take 64)))])))



/-! ### Network time -/

/-- R211 to R214: an Announce of the best master is noted with its time and interval; a Delay_Req leaves with its time stamp, its response
gives t4 − t3; a one-step Sync, or a Follow_Up to a two-step one, then gives θ = ms − (ms + sm) / 2, which the registers of the domain show.
An accepted offset moves the integrator of its servo by r·2^−KI / T and its rate to −(i_acc + r·2^−KP / T), held within PULL, where r is θ
less Θ for the steering domain and θ less its own estimate for the other. A Sync faster than 128 per second is counted. A message that is
not the domain's changes nothing. R219: once Θ has reached 0, slewing ends with TIME_SLEWING; before that nothing ends. R220: at boundary N,
in a tick no earlier than the one the decision allows, the scheduled step sets local time to N/3,000 s + s, never back, with M =
ceil(t′·3,000) the first tick after it, TIME_STEP, every job over, captures not consumed discarded, silence until M + 2 and no step pending.
Without such a step the row changes nothing. The model's own choices that it rests on: log entries 92, 93, 94, 191, 195. -/
def Obligations.PtpMessagesSlewsAndSteps : Prop :=
  (∀ (i e : Nat) (vlan : Option Nat) (dev : Int) (h : PtpHead) (s : State), s.Ready → i < 2 → e < 4 →
     let x := s.dev.dom i
     let stamp := s.dev.hwStamp dev
     let carry (m : PtpMsg) := Instr.ptpMessage i e vlan dev h m
     let only (c : Instr) (y : Dom) (os : List Out) := Completes c s (fun t => Beside s t ∧ t.dev.dom i = y ∧
       t.dev.dom (1 - i) = s.dev.dom (1 - i) ∧ t.dev.regs = s.dev.regs ∧ t.dev.clk = s.dev.clk ∧ t.dev.out = s.dev.out ++ os ∧ NewEvents s t [])
     let heard := s.dev.domPort i e = true ∧ s.dev.tagTaken e vlan = true ∧ h.number = s.dev.fld (Off.PTP_DOM_CFG i) 7 0
     let gives (c : Instr) (t1 t2 corr : Int) (y : Dom) := ∀ sm, x.sm = some sm →
       let ms := t2 - t1 - corr
       let theta := ms - (ms + sm) / 2
       let steers := s.dev.ptp.src = i + 1
       let r : Rat := if steers then theta - s.dev.ptp.slew else theta - y.est.getD theta
       let w := s.dev.rd (Off.PTP_DOM_SERVO i)
       let th : Rat := r / (secUnits : Nat)
       let acc : Rat := y.iAcc + th / (2 ^ getBits w 27 24 : Nat) / logSecs h.logInt
       let pull : Rat := (max 1 (getBits w 23 16) : Nat) / 1000000
       let rate : Rat := max (-pull) (min pull (-(acc + th / (2 ^ getBits w 31 28 : Nat) / logSecs h.logInt)))
       let good := if r.floor.natAbs ≤ getBits w 15 0 * 65536 then y.good + 1 else 0
       (steers → s.dev.ptp.first = false ∧ -(s.dev.stepThresh : Rat) ≤ r ∧ r ≤ s.dev.stepThresh) → s.dev.domLocked i = true ∨ good < 16 →
       Completes c s (fun t => Beside s t ∧
         t.dev.dom i = { y with theta := some theta, est := some (y.est.getD theta), iAcc := acc, rate := rate, rates := (rate :: y.rates).take 64, good := good } ∧
         t.dev.dom (1 - i) = s.dev.dom (1 - i) ∧ t.dev.ptp.rate = (if steers then rate else s.dev.ptp.rate) ∧ t.dev.ptp.slew = s.dev.ptp.slew ∧
         t.dev.ptp.src = s.dev.ptp.src ∧ t.dev.clk = s.dev.clk ∧ t.dev.rd (Off.PTP_DOM_OFFSET i) = BitVec.ofNat 32 (toSigned 32 (nsOf theta)) ∧
         t.dev.fld (Off.PTP_DOM_STAT i) 27 24 = 0 ∧ t.dev.domLocked i = s.dev.domLocked i ∧
         t.dev.fld (Off.PTP_DOM_STAT i) 23 0 = min (2 ^ 24 - 1) (max 0 ((ms + sm) / 2 / 65536)).toNat ∧
         SameRegsBut [Off.PTP_DOM_OFFSET i, Off.PTP_DOM_STAT i] s t ∧ NewEvents s t [])
     (∀ m, ¬ heard → only (carry m) x []) ∧
     (s.dev.domPort i e = true → s.dev.domMaster i = true → only (.delayReqSend i e dev)
       { x with t3 := some (x.reqSeq, stamp + s.dev.asym Off.PTP_ASYM_EG e), reqSeq := (x.reqSeq + 1) % 65536 }
       [.net e 7 (groupMac 0xE0000181) (s.dev.vlanTag e) [s.dev.fld (Off.PTP_DOM_CFG i) 7 0, x.reqSeq]]) ∧
     (s.dev.domPort i e = false ∨ s.dev.domMaster i = false → only (.delayReqSend i e dev) x []) ∧
     (heard →
       (∀ hi lo : Nat, hi < 2 ^ 32 → lo < 2 ^ 32 → Completes (carry (.announce hi lo true)) s (fun t => Beside s t ∧ t.dev.domMaster i = true ∧
         t.dev.dom i = { x with master := h.source, annAt := s.dev.clk.time, annInt := h.logInt } ∧
         (t.dev.rd (Off.PTP_DOM_GM_LO i)).toNat = lo ∧ (t.dev.rd (Off.PTP_DOM_GM_HI i)).toNat = hi ∧ t.dev.clk = s.dev.clk ∧
         SameRegsBut [Off.PTP_DOM_STAT i, Off.PTP_DOM_GM_LO i, Off.PTP_DOM_GM_HI i] s t ∧ NewEvents s t [])) ∧
       (∀ hi lo, only (carry (.announce hi lo false)) x []) ∧ only (carry .other) x [] ∧
       (∀ t3 t4 : Int, x.t3 = some (h.seq, t3) → h.source = x.master →
         only (carry (.delayResp t4)) { x with t3 := none, sm := some (t4 - t3 - h.corr) } []) ∧
       (∀ t4 : Int, (∀ t3, x.t3 = some (h.seq, t3) → h.source ≠ x.master) → only (carry (.delayResp t4)) x []) ∧
       (∀ t1 two, s.dev.domMaster i = false ∨ h.source ≠ x.master ∨ 1 < h.logInt → only (carry (.sync two t1)) x []) ∧
       (∀ t1 two, s.dev.domMaster i = true → h.source = x.master → h.logInt < -7 → only (carry (.sync two t1)) { x with fast := x.fast + 1 } []) ∧
       (∀ t1, s.dev.domMaster i = true → h.source = x.master → -7 ≤ h.logInt → h.logInt ≤ 1 →
         only (carry (.sync true t1)) { x with sync := some (h.seq, stamp - s.dev.asym Off.PTP_ASYM_IN e, h.corr) } [] ∧
         gives (carry (.sync false t1)) t1 (stamp - s.dev.asym Off.PTP_ASYM_IN e) h.corr x) ∧
       (∀ t1 t2 corr : Int, x.sync = some (h.seq, t2, corr) → h.source = x.master → -7 ≤ h.logInt → h.logInt ≤ 1 →
         gives (carry (.followUp t1)) t1 t2 (corr + h.corr) { x with sync := none }))) ∧
  (∀ (pdm : PdmBits) (s : State), s.Ready →
     let early (dec : Nat) := s.dev.clk.tick < (if s.dev.rendering then dec + 1 else dec)
     (s.dev.ptp.slewing = true → s.dev.ptp.slew = 0 → Completes .slewEnd s (fun t => Beside s t ∧
       t.dev.ptp = { s.dev.ptp with slewing := false } ∧ t.dev.clk = s.dev.clk ∧ t.dev.regs = s.dev.regs ∧ NewEvents s t [(0x0A01, 0, 0)])) ∧
     (s.dev.ptp.slewing = false ∨ s.dev.ptp.slew ≠ 0 → Completes .slewEnd s (fun t => Beside s t ∧ t.dev = s.dev)) ∧
     (s.dev.ptp.step = none ∨ (∃ a dec, s.dev.ptp.step = some (a, dec) ∧ early dec) →
       Completes (.timeStep pdm) s (fun t => Beside s t ∧ t.dev = s.dev)) ∧
     (∀ (a : Rat) (dec : Nat), s.dev.ptp.step = some (a, dec) → ¬ early dec →
       let n := s.dev.clk.tick + 1
       let edge : Rat := (n * secUnits : Nat) / 3000
       let time : Rat := max (max s.dev.clk.time edge) (edge + a)
       let m := (time * 3000 / (secUnits : Nat)).ceil.toNat
       Completes (.timeStep pdm) s (fun t => Beside s t ∧ t.dev.clk.time = time ∧ t.dev.ptp.step = none ∧
         t.dev.ptp.stepTo = some (m, n) ∧ t.dev.ptp.passed = some (n, m) ∧ t.dev.ptp.slew = 0 ∧ t.dev.pipe.silentTo = m + 2 ∧
         t.dev.pipe.gateSrc = [] ∧ (∀ j ∈ t.dev.icx.jobs, j.st.over = true) ∧ t.dev.clk.tick = s.dev.clk.tick ∧
         ⟨0x0A03, 0, evBlock 0x0A03, (m - n) % 2 ^ 32, s.dev.clk.tick⟩ ∈ t.dev.evt.raised)))

/-- R212, R214, R215, R222: a master whose Announce has not come for three of its intervals is lost, which unlocks its domain, with
TIME_LOCK, and with no other source while time is valid the device holds over at the mean of its last rates; before that the row changes
nothing. In AUTO with REVERT it returns to the preferred domain once it has been LOCKED for 60 s, with TIME_DOMAIN_SWITCH, and its offset
becomes Θ (R217), time and tick unchanged. R210, R216, R221: while local time is invalid a write of PTP_TIME is held, and taken at a WCLK_IN
edge where WCLK is to steer; local time is then valid. A write while it is valid has no effect. 64 periods of WCLK_IN in a row within 100
ppm lock it and 8 outside unlock it, with TIME_LOCK. The model's own choices that it rests on: log entries 95, 96, 194, 226. -/
def Obligations.TimeSourcesAndWclk : Prop :=
  (∀ (i : Nat) (s : State), s.Ready → i < 2 →
     let gone := (s.dev.dom i).annAt + 3 * logSecs (s.dev.dom i).annInt * (secUnits : Nat) ≤ s.dev.clk.time
     (s.dev.domMaster i = false ∨ ¬ gone → Completes (.masterLost i) s (fun t => Beside s t ∧ t.dev = s.dev)) ∧
     (s.dev.domMaster i = true → gone → s.dev.domLocked i = true → s.dev.ptp.src = i + 1 → s.dev.domLocked (1 - i) = false →
       s.dev.clk.valid = true → s.dev.ptp.wclk = false → getBits s.dev.ptpSel 1 0 = 0 →
       Completes (.masterLost i) s (fun t => Beside s t ∧ t.dev.domMaster i = false ∧ t.dev.domLocked i = false ∧ (t.dev.dom i).theta = none ∧
         (t.dev.dom i).est = none ∧ (t.dev.dom i).sync = none ∧ (t.dev.dom i).t3 = none ∧ (t.dev.dom i).sm = none ∧
         t.dev.ptp.src = 4 ∧ t.dev.clk = s.dev.clk ∧ t.dev.ptp.rate = meanRate s.dev.ptp.rate (s.dev.dom i).rates ∧
         SameRegsBut [Off.PTP_DOM_STAT i] s t ∧
         NewEvents s t [(0x0A02, 0, (i + 1) * 16 + 4), (0x0A05, 0, 256), (0x0A06, 0, i * 256)])) ∧
     (getBits s.dev.ptpSel 2 2 = i → getBits s.dev.ptpSel 1 0 = 0 → s.dev.ptpSel.getLsbD 4 = true → s.dev.domLocked i = true →
       (s.dev.dom i).since + 60000000000 ≤ s.dev.nsNow → s.dev.clk.valid = true → s.dev.ptp.src = 2 - i →
       s.dev.ptp.slewing = true → s.dev.ptp.slew ≠ 0 →
       Completes .domainRevert s (fun t => Beside s t ∧ t.dev.ptp.src = i + 1 ∧ t.dev.ptp.slew = (s.dev.dom i).est.getD 0 ∧
         t.dev.ptp.rate = (s.dev.dom i).rate ∧ t.dev.ptp.step = none ∧ t.dev.clk = s.dev.clk ∧ t.dev.regs = s.dev.regs ∧
         NewEvents s t [(0x0A02, 0, (2 - i) * 16 + (i + 1))]))) ∧
  (∀ s : State, s.Ready →
     (∀ m word (v : Word), word < 4 → s.Trusts m (Off.PTP_TIME_SEC_LO + 4 * word) →
       (s.dev.clk.valid = false → word ≠ 2 ∨ v.toNat ≤ 999999999 → Completes (.ptpTimeWrite m word v) s (fun t => Beside s t ∧
         t.dev.rd (Off.PTP_TIME_SEC_LO + 4 * word) = (if word = 3 then v &&& 0xFFFF else v) ∧ t.dev.ptp = { s.dev.ptp with written := true } ∧
         t.dev.clk = s.dev.clk ∧ SameRegsBut [Off.PTP_TIME_SEC_LO + 4 * word] s t ∧ NewEvents s t [])) ∧
       (s.dev.clk.valid = true → Completes (.ptpTimeWrite m word v) s (fun t => Beside s t ∧ t.dev.regs = s.dev.regs ∧ t.dev.ptp = s.dev.ptp ∧
         t.dev.clk = s.dev.clk ∧ NewEvents s t []))) ∧
     (∀ (phase : Int) (ps : List Int), ps ≠ [] → (∀ p ∈ ps, p.natAbs ≤ 100000) → 64 ≤ s.dev.ptp.wGood + ps.length → s.dev.ptp.wclk = false →
       s.dev.domLocked 0 = true → s.dev.ptp.src = 1 → getBits s.dev.ptpSel 1 0 = 0 →
       Completes (.wclkLock phase ps) s (fun t => Beside s t ∧ t.dev.ptp.wclk = true ∧ t.dev.ptp.wPhase = s.dev.wNearest phase ∧ t.dev.ptp.src = 1 ∧
         t.dev.ptp.wGood = s.dev.ptp.wGood + ps.length ∧ t.dev.ptp.rate = s.dev.ptp.rate ∧
         t.dev.clk = s.dev.clk ∧ t.dev.regs = s.dev.regs ∧ NewEvents s t [(0x0A06, 0, 513)])) ∧
     (∀ ps : List Int, ps ≠ [] → (∀ p ∈ ps, 100000 < p.natAbs) → 8 ≤ s.dev.ptp.wBad + ps.length → s.dev.ptp.wclk = true → s.dev.ptp.src = 3 →
       getBits s.dev.ptpSel 1 0 = 3 → s.dev.clk.valid = true →
       Completes (.wclkUnlock ps) s (fun t => Beside s t ∧ t.dev.ptp.wclk = false ∧ t.dev.ptp.src = 4 ∧
         t.dev.ptp.rate = meanRate s.dev.ptp.wRate s.dev.ptp.rates ∧ t.dev.clk = s.dev.clk ∧
         t.dev.regs = s.dev.regs ∧ NewEvents s t [(0x0A02, 0, 52), (0x0A05, 0, 256), (0x0A06, 0, 1)])) ∧
     (s.dev.clk.valid = false → s.dev.ptp.wclk = true → s.dev.ptp.written = true → getBits s.dev.ptpSel 1 0 = 3 →
       Completes .wclkTimeAdopt s (fun t => Beside s t ∧ t.dev.clk.valid = true ∧ t.dev.clk.time = (s.dev.writtenTime : Nat) ∧
         t.dev.ptp.src = 3 ∧ t.dev.ptp.written = false ∧ t.dev.ptp.rate = s.dev.ptp.wRate ∧ t.dev.clk.tick = s.dev.clk.tick ∧
         t.dev.regs = s.dev.regs ∧ NewEvents s t [(0x0A02, 0, 3)])))



/-! ### The Listening Post and the Reference Drive -/

/-- R230, R376: a synchronisation, by the DEC_SYNC edge where EXT_EN allows it or by GO, gives every channel the next M instant, raises
SYNC_SEQ and sets SETTLING, once for that instant; the earlier ones a channel still awaits stand. SETTLING clears once no channel settles.
R231: a SWAP of a channel's taps waits for the boundary, and is refused, the whole write without effect, while one is accepted or its
crossfade runs; the crossfade ends at boundary A + K + 1. R238: RESET and IR wait for the estimator's next job. The model's own choices that
it rests on: log entries 14, 99, 203. -/
def Obligations.ListeningPost : Prop :=
  (∀ s : State, s.Ready → mwf (fun _ => LpCh.init) s.dev.lpo.ch = true →
     let m := s.dev.nextM
     let pulse : List Out := if s.dev.ebit Off.LPO_CTL 30 then [.pulse 1 1000] else []
     let synced (t : State) := Beside s t ∧ NewEvents s t [] ∧ SameRegsBut [Off.LPO_STAT, Off.LPO_SYNC] s t ∧
       (if (List.range 16).all (fun c => (s.dev.lpCh c).sync.contains m) then t.dev.lpo = s.dev.lpo ∧ t.dev.rd Off.LPO_STAT = s.dev.rd Off.LPO_STAT
        else (∀ c < 16, t.dev.lpCh c = { s.dev.lpCh c with sync := (s.dev.lpCh c).sync.filter (fun j => decide (j < m)) ++ [m] }) ∧
         t.dev.bit Off.LPO_STAT 31 = true ∧ t.dev.fld Off.LPO_STAT 15 0 = (s.dev.fld Off.LPO_STAT 15 0 + 1) % 65536)
     (s.dev.bit Off.LPO_SYNC 30 = true → Completes .decSyncEdge s (fun t => synced t ∧ t.dev.out = s.dev.out ∧
       t.dev.rd Off.LPO_SYNC = s.dev.rd Off.LPO_SYNC)) ∧
     (s.dev.bit Off.LPO_SYNC 30 = false → Completes .decSyncEdge s (fun t => Beside s t ∧ t.dev = s.dev)) ∧
     (∀ m, s.Trusts m Off.LPO_SYNC → Completes (.lpoSyncGo m) s (fun t => synced t ∧ t.dev.out = s.dev.out ++ pulse)) ∧
     (∀ c < 16, s.dev.settling c = false → Completes (.settlingEnd c) s (fun t => Beside s t ∧
       t.dev.bit Off.LPO_STAT 31 = (List.range 16).any s.dev.settling ∧ t.dev.lpo = s.dev.lpo ∧ SameRegsBut [Off.LPO_STAT] s t ∧
       NewEvents s t []))) ∧
  (∀ (m : Master) (c : Nat) (s : State), s.Ready → c < 16 →
     (∀ v : Word, s.Trusts m (Off.LPO_CH_CTL c) → s.dev.bit (Off.LPO_CH_CTL c) 30 = false → s.dev.pendW.any (Pend.isLpoSwap c) = false →
       Completes (.lpoSwap m c v) s (fun t => Beside s t ∧ (∃ p, t.dev.pendW = s.dev.pendW ++ p ++ [.lpoSwap c (v ||| goBit)]) ∧
         t.dev.lpo = s.dev.lpo ∧ t.dev.fld (Off.LPO_CH_CTL c) 30 29 = s.dev.fld (Off.LPO_CH_CTL c) 30 29 ∧
         SameRegsBut [Off.LPO_CH_CTL c] s t ∧ NewEvents s t [])) ∧
     (∀ v : Word, s.Trusts m (Off.LPO_CH_CTL c) → s.dev.bit (Off.LPO_CH_CTL c) 30 = true ∨ s.dev.pendW.any (Pend.isLpoSwap c) = true →
       Completes (.lpoSwap m c v) s (fun t => Beside s t ∧ t.dev.lpo = s.dev.lpo ∧ t.dev.pendW = s.dev.pendW ∧ t.dev.regs = s.dev.regs ∧
         t.dev.est = s.dev.est ∧ NewEvents s t [(0x0B04, 0, 256 + c)])) ∧
     (mwf (fun _ => LpCh.init) s.dev.lpo.ch = true → (s.dev.lpCh c).fade.2 ≠ 0 →
       (s.dev.lpCh c).fade.1 + (s.dev.lpCh c).fade.2 + 1 ≤ s.dev.clk.tick →
       Completes (.lpoSwapEnd c) s (fun t => Beside s t ∧ t.dev.lpCh c = { s.dev.lpCh c with fade := (0, 0) } ∧
         t.dev.bit (Off.LPO_CH_CTL c) 30 = false ∧ (∀ x, x ≠ c → t.dev.lpCh x = s.dev.lpCh x) ∧ SameRegsBut [Off.LPO_CH_CTL c] s t ∧
         NewEvents s t [])) ∧
     (s.Trusts m Off.LPO_MEAS_CMD →
       Completes (.measReset m c) s (fun t => Beside s t ∧ c ∈ t.dev.lpo.reset ∧ (∀ x ∈ s.dev.lpo.reset, x ∈ t.dev.lpo.reset) ∧
         t.dev.lpo.ir = s.dev.lpo.ir ∧ SameRegsBut [Off.LPO_MEAS_CMD] s t ∧ NewEvents s t []) ∧
       Completes (.measIr m c) s (fun t => Beside s t ∧ c ∈ t.dev.lpo.ir ∧ (∀ x ∈ s.dev.lpo.ir, x ∈ t.dev.lpo.ir) ∧
         t.dev.lpo.reset = s.dev.lpo.reset ∧ SameRegsBut [Off.LPO_MEAS_CMD] s t ∧ NewEvents s t [])))

/-- R239, R240: a measurement of VIN is shown with its minimum and serves 8 D samples; the terminals of the one channel that runs show their
eight duties 32 D samples later, those of a channel that is off nothing; no sample drives more than full scale. R244: a channel that is
wanted, unheld and off begins with its common-mode ramp, RUN set; after the ramp up it waits for the boundary, after the ramp down it is
off, and starts again where it is wanted by then. The model's own choices that it rests on: log entries 2, 13, 185. -/
def Obligations.DriveSamplesAndStart : Prop :=
  ((∀ (mv : Nat) (s : State), s.Ready → mv < 65536 → (∀ c < 12, (s.dev.drvCh c).ph = 0) → s.dev.bit Off.DRV_STAT 27 = false →
     Completes (.vinMeasure mv) s (fun t => Beside s t ∧ t.dev.fld Off.DRV_VIN 15 0 = mv ∧
       t.dev.fld Off.DRV_VIN 31 16 = min (s.dev.fld Off.DRV_VIN 31 16) mv ∧ t.dev.drv = { s.dev.drv with pos := s.dev.drv.pos + 8 } ∧
       t.dev.out = s.dev.out ∧ SameRegsBut [Off.DRV_VIN] s t ∧ NewEvents s t [])) ∧
   (∀ (mv c : Nat) (s : State), s.Ready → c < 12 → (∀ k < 12, (s.dev.drvCh k).ph ≠ 0 ↔ k = c) →
     mwf (fun _ => DrvCh.init) s.dev.drv.ch = true →
     Completes (.vinMeasure mv) s (fun t => Beside s t ∧ (t.dev.drvCh c).ph = (s.dev.drvCh c).ph ∧ t.dev.drv.pos = s.dev.drv.pos + 8 ∧
       (∀ k, k ≠ c → t.dev.drvCh k = s.dev.drvCh k) ∧ SameRegsBut [Off.DRV_VIN, Off.DRV_STAT, Off.DRV_CH_CLIP c] s t ∧
       ∃ duty : List Nat, t.dev.out = s.dev.out ++ [.drive c (s.dev.drv.pos + 32) (s.dev.ebit (Off.DRV_CH_CFG c) 30) duty] ∧ duty.length = 8)) ∧
   (∀ (d : Dev) (c i : Nat) (vin : F32), flt fone (fabs (d.drvSample c i vin).2) = false)) ∧
  (∀ (c : Nat) (s : State), s.Ready → c < 12 → mwf (fun _ => DrvCh.init) s.dev.drv.ch = true →
     (s.dev.drvWanted c = true → s.dev.drvHeld = false → s.dev.drvTripped c = false → s.dev.drvLatched c = false → (s.dev.drvCh c).ph = 0 →
       Completes (.channelStart c) s (fun t => Beside s t ∧ t.dev.drvCh c = { s.dev.drvCh c with ph := 1, gs := fone, limited := 0 } ∧
         t.dev.bit (Off.DRV_CH_STAT c) 31 = true ∧ SameRegsBut [Off.DRV_CH_STAT c] s t ∧ NewEvents s t [])) ∧
     ((s.dev.drvCh c).ph = 1 → Completes (.cmRampDone c) s (fun t => Beside s t ∧ (t.dev.drvCh c).ph = 2 ∧
       t.dev.bit (Off.DRV_CH_STAT c) 31 = true ∧ SameRegsBut [Off.DRV_CH_STAT c] s t ∧ NewEvents s t [])) ∧
     ((s.dev.drvCh c).ph = 6 → s.dev.drvWanted c = false → Completes (.cmRampDone c) s (fun t => Beside s t ∧ (t.dev.drvCh c).ph = 0 ∧
       t.dev.bit (Off.DRV_CH_STAT c) 31 = false ∧ SameRegsBut [Off.DRV_CH_STAT c] s t ∧ NewEvents s t [])) ∧
     ((s.dev.drvCh c).ph = 6 → s.dev.drvWanted c = true → s.dev.drvHeld = false → s.dev.drvTripped c = false → s.dev.drvLatched c = false →
       Completes (.cmRampDone c) s (fun t => Beside s t ∧ t.dev.drvCh c = { s.dev.drvCh c with ph := 1, gs := fone, limited := 0 } ∧
         t.dev.bit (Off.DRV_CH_STAT c) 31 = true ∧ SameRegsBut [Off.DRV_CH_STAT c] s t ∧ NewEvents s t [])))

/-- R245 to R250: a half whose current reaches ILIM is cut for the rest of its PWM period; a channel limited in more than 16 periods in a
row, and one whose current passes 10 A, is tripped by a short into the off state at once, and latched when its retries have reached COUNT; a
DC fault latches at once and prevails over a short of the same cycle; a retry whose delay has expired starts the channel and counts; 10 s of
running clear the count; a write of 1 to LATCHED clears latch and count, and the channel starts if it is wanted. R243, R249, R250: a thermal
shutdown and a supply limit turn every channel off at once; each ends by its own restart, and when the last of them ends, every wanted
channel without trip or latch starts again. Clearing DRV_CTL.EN leaves the channels to fade out. The model's own choices that it rests on:
log entries 13, 104, 186, 187. -/
def Obligations.DriveTripsAndShutdowns : Prop :=
  (∀ (c : Nat) (s : State), s.Ready → c < 12 → mwf (fun _ => DrvCh.init) s.dev.drv.ch = true →
     let st := Off.DRV_CH_STAT c
     (∀ peaks run hs, (s.dev.drvCh c).ph ≠ 0 → currentRun (2000 + 500 * min 10 (s.dev.efld (Off.DRV_CH_CFG c) 25 22)) peaks (s.dev.drvCh c).limited =
         (hs, run, none) →
       Completes (.driveShort c peaks false) s (fun t => Beside s t ∧ t.dev.drvCh c = { s.dev.drvCh c with limited := run } ∧
         t.dev.out = s.dev.out ++ (if hs.any (fun h => h.1 || h.2) then [.driveCut c hs] else []) ∧ t.dev.regs = s.dev.regs ∧ NewEvents s t [])) ∧
     (∀ ilim run a b, (decide (ilim ≤ a) || decide (ilim ≤ b)) = true → a ≤ 10000 → b ≤ 10000 →
       (currentRun ilim [(a, b)] run).2 = if 16 ≤ run then (run + 1, some 1) else (run + 1, none)) ∧
     (∀ ilim run a b, 10000 < a ∨ 10000 < b → (currentRun ilim [(a, b)] run).2.2 = some 2) ∧
     (∀ peaks cause, (s.dev.drvCh c).ph ≠ 0 →
       (currentRun (2000 + 500 * min 10 (s.dev.efld (Off.DRV_CH_CFG c) 25 22)) peaks (s.dev.drvCh c).limited).2.2 = some cause →
       let latch := decide (max 1 (s.dev.fld Off.DRV_RETRY 11 8) ≤ s.dev.fld st 26 23)
       Completes (.driveShort c peaks false) s (fun t => Beside s t ∧ (t.dev.drvCh c).ph = 0 ∧ (t.dev.drvCh c).tripAt = s.dev.nsNow ∧
         t.dev.bit st 31 = false ∧ t.dev.bit st (if latch then 29 else 30) = true ∧ t.dev.fld st 28 27 = cause % 4 ∧
         t.dev.bit Off.DRV_STAT (8 + c) = true ∧ SameRegsBut [st, Off.DRV_STAT] s t ∧
         NewEvents s t [(0x0C01, 0, cause * 256 + (if latch then 128 else 0) + c)])) ∧
     (s.dev.bit Off.DRV_CTL 30 = true → (s.dev.drvCh c).ph ≠ 0 →
       (∀ peaks, Completes (.driveShort c peaks true) s (fun t => Beside s t ∧ (t.dev.drvCh c).ph = 0 ∧ t.dev.drvLatched c = true ∧
         t.dev.fld st 28 27 = 3 ∧ SameRegsBut [st, Off.DRV_STAT] s t ∧ NewEvents s t [(0x0C04, 0, c)])) ∧
       Completes (.driveDc c) s (fun t => Beside s t ∧ (t.dev.drvCh c).ph = 0 ∧ t.dev.drvLatched c = true ∧ t.dev.fld st 28 27 = 3 ∧
         t.dev.bit st 31 = false ∧ SameRegsBut [st, Off.DRV_STAT] s t ∧ NewEvents s t [(0x0C04, 0, c)])) ∧
     (s.dev.drvTripped c = true → s.dev.drvWanted c = true → s.dev.fld Off.DRV_RETRY 7 0 ≠ 0 →
       (s.dev.drvCh c).tripAt + 100000000 * min 100 (s.dev.fld Off.DRV_RETRY 7 0) ≤ s.dev.nsNow →
       (s.dev.drvHeld = false → Completes (.driveRetry c) s (fun t => Beside s t ∧ (t.dev.drvCh c).ph = 1 ∧ t.dev.drvTripped c = false ∧
         t.dev.bit st 31 = true ∧ t.dev.fld st 26 23 = min 15 (s.dev.fld st 26 23 + 1) ∧ SameRegsBut [st, Off.DRV_STAT] s t ∧ NewEvents s t [])) ∧
       (s.dev.drvHeld = true → Completes (.driveRetry c) s (fun t => Beside s t ∧ t.dev.drvCh c = { s.dev.drvCh c with due := true } ∧
         t.dev.regs = s.dev.regs ∧ NewEvents s t []))) ∧
     ((s.dev.drvCh c).ph = 4 → (s.dev.drvCh c).runAt + 10000000000 ≤ s.dev.nsNow →
       Completes (.retryCountReset c) s (fun t => Beside s t ∧ t.dev.fld st 26 23 = 0 ∧ t.dev.drv = s.dev.drv ∧ SameRegsBut [st] s t ∧
         NewEvents s t [])) ∧
     (∀ m, s.Trusts m st → s.dev.drvLatched c = true → s.dev.drvWanted c = false →
       Completes (.latched m c) s (fun t => Beside s t ∧ t.dev.drvLatched c = false ∧ t.dev.fld st 26 23 = 0 ∧ t.dev.drv = s.dev.drv ∧
         SameRegsBut [st, Off.DRV_STAT] s t ∧ NewEvents s t [])) ∧
     (∀ m, s.Trusts m st → s.dev.drvLatched c = true → s.dev.drvWanted c = true → s.dev.drvTripped c = false → s.dev.drvHeld = false →
       (s.dev.drvCh c).ph = 0 →
       Completes (.latched m c) s (fun t => Beside s t ∧ t.dev.drvLatched c = false ∧ (t.dev.drvCh c).ph = 1 ∧ t.dev.bit st 31 = true ∧
         NewEvents s t []))) ∧
  (∀ s : State, s.Ready → mwf (fun _ => DrvCh.init) s.dev.drv.ch = true →
     let stats := (List.range 12).map Off.DRV_CH_STAT
     let off (t : State) := Beside s t ∧ (∀ c < 12, (t.dev.drvCh c).ph = 0 ∧ t.dev.bit (Off.DRV_CH_STAT c) 31 = false) ∧
       SameRegsBut (Off.DRV_STAT :: stats) s t
     let again (t : State) := Beside s t ∧ (∀ c < 12, s.dev.drvWanted c = true → s.dev.drvLatched c = false → s.dev.drvTripped c = false →
       (s.dev.drvCh c).ph = 0 → (t.dev.drvCh c).ph = 1) ∧ (∀ c < 12, s.dev.drvWanted c = false → t.dev.drvCh c = s.dev.drvCh c) ∧
       t.dev.drvHeld = false
     (s.dev.bit Off.DRV_STAT 29 = false → Completes .driveThermalSd s (fun t => off t ∧ t.dev.bit Off.DRV_STAT 29 = true ∧
       NewEvents s t [(0x0C06, 0, 256)])) ∧
     (∀ ovp : Bool, s.dev.bit Off.DRV_STAT (if ovp then 30 else 31) = false → Completes (.driveSupply ovp) s (fun t => off t ∧
       t.dev.bit Off.DRV_STAT (if ovp then 30 else 31) = true ∧ NewEvents s t [(0x0C05, 0, 256 + (if ovp then 2 else 1))])) ∧
     (s.dev.bit Off.DRV_STAT 29 = true → s.dev.bit Off.DRV_STAT 30 = false → s.dev.bit Off.DRV_STAT 31 = false →
       Completes .driveThermalRestart s (fun t => again t ∧ NewEvents s t [(0x0C06, 0, 0)])) ∧
     (∀ ovp : Bool, s.dev.bit Off.DRV_STAT (if ovp then 30 else 31) = true →
       (s.dev.bit Off.DRV_STAT 29 = false → s.dev.bit Off.DRV_STAT (if ovp then 31 else 30) = false →
         Completes (.driveSupplyRestart ovp) s (fun t => again t ∧ NewEvents s t [(0x0C05, 0, if ovp then 2 else 1)])) ∧
       (s.dev.bit Off.DRV_STAT 29 = true ∨ s.dev.bit Off.DRV_STAT (if ovp then 31 else 30) = true →
         Completes (.driveSupplyRestart ovp) s (fun t => Beside s t ∧ t.dev.drv = s.dev.drv ∧
           t.dev.bit Off.DRV_STAT (if ovp then 30 else 31) = false ∧ SameRegsBut [Off.DRV_STAT] s t ∧
           NewEvents s t [(0x0C05, 0, if ovp then 2 else 1)]))) ∧
     (∀ m, s.Trusts m Off.DRV_CTL → Completes (.drvCtlEnClear m) s (fun t => Beside s t ∧ t.dev.bit Off.DRV_CTL 31 = false ∧
       t.dev.drv = s.dev.drv ∧ SameRegsBut [Off.DRV_CTL] s t ∧ NewEvents s t [])))



/-! ### The Twin pair, the Ledger and the District -/

/-- R11, R251: TWN_CTL.EN is stored at once and established at the boundary. R260: a Bell word carries SEQ, UNIT, the claims and a CRC, and
SEQ advances; a word of the other unit with a good CRC gives its claims and its part of the health word, one with a bad CRC only the fault,
and one of the unit's own number is CLAIM_CONFLICT and leaves the unit ALONE. R262, R263: a partner neither path has brought anything of
within its timeout, or that is FAILING, has failed: PARTNER_FAILED, and the unit is ALONE; an EPOCH content not committed is LEDGER_PARTIAL
(R281). One path silent while the other delivers is an alarm, until it delivers again. Valid traffic for 10 ms brings the partner back.
R264: a lane's change is reported, and the last lane's loss ends the contents under way. R255, R252: 3,000 matching ticks bring a joiner
IN_STEP, and its hold-off runs; at its end the unit is SERVING with the effective claim of R252. The model's own choices that it rests on:
log entries 123, 124, 197, 198. -/
def Obligations.BellPartnerAndJoining : Prop :=
  (∀ s : State, s.Ready →
     (∀ m v, s.Trusts m Off.TWN_CTL → Completes (.twnEn m v) s (fun t => Beside s t ∧ t.dev.bit Off.TWN_CTL 31 = v ∧
       t.dev.twn = s.dev.twn ∧ t.dev.est = s.dev.est ∧ t.dev.pendW = s.dev.pendW ++ [.reg Off.TWN_CTL (t.dev.rd Off.TWN_CTL)] ∧
       SameRegsBut [Off.TWN_CTL] s t ∧ NewEvents s t [])) ∧
     (s.dev.twnOn = true → s.dev.twn.st ≤ 4 → s.dev.twn.bellSeq < 4096 → Completes .bellWordTx s (fun t => Beside s t ∧
       t.dev.twn = { s.dev.twn with bellSeq := (s.dev.twn.bellSeq + 1) % 4096 } ∧ t.dev.regs = s.dev.regs ∧ NewEvents s t [] ∧
       ∃ w : BitVec 64, t.dev.out = s.dev.out ++ [.bell w] ∧ bitsOf w.toNat 63 52 = s.dev.twn.bellSeq ∧
         bitsOf w.toNat 49 49 = s.dev.unitNo ∧ bitsOf w.toNat 47 40 = s.dev.claimNow ∧ bitsOf w.toNat 39 32 = s.dev.baseClaim ∧
         bitsOf w.toNat 7 0 = crc8 (beBytes 7 (w.toNat / 256)))) ∧
     (s.dev.twnOn = false → Completes .bellWordTx s (fun t => Beside s t ∧ t.dev = s.dev)) ∧
     (∀ w : BitVec 64, s.dev.twnOn = true → crc8 (beBytes 7 (w.toNat / 256)) ≠ w.toNat % 256 →
       Completes (.bellWordRx w) s (fun t => Beside s t ∧ t.dev.twn = { s.dev.twn with bellBad := s.dev.clk.tick + 1 } ∧
         t.dev.regs = s.dev.regs ∧ NewEvents s t [])) ∧
     (∀ w : BitVec 64, s.dev.twnOn = true → crc8 (beBytes 7 (w.toNat / 256)) = w.toNat % 256 → bitsOf w.toNat 49 49 ≠ s.dev.unitNo →
       Completes (.bellWordRx w) s (fun t => Beside s t ∧ t.dev.twn.pEff = bitsOf w.toNat 47 40 ∧ t.dev.twn.pBase = bitsOf w.toNat 39 32 ∧
         t.dev.twn.bellLast = some (bitsOf w.toNat 63 52) ∧ t.dev.twn.bellAt = s.dev.nsNow + 1 ∧
         t.dev.twn.pFailing = (bitsOf w.toNat 48 48 == 1 || failingState t.dev.twn.pHealth.toNat) ∧ t.dev.twn.st = s.dev.twn.st ∧
         bitsOf t.dev.twn.pHealth.toNat 63 56 = bitsOf w.toNat 15 8 ∧
         SameRegsBut [Off.TWN_PARTNER_LO, Off.TWN_PARTNER_HI] s t)) ∧
     (∀ w : BitVec 64, s.dev.twnOn = true → crc8 (beBytes 7 (w.toNat / 256)) = w.toNat % 256 → bitsOf w.toNat 49 49 = s.dev.unitNo →
       Completes (.bellWordRx w) s (fun t => Beside s t ∧ t.dev.twn.sameId = true ∧ t.dev.twn.present = false ∧
         t.dev.twn.st = (if s.dev.twn.st = 4 then 4 else 1) ∧ t.dev.regs = s.dev.regs ∧
         NewEvents s t (if s.dev.twn.sameId = true then [] else [(0x0D05, 0, 2)])))) ∧
  (∀ s : State, s.Ready → s.dev.twnOn = true →
     let partialEv : List (Nat × Nat × Nat) := if s.dev.twn.xfers.any (fun x => x.content == 1) = true then
       [(0x0D03, 0, (s.dev.rd Off.TWN_LEDGER_SEQ_LO).toNat)] else []
     let equalBases := s.dev.baseClaim ≠ 0 ∧ s.dev.twn.pBase = s.dev.baseClaim
     (s.dev.twn.present = true → s.dev.twn.pFailing = true ∨ (s.dev.bellUp = false ∧ s.dev.courUp = false) →
       Completes .partnerFailed s (fun t => Beside s t ∧ t.dev.twn.present = false ∧ t.dev.twn.failed = true ∧
         t.dev.twn.st = (if s.dev.twn.st = 4 then 4 else 1) ∧ t.dev.twn.pEff = 0 ∧ t.dev.twn.gateRx = [] ∧ t.dev.twn.xfers = [] ∧
         t.dev.regs = s.dev.regs ∧ NewEvents s t ((0x0D01, 0, if s.dev.twn.pFailing = true then 256 else 0) :: partialEv))) ∧
     (s.dev.twn.present = false ∨ (s.dev.twn.pFailing = false ∧ (s.dev.bellUp = true ∨ s.dev.courUp = true)) →
       Completes .partnerFailed s (fun t => Beside s t ∧ t.dev = s.dev)) ∧
     (∀ courier : Bool, let at_ := if courier then s.dev.twn.courAt else s.dev.twn.bellAt
       let other := if courier then s.dev.twn.bellAt else s.dev.twn.courAt
       let tmo := s.dev.tmoNs (if courier then Off.TWN_COURIER_TMO else Off.TWN_BELL_TMO)
       let alarm := if courier then s.dev.twn.courAlarm else s.dev.twn.bellAlarm
       let alarmed (b : Bool) : Twn := if courier then { s.dev.twn with courAlarm := b } else { s.dev.twn with bellAlarm := b }
       let par := if courier then 2 else 1
       (s.dev.twn.present = true → alarm = false → at_ + tmo < other →
         Completes (.pathAlarm courier true) s (fun t => Beside s t ∧ t.dev.twn = alarmed true ∧
           t.dev.regs = s.dev.regs ∧ NewEvents s t [(0x0D02, 0, 256 + par)])) ∧
       (alarm = true → (if courier then s.dev.courUp else s.dev.bellUp) = true →
         Completes (.pathAlarm courier false) s (fun t => Beside s t ∧ t.dev.twn = alarmed false ∧
           t.dev.regs = s.dev.regs ∧ NewEvents s t [(0x0D02, 0, par)]))) ∧
     (s.dev.twn.present = false → s.dev.twn.pFailing = false → s.dev.twn.sameId = false → s.dev.twn.since ≠ 0 →
       s.dev.bellUp = true ∨ s.dev.courUp = true → s.dev.twn.since + 10000000 ≤ s.dev.nsNow + 1 →
       Completes .partnerReturned s (fun t => Beside s t ∧ t.dev.twn.present = true ∧ t.dev.twn.failed = false ∧
         (s.dev.twn.st = 1 → t.dev.twn.st = (if s.dev.healthy = true then 3 else 2)) ∧ (s.dev.twn.st ≠ 1 → t.dev.twn.st = s.dev.twn.st) ∧
         (s.dev.rendering = false → s.dev.twn.st = 1 → t.dev.twn.st = 2) ∧ t.dev.regs = s.dev.regs ∧
         (equalBases → t.dev.twn.baseSaid = true) ∧
         (¬ equalBases ∨ s.dev.twn.baseSaid = true → NewEvents s t [(0x0D06, 0, 0)]) ∧
         (equalBases → s.dev.twn.baseSaid = false → NewEvents s t [(0x0D05, 0, 1), (0x0D06, 0, 0)]))) ∧
     (∀ lane up, lane < 2 → s.dev.twn.lanes < 4 → s.dev.twn.lanes / 2 ^ lane % 2 ≠ b2n up →
       Completes (.twinLane lane up) s (fun t => Beside s t ∧ t.dev.twn.lanes / 2 ^ lane % 2 = b2n up ∧
         t.dev.twn.lanes / 2 ^ (1 - lane) % 2 = s.dev.twn.lanes / 2 ^ (1 - lane) % 2 ∧ t.dev.regs = s.dev.regs ∧
         (t.dev.twn.lanes ≠ 0 → t.dev.twn.xfers = s.dev.twn.xfers ∧ NewEvents s t [(0x0D0B, 0, (if up then 0 else 256) + lane)]) ∧
         (t.dev.twn.lanes = 0 → t.dev.twn.xfers = [] ∧ NewEvents s t (partialEv ++ [(0x0D0B, 0, 256 + lane)]))))) ∧
  (∀ s : State, s.Ready →
     (s.dev.twnOn = true → s.dev.twn.present = true → s.dev.twn.inStep = false → 3000 ≤ s.dev.twn.run →
       Completes .inStepReached s (fun t => Beside s t ∧ t.dev.twn = { s.dev.twn with
           inStep := true
           holdEnd := if s.dev.twn.st = 2 then some (s.dev.clk.tick + 3000 * max 1 (min 600 (s.dev.fld Off.TWN_HOLDOFF 9 0))) else none } ∧
         t.dev.regs = s.dev.regs ∧ NewEvents s t [])) ∧
     (∀ e, s.dev.twn.holdEnd = some e → s.dev.twn.st = 2 → s.dev.twn.inStep = true → e ≤ s.dev.clk.tick →
       Completes .holdoffEnd s (fun t => Beside s t ∧ t.dev.twn.st = 3 ∧ t.dev.twn.holdEnd = none ∧ t.dev.claimNow = t.dev.effClaim ∧
         SameRegsBut [Off.TWN_CLAIM] s t)))

/-- R266 to R275: what a frame of the partner brings: a Courier its health, claim, plan and journal; a Gate block each slot's first copy; a
shared input its samples at their capture tick, before the render deadline of the tick that takes it; a COMPARE its CRCs. R264, R265: a
frame that is not whole, or whose number lies behind the one awaited, only counts in TWN_LINK_ERR; one that leaves numbers out is taken as
if they had come, the count rising by them, and the Courier's fault remembered (R285); the first frame of all is taken whatever its number.
The model's own choices that it rests on: log entries 122, 125, 154, 228. -/
def Obligations.PartnerFrames : Prop :=
  (∀ (f : List Byte) (x : TFrame) (s : State), s.Ready → s.dev.twn.present = true →
     (s.dev.Receives 1 f x → x.body.length = 48 → fWord x.body 10 2 / 16 % 2 = 0 →
       Completes (.courierRx f) s (fun t => Beside s t ∧ t.dev.twn.pEff = fByte x.body 8 ∧ t.dev.twn.pBase = s.dev.twn.pBase ∧
         t.dev.twn.pPlan = some (fWord x.body 16 8) ∧ t.dev.twn.pLedger = fWord x.body 24 8 ∧
         t.dev.twn.pFlags = fWord x.body 10 2 ∧
         t.dev.twn.pFailing = (decide (fWord x.body 10 2 % 2 = 1) || failingState (fWord x.body 0 8)) ∧
         t.dev.twn.pHealth = BitVec.ofNat 64 (fWord x.body 0 8) ∧ t.dev.twn.courAt = s.dev.nsNow + 1 ∧
         t.dev.twn.ledger = s.dev.twn.ledger.filter (fun e => e.open_ s.dev.clk.tick || decide (fWord x.body 24 8 < e.seq)) ∧
         t.dev.twn.expect = some ((x.fseq + 1) % 2 ^ 32) ∧ SameRegsBut [Off.TWN_PARTNER_LO, Off.TWN_PARTNER_HI] s t)) ∧
     (s.dev.Receives 2 f x → 0 < fWord x.body 2 2 → fWord x.body 2 2 ≤ 64 → x.body.length = 24 + 4 * fWord x.body 2 2 * s.dev.L →
       mwf (fun _ => []) s.dev.twn.gateRx = true → (∀ n, mwf (fun _ => ⟨false, false, []⟩) (mget (fun _ => []) s.dev.twn.gateRx n) = true) →
       let had := mget (fun _ => []) s.dev.twn.gateRx x.tick
       Completes (.gateBlockRx f) s (fun t => Beside s t ∧ t.dev.regs = s.dev.regs ∧ NewEvents s t [] ∧
         (∀ n, n ≠ x.tick → mget (fun _ => []) t.dev.twn.gateRx n = mget (fun _ => []) s.dev.twn.gateRx n) ∧
         (∀ i, had.any (fun e => e.1 == i) = true ∨ i < fWord x.body 0 2 ∨ fWord x.body 0 2 + fWord x.body 2 2 ≤ i →
           mget (fun _ => ⟨false, false, []⟩) (mget (fun _ => []) t.dev.twn.gateRx x.tick) i = mget (fun _ => ⟨false, false, []⟩) had i) ∧
         (∀ i < fWord x.body 2 2, had.any (fun e => e.1 == fWord x.body 0 2 + i) = false →
           mget (fun _ => ⟨false, false, []⟩) (mget (fun _ => []) t.dev.twn.gateRx x.tick) (fWord x.body 0 2 + i) =
           ⟨(fWord x.body 8 8).testBit i, (fWord x.body 16 8).testBit i,
             (List.range s.dev.L).map (fun k => fReal x.body (24 + 4 * (i * s.dev.L + k)))⟩))) ∧
     (s.dev.Receives 3 f x → let kind := fByte x.body 0
       let first := fWord x.body 2 2
       let n := fWord x.body 4 2
       let ns := s.dev.shareNs kind
       1 ≤ kind → kind ≤ 3 → 1 ≤ n → n ≤ 64 → fWord x.body 6 2 = ns → x.body.length = 16 + 4 * n * ns →
       mwf (fun _ => 0) s.dev.twn.shareAt = true → mwf (fun _ => []) s.dev.samp = true →
       (∀ g, mwf (fun _ => 0) (mget (fun _ => []) s.dev.samp g) = true) →
       (s.dev.clk.tick ≤ x.tick → Completes (.sharedInputRx f) s (fun t => Beside s t ∧ t.dev.regs = s.dev.regs ∧ NewEvents s t [] ∧
         ∀ i < n, s.dev.partnerOwns kind (first + i) = true → mget (fun _ => 0) t.dev.twn.shareAt (kind * 65536 + (first + i)) = x.tick + 1 ∧
           ∀ k < ns, t.dev.sget (Sig.own (4 + kind) (first + i)) (x.tick * ns + k) = fReal x.body (16 + 4 * (i * ns + k)))) ∧
       (x.tick + 1 < s.dev.clk.tick ∨ (x.tick + 1 = s.dev.clk.tick ∧ s.dev.clk.past = true) →
         Completes (.sharedInputRx f) s (fun t => Beside s t ∧ t.dev = { s.dev with twn := s.dev.heardSeq x }))) ∧
     (s.dev.Receives 7 f x → mwf (fun _ => []) s.dev.twn.compares = true →
       (x.body.length = 4 + 4 * fWord x.body 0 2 →
         Completes (.compareRx f) s (fun t => Beside s t ∧ t.dev.regs = s.dev.regs ∧ NewEvents s t [] ∧
           (∀ n, n ≠ x.tick → mget (fun _ => []) t.dev.twn.compares n = mget (fun _ => []) s.dev.twn.compares n) ∧
           mget (fun _ => []) t.dev.twn.compares x.tick =
             fWord x.body 0 2 :: (List.range (fWord x.body 0 2)).map (fun i => fWord x.body (4 + 4 * i) 4))) ∧
       (x.body.length ≠ 4 + 4 * fWord x.body 0 2 →
         Completes (.compareRx f) s (fun t => Beside s t ∧ t.dev = { s.dev with twn := s.dev.heardSeq x })))) ∧
  (∀ (type : Nat) (f : List Byte) (s : State), s.Ready → 1 ≤ type → type ≤ 7 → s.dev.twnOn = true ∨ s.dev.sys.waitTwin = true →
     let counted := Completes (twinRx type f) s (fun t => Beside s t ∧
       (t.dev.rd Off.TWN_LINK_ERR).toNat = min ((s.dev.rd Off.TWN_LINK_ERR).toNat + 1) (2 ^ 32 - 1) ∧
       SameRegsBut [Off.TWN_LINK_ERR] s t ∧ t.dev.twn = s.dev.twn ∧ NewEvents s t [])
     (parseFrame f = none → counted) ∧
     (∀ x, parseFrame f = some x → x.type = type → x.unit ≠ s.dev.unitNo ∨ s.dev.twnOn = false →
       (∀ e, s.dev.twn.expect = some e → 2 ^ 31 ≤ (x.fseq + 2 ^ 32 - e) % 2 ^ 32 → counted) ∧
       (∀ e, s.dev.twn.expect = some e → let gap := (x.fseq + 2 ^ 32 - e) % 2 ^ 32
         0 < gap → gap < 2 ^ 31 → exec (twinRx type f) s = exec (twinRx type f) { s with dev := { s.dev.bumpN Off.TWN_LINK_ERR gap with
           twn := { s.dev.twn with
             courBad := s.dev.clk.tick + 1
             expect := some x.fseq } } }) ∧
       (s.dev.twn.expect = none → x.fseq < 2 ^ 32 →
         exec (twinRx type f) s = exec (twinRx type f) { s with dev := { s.dev with twn := { s.dev.twn with expect := some x.fseq } } })))

/-- R276 to R279: an entry of the partner that follows in order joins the journal and TWN_LEDGER_SEQ follows it; one that leaves a gap is
held; one already known changes nothing; a relay is accepted by the primary with the next sequence and by the other unit not at all, and the
answer to a relay of the unit's own is shown. No entry is applied while the plans differ. R276, R277: a submission whose body the rules
refuse is answered FORMAT or RANGE. On the primary one before SYS_TICK + 2 is LATE, one that finds no room FULL, and a metadata frame or a
set of records otherwise is accepted with the next sequence; on the other unit it is relayed and PENDING. While one is pending another has
no effect. A relay unanswered for 10 ms is LOST. The model's own choices that it rests on: log entries 40, 122, 165, 166, 208. -/
def Obligations.LedgerEntries : Prop :=
  (∀ (f : List Byte) (x : TFrame) (e : LEntry) (s : State), s.Ready → s.dev.Receives 4 f x → parseEntry x.body = some e →
     let unchanged := Completes (.ledgerEntryRx f) s (fun t => Beside s t ∧ t.dev = { s.dev with twn := s.dev.heardSeq x })
     let known := e.seq ≤ s.dev.ledgerSeq ∨ s.dev.twn.held.any (fun y => y.seq == e.seq) = true
     let late : LEntry := { e with late := decide (e.apply < s.dev.clk.tick) }
     let a := if e.apply = 0 then s.dev.clk.tick + 2 else e.apply
     let taken : LEntry := ⟨s.dev.twn.nextSeq, a, 2, e.origin, e.rtag, e.body, false, false⟩
     (s.dev.twn.present = false ∨ s.dev.planMatch = false → unchanged) ∧
     (s.dev.twn.present = true → s.dev.planMatch = true →
       (e.seq = 0 → s.dev.primary = false → unchanged) ∧
       (e.seq = 0 → s.dev.primary = true → e.ekind = 2 → s.dev.clk.tick + 2 ≤ a → s.dev.twn.nextSeq < 2 ^ 64 →
         (s.dev.twn.ledger.filter (fun y => y.open_ s.dev.clk.tick)).length < 256 →
         Completes (.ledgerEntryRx f) s (fun t => Beside s t ∧ t.dev.twn.ledger = s.dev.twn.ledger ++ [taken] ∧
           t.dev.ledgerSeq = s.dev.twn.nextSeq ∧ t.dev.twn.nextSeq = s.dev.twn.nextSeq + 1 ∧
           t.dev.out = s.dev.out ++ s.dev.ledgerFrame taken ∧
           SameRegsBut [Off.TWN_LEDGER_SEQ_LO, Off.TWN_LEDGER_SEQ_HI] s t ∧ NewEvents s t [])) ∧
       (e.seq ≠ 0 → known → e.origin ≠ s.dev.unitNo → unchanged) ∧
       (e.seq ≠ 0 → ¬ known → e.origin ≠ s.dev.unitNo →
         (s.dev.needsEpoch = true ∨ (e.seq ≠ s.dev.ledgerSeq + 1 ∧ s.dev.twn.held.any (fun y => y.seq == s.dev.ledgerSeq + 1) = false) →
           Completes (.ledgerEntryRx f) s (fun t => Beside s t ∧ t.dev.regs = s.dev.regs ∧ NewEvents s t [] ∧
             t.dev.twn = { s.dev.heardSeq x with held := s.dev.twn.held ++ [late] })) ∧
         (s.dev.needsEpoch = false → e.ekind = 2 → e.seq = s.dev.ledgerSeq + 1 → e.seq < 2 ^ 64 → s.dev.twn.held = [] →
           Completes (.ledgerEntryRx f) s (fun t => Beside s t ∧ t.dev.twn.ledger = s.dev.twn.ledger ++ [{ late with done := false }] ∧
             t.dev.ledgerSeq = e.seq ∧ t.dev.twn.held = [] ∧ t.dev.twn.nextSeq = max s.dev.twn.nextSeq (e.seq + 1) ∧
             SameRegsBut [Off.TWN_LEDGER_SEQ_LO, Off.TWN_LEDGER_SEQ_HI] s t ∧ NewEvents s t []))) ∧
       (∀ r : Relay, e.seq ≠ 0 → known → e.origin = s.dev.unitNo → e.seq < 2 ^ 64 →
         s.dev.twn.relays.find? (fun r => r.rtag == e.rtag) = some r → r.kind = 0 →
         Completes (.ledgerEntryRx f) s (fun t => Beside s t ∧ t.dev.fld Off.TWN_LDG_CMD 27 24 = 2 ∧ t.dev.bit Off.TWN_LDG_CMD 28 = false ∧
           (t.dev.rd Off.TWN_LDG_ASSIGNED_LO).toNat + 2 ^ 32 * (t.dev.rd Off.TWN_LDG_ASSIGNED_HI).toNat = e.seq ∧
           t.dev.twn = { s.dev.heardSeq x with relays := s.dev.twn.relays.filter (fun y => y != r) } ∧
           SameRegsBut [Off.TWN_LDG_CMD, Off.TWN_LDG_ASSIGNED_LO, Off.TWN_LDG_ASSIGNED_HI] s t ∧ NewEvents s t [])))) ∧
  (∀ s : State, s.Ready →
     (∀ m, s.Trusts m Off.TWN_LDG_CMD →
       let n := s.dev.fld Off.TWN_LDG_CMD 13 0
       let ekind := s.dev.fld Off.TWN_LDG_CMD 30 29
       let a0 := (s.dev.rd Off.TWN_LDG_TICK_LO).toNat + 2 ^ 32 * (s.dev.rd Off.TWN_LDG_TICK_HI).toNat
       let a := if a0 = 0 then s.dev.clk.tick + 2 else a0
       let body := ((List.range 2048).map (fun i => leBytes 4 (s.dev.rd (Off.TWN_LDG_WIN i)).toNat)).flatten.take n
       let live := s.dev.twn.ledger.filter (fun e => e.open_ s.dev.clk.tick)
       let size := ((live.filter (fun e => e.ekind == 1 && e.apply == a)).map (fun e => e.body.length)).sum + body.length
       let full := 256 ≤ live.length ∨ (ekind = 1 ∧ 16384 < size)
       let entry : LEntry := ⟨s.dev.twn.nextSeq, a, ekind, s.dev.unitNo, 0, body, false, false⟩
       let relay : LEntry := ⟨0, a0, ekind, s.dev.unitNo, s.dev.twn.rtag, body, false, false⟩
       let answered (r : Nat) (t : State) := Beside s t ∧ t.dev.fld Off.TWN_LDG_CMD 27 24 = r ∧
         t.dev.bit Off.TWN_LDG_CMD 28 = (r == 1) ∧ SameRegsBut ([Off.TWN_LDG_CMD, Off.TWN_LDG_ASSIGNED_LO, Off.TWN_LDG_ASSIGNED_HI,
           Off.TWN_LEDGER_SEQ_LO, Off.TWN_LEDGER_SEQ_HI] ++ (if ekind = 3 then [Off.DIV_STAT] else [])) s t
       let accepted (e : LEntry) (t : State) := answered 2 t ∧ t.dev.ledgerSeq = s.dev.twn.nextSeq ∧
         (t.dev.rd Off.TWN_LDG_ASSIGNED_LO).toNat + 2 ^ 32 * (t.dev.rd Off.TWN_LDG_ASSIGNED_HI).toNat = s.dev.twn.nextSeq ∧
         t.dev.twn.nextSeq = s.dev.twn.nextSeq + 1 ∧ t.dev.twn.ledger = s.dev.twn.ledger ++ [e] ∧ t.dev.out = s.dev.out ++ s.dev.ledgerFrame e
       let same (t : State) := t.dev.twn = s.dev.twn ∧ t.dev.div = s.dev.div ∧ t.dev.obj = s.dev.obj ∧ NewEvents s t []
       (s.dev.bit Off.TWN_LDG_CMD 28 = true → Completes (.ledgerSubmit m) s (fun t => Beside s t ∧ same t ∧
         t.dev.bit Off.TWN_LDG_CMD 28 = true ∧ SameRegsBut [Off.TWN_LDG_CMD] s t)) ∧
       (s.dev.bit Off.TWN_LDG_CMD 28 = false → n ≤ 8192 →
         (∀ r, s.dev.bodyCheck ekind body = some r → Completes (.ledgerSubmit m) s (fun t => answered r t ∧ (r = 4 ∨ r = 5) ∧ same t)) ∧
         (ekind = 2 → s.dev.checkFrame false body = .crc → Completes (.ledgerSubmit m) s (fun t => answered 4 t ∧ same t)) ∧
         (s.dev.bodyCheck ekind body = none → s.dev.twn.nextSeq < 2 ^ 64 →
           (s.dev.primary = true → ekind ≠ 3 → a < s.dev.clk.tick + 2 → Completes (.ledgerSubmit m) s (fun t => answered 3 t ∧ same t)) ∧
           (s.dev.primary = true → ekind = 3 → fByte body 1 = 0 → a < s.dev.clk.tick + 2 → Completes (.ledgerSubmit m) s (fun t =>
             answered 3 t ∧ t.dev.twn = s.dev.twn ∧ t.dev.div = s.dev.div ∧ NewEvents s t [(0x1004, 0, 4 * 2 ^ 28 + fByte body 0)])) ∧
           (s.dev.primary = true → ekind ≠ 3 → s.dev.clk.tick + 2 ≤ a → full →
             Completes (.ledgerSubmit m) s (fun t => answered 6 t ∧ same t)) ∧
           (s.dev.primary = true → ekind ≠ 3 → s.dev.clk.tick + 2 ≤ a → ¬ full →
             Completes (.ledgerSubmit m) s (fun t => accepted entry t ∧ NewEvents s t [])) ∧
           (s.dev.primary = true → ekind = 3 → fByte body 1 = 0 → s.dev.clk.tick + 2 ≤ a → live.length < 256 →
             (∀ e ∈ s.dev.twn.ledger, ¬ (e.ekind = 3 ∧ e.apply = a ∧ e.body = body)) →
             Completes (.ledgerSubmit m) s (fun t => accepted { entry with done := true } t ∧
               (s.dev.divRefusal (fByte body 0) a true = none → NewEvents s t [] ∧
                 t.dev.div = { s.dev.div with queue := s.dev.div.queue ++ [⟨fByte body 0, a, false⟩] }) ∧
               (∀ r, s.dev.divRefusal (fByte body 0) a true = some r → t.dev.div = s.dev.div ∧
                 NewEvents s t [(0x1004, 0, r * 2 ^ 28 + fByte body 0)]))) ∧
           (s.dev.primary = false → Completes (.ledgerSubmit m) s (fun t => answered 1 t ∧ NewEvents s t [] ∧
             t.dev.twn.ledger = s.dev.twn.ledger ∧ t.dev.twn.relays = s.dev.twn.relays ++ [⟨s.dev.twn.rtag, 0, 0, s.dev.nsNow⟩] ∧
             t.dev.out = s.dev.out ++ s.dev.ledgerFrame relay))))) ∧
     (let lost (r : Relay) := decide (r.at_ + 10000000 ≤ s.dev.nsNow)
      Completes .ledgerRelayLost s (fun t => Beside s t ∧
       t.dev.twn = { s.dev.twn with relays := s.dev.twn.relays.filter (fun r => !lost r) } ∧
       ((∃ r ∈ s.dev.twn.relays, lost r = true ∧ r.kind = 0) → t.dev.fld Off.TWN_LDG_CMD 27 24 = 7 ∧ t.dev.bit Off.TWN_LDG_CMD 28 = false) ∧
       ((∀ r ∈ s.dev.twn.relays, lost r = true → r.kind ≠ 0) → t.dev.regs = s.dev.regs) ∧
       SameRegsBut [Off.TWN_LDG_CMD] s t ∧ NewEvents s t [])))

/-- R270, R280 to R283, R337: the contents a unit sends its partner, whole and with their COMMITs: an EPOCH and the parts of its render
state to a joiner, the plan and each resident Diversion, and the firmware, to one that asks; the ROM that waits asks in a Courier. A unit
that none of this is asked of sends nothing. R270, R280, R337: a chunk joins those of its content, part and identity, one of another
identity replacing what was gathered; a COMMIT whose length or CRC does not match drops them, and one that matches gives an EPOCH content to
a unit that waits for one, a render-state part to a joiner, a plan or Diversion to the loader of a unit that boots from its partner, and
firmware to the ROM that waits for it. The boundaries an EPOCH put off are performed in order when it is established. The model's own
choices that it rests on: log entries 119, 121, 147, 154, 169, 220. -/
def Obligations.TwinTransfers : Prop :=
  (∀ s : State, s.Ready →
     let silent (c : Instr) := Completes c s (fun t => Beside s t ∧ t.dev = s.dev)
     let sent (c : Instr) (l : List Content) := Completes c s (fun t => Beside s t ∧ t.dev = s.dev.sentContents l)
     let pair := 2 ≤ s.dev.twn.st ∧ s.dev.twn.present = true ∧ s.dev.planMatch = true
     let epochDue := pair ∧ s.dev.primary = true ∧ s.dev.twn.pFlags.testBit 2 = true
     let stateDue := pair ∧ bitsOf s.dev.twn.pHealth.toNat 63 61 = 2 ∧ s.dev.twn.pFlags.testBit 2 = false ∧ s.dev.playing = true ∧
       s.dev.tickDone = true
     let imageDue := s.dev.twn.present = true ∧ s.dev.twn.pFlags.testBit 1 = true ∧ s.dev.planValid = true ∧ s.dev.div.plan ≠ []
     let firmwareDue := s.dev.twnOn = true ∧ s.dev.twn.pFlags.testBit 4 = true ∧ s.dev.div.firmware ≠ []
     (epochDue → sent .epochTransfer [⟨1, 0, s.dev.clk.tick + 2, s.dev.clk.tick - 1, s.dev.ledgerSeq, s.dev.epochContent⟩]) ∧
     (¬ epochDue → silent .epochTransfer) ∧
     (stateDue → let p := s.dev.twn.seedNext
       Completes .rstateTransfer s (fun t => Beside s t ∧
         let e := s.dev.sentContents [⟨2, p, s.dev.clk.tick, 0, 0, s.dev.rstatePart p s.dev.clk.tick⟩]
         t.dev = { e with twn := { e.twn with seedNext := (p + 1) % 24 } })) ∧
     (¬ stateDue → silent .rstateTransfer) ∧
     (imageDue → sent .imageTransfer (⟨3, 0, 0, 0, 0, s.dev.div.plan⟩ :: s.dev.div.resident.map (fun e => ⟨4, e.1, 0, 0, 0, e.2⟩))) ∧
     (¬ imageDue → silent .imageTransfer) ∧
     (firmwareDue → sent .firmwareTransfer [⟨5, 0, 0, 0, 0, s.dev.div.firmware⟩]) ∧
     (¬ firmwareDue → silent .firmwareTransfer) ∧
     (s.dev.sys.waitTwin = true → Completes .needFirmwareCourier s (fun t => Beside s t ∧ t.dev = s.dev.sentFrames [(1, 0,
       leBytes 8 (2 * 2 ^ 61 + s.dev.unitNo * 2 ^ 60) ++ List.replicate 2 0 ++ leBytes 2 16 ++ List.replicate 36 0)])) ∧
     (s.dev.sys.waitTwin = false → silent .needFirmwareCourier)) ∧
  ((∀ (f : List Byte) (x : TFrame) (s : State), s.Ready → s.dev.Accepts 5 f x →
     let b := x.body
     let c := fByte b 0
     let p := fByte b 1
     let data := b.drop 16
     let sound := 16 ≤ b.length ∧ data.length ≤ 8192 ∧ fWord b 2 2 = 0 ∧ 1 ≤ c ∧ c ≤ 5 ∧ (s.dev.twnOn = true ∨ c = 5)
     let had := (s.dev.twn.xfers.find? (fun y => decide (y.content = c ∧ y.part = p ∧ y.id = fWord b 4 4))).getD ⟨c, p, fWord b 4 4, [], 0, true⟩
     let now : Xfer := { had with
       data := setBytes had.data (fWord b 8 8) data
       count := had.count + data.length
       inOrder := had.inOrder && decide (fWord b 8 8 = had.count) }
     (sound → Completes (.snapshotChunkRx f) s (fun t => Beside s t ∧ t.dev = { s.dev with twn := { s.dev.heardSeq x with
       xfers := s.dev.twn.xfers.filter (fun y => !decide (y.content = c ∧ y.part = p)) ++ [now] } })) ∧
     (¬ sound → Completes (.snapshotChunkRx f) s (fun t => Beside s t ∧ t.dev = { s.dev with twn := s.dev.heardSeq x }))) ∧
   (∀ (f : List Byte) (x : TFrame) (s : State), s.Ready → s.dev.Accepts 6 f x →
     let b := x.body
     let c := fByte b 0
     let mine (y : Xfer) := decide (y.content = c ∧ y.part = fByte b 1 ∧ y.id = fWord b 4 4)
     let dropped : Twn := { s.dev.heardSeq x with xfers := s.dev.twn.xfers.filter (fun y => !mine y) }
     let left : State := { s with dev := { s.dev with twn := dropped } }
     let only (w : Twn) := Completes (.commitRx f) s (fun t => Beside s t ∧ t.dev = { s.dev with twn := w })
     let becomes (u : State) := Completes (.commitRx f) s (fun t => t = { u with dev := u.dev.settle })
     (s.dev.twn.xfers.find? mine = none → only (s.dev.heardSeq x)) ∧
     ∀ y, s.dev.twn.xfers.find? mine = some y →
       let data := getBytes y.data 0 y.count
       let matched := b.length = 48 ∧ fWord b 8 8 = y.count ∧ crc32c data = fWord b 16 4
       let loads := s.dev.straps.bootSel = 2 ∧ s.dev.sys.phase = 2 ∧ s.dev.imgBusy = false ∧ ((c = 3 ∧ s.dev.planValid = false) ∨ c = 4)
       let boots := s.dev.twn.xfers.any (fun z => z.content == 5 && z.inOrder) = true ∧ s.dev.sys.waitTwin = true
       (¬ matched → only dropped) ∧
       (matched → c = 1 → only (if s.dev.needsEpoch = true then
         { dropped with epoch := some ⟨fWord b 24 8, fWord b 32 8, fWord b 40 8, data⟩ } else dropped)) ∧
       (matched → c = 2 → only (if s.dev.twn.st = 2 ∧ y.part < 24 then { dropped with rstate := some (y.part, fWord b 24 8, data) } else dropped)) ∧
       (matched → c = 3 ∨ c = 4 → loads → becomes ((left.loadImage 2 0 (some data)).1.postNow (left.loadImage 2 0 (some data)).2)) ∧
       (matched → c = 3 ∨ c = 4 → ¬ loads → only dropped) ∧
       (matched → c = 4 → loads → headerOk data = false → imgKind data = 2 → Completes (.commitRx f) s (fun t => Beside s t ∧
         t.dev.twn = dropped ∧ t.dev.div = s.dev.div ∧ t.dev.fld Off.DIV_IMG_STAT 31 28 = stFormat ∧
         SameRegsBut [Off.DIV_IMG_STAT] s t ∧ NewEvents s t [(0x1002, 0, stFormat * 2 ^ 28 + 2 * 2 ^ 26 + 2 * 2 ^ 24)])) ∧
       (matched → c = 5 → ¬ boots → only dropped) ∧
       (matched → c = 5 → boots → s.dev.sys.phase = 0 → (left.takeFirmware 2 0 (some data)).2.status = stImgDone →
         becomes (left.takeFirmware 2 0 (some data)).1) ∧
       (matched → c = 5 → boots → s.dev.sys.phase = 0 → imgKind data < 4 → let r := left.takeFirmware 2 0 (some data)
         r.2.status ≠ stImgDone → Completes (.commitRx f) s (fun t => Beside s t ∧ t.dev.sram = [] ∧ t.dev.sys = s.dev.sys ∧
           NewEventsAfter s r.1.dev t [(0x1002, 0, r.2.status * 2 ^ 28 + 2 * 2 ^ 26 + imgKind data * 2 ^ 24 + r.2.failRec % 2 ^ 20)])) ∧
       (matched → c = 5 → boots → s.dev.sys.phase = 1 → s.dev.populated ≠ 0 → becomes (left.fillResidence (some data)))) ∧
   (∀ s : State, s.Ready →
     (s.dev.twn.putOff = none → Completes .epochEstablished s (fun t => Beside s t ∧ t.dev = s.dev)) ∧
     (∀ l, s.dev.twn.putOff = some l → Completes .epochEstablished s (fun t => Beside s t ∧ t.dev.clk.tick = s.dev.clk.tick ∧
       (l = [] → t.dev = { s.dev with twn := { s.dev.twn with putOff := none } }) ∧
       ∀ (p : Nat × BoundaryIn) (rest : List (Nat × BoundaryIn)), l = rest ++ [p] →
         let perform (d : Dev) (q : Nat × BoundaryIn) : Dev := ({ d with clk := { d.clk with tick := q.1 } } : Dev).boundarySteps s.otp q.2 false
         let last := perform (rest.foldl perform s.dev) p
         t.dev = ({ last with
           clk := { last.clk with tick := s.dev.clk.tick }
           twn := { last.twn with putOff := none } } : Dev).settle))))

/-- R193, R289: a whole frame of another member of this District, where some port has its link, tells its health (here a frame without a
partial, of a unit that does not lead); a frame that is not of another member changes nothing; a member unheard for 8 ticks is absent, with
DISTRICT_MEMBER, until it is heard again. The model's own choices that it rests on: log entries 148. -/
def Obligations.DistrictMembers : Prop :=
  ∀ s : State, s.Ready → s.dev.dstOn = true →
    (∀ f : List Byte, let n := fWord f 26 2
      let m := fByte f 6
      f.length = 36 + 4 * n * s.dev.L → n ≤ 64 → fWord f 0 4 = 0x46444C43 → fWord f 4 2 = 1 → m < 8 → m ≠ s.dev.dstMember →
      fWord f 10 2 = s.dev.fld Off.TWN_DST_CFG 15 0 → crc32c (f.take (32 + 4 * n * s.dev.L)) = fWord f (32 + 4 * n * s.dev.L) 4 →
      fWord f 28 4 % 256 = 0 → s.dev.twn.lead ≠ m + 1 → fByte f 9 % 2 = 0 → (∃ e < 4, s.dev.linkUp e = true) →
      mwf (fun _ => 0) s.dev.twn.memberAt = true → mwf (fun _ => 0) s.dev.twn.memberHealth = true →
      Completes (.districtFrameRx f) s (fun t => Beside s t ∧ mget (fun _ => 0) t.dev.twn.memberAt m = s.dev.clk.tick + 1 ∧
        mget (fun _ => 0) t.dev.twn.memberHealth m = fWord f 12 4 + 1 ∧ t.dev.samp = s.dev.samp ∧ t.dev.regs = s.dev.regs ∧ NewEvents s t [])) ∧
    (∀ f : List Byte, f.length < 36 ∨ fWord f 0 4 ≠ 0x46444C43 ∨ 8 ≤ fByte f 6 ∨ fByte f 6 = s.dev.dstMember ∨
        (∀ e < 4, s.dev.linkUp e = false) → Completes (.districtFrameRx f) s (fun t => Beside s t ∧ t.dev = s.dev)) ∧
    (∀ m < 8, mget (fun _ => 0) s.dev.twn.memberAt m ≠ 0 → m ∉ s.dev.twn.absent → mget (fun _ => 0) s.dev.twn.memberAt m + 7 ≤ s.dev.clk.tick →
      Completes (.districtMember m) s (fun t => Beside s t ∧ t.dev.twn = { s.dev.twn with absent := m :: s.dev.twn.absent } ∧
        t.dev.regs = s.dev.regs ∧ NewEvents s t [(0x0D0D, 0, 256 + m)])) ∧
    (∀ m < 8, mget (fun _ => 0) s.dev.twn.memberAt m ≠ 0 → m ∈ s.dev.twn.absent → s.dev.clk.tick < mget (fun _ => 0) s.dev.twn.memberAt m + 7 →
      Completes (.districtMember m) s (fun t => Beside s t ∧ m ∉ t.dev.twn.absent ∧ (∀ y ≠ m, y ∈ t.dev.twn.absent ↔ y ∈ s.dev.twn.absent) ∧
        t.dev.regs = s.dev.regs ∧ NewEvents s t [(0x0D0D, 0, m)]))



/-! ### SDRAM -/

/-- R290, R300: enabling a channel with timing words that are not 0 and a configuration of R290, alike on both channels, initialises it;
with a timing word of 0 the write of EN = 1 has no effect; a configuration refused leaves EN 0, and on a channel in use has no effect, while
one of the channel's own form is taken; EN = 0 takes it out of use. R303: the timing set changes on both channels, which close every row and
hold commands for at most 30 µs; while rendering the change is refused with an event. R297 to R300, R302, R303: each of these is of its own
time, before which nothing happens. A refresh interval that has passed is issued to a rank without requests, closing its rows (in same-bank
mode those of the banks it takes), and owed to a busy one or to one whose commands are held, by at most 4 intervals; MR4 is kept every 32
ms; a window's end clears the activation counts and lifts every throttle, held requests staying held; tracking holds commands 2 µs; the
scrubber reads granule after granule; a rank idle for PD_IDLE enters power-down with its rows closed. The model's own choices that it rests
on: log entries 109, 111, 112, 199. -/
def Obligations.SdramEnableAndUpkeep : Prop :=
  (∀ (m : Master) (c : Nat) (s : State), s.Ready → c < 2 → mwf (fun _ => DmcCh.init) s.dev.dmc = true →
     (∀ v : Word, s.Trusts m (Off.DMC_CTL c) →
       (v.getLsbD 31 = true → (∃ w < 16, s.dev.tsetWord s.dev.dmcSetB c w = 0) →
         Completes (.dmcEnable m c v) s (fun t => Beside s t ∧ t.dev.regs = s.dev.regs ∧ t.dev.dmc = s.dev.dmc ∧ NewEvents s t [])) ∧
       (v.getLsbD 31 = true → s.dev.dmcEn c = false → (∀ w < 16, s.dev.tsetWord s.dev.dmcSetB c w ≠ 0) →
         dmcConfigOk (getBits v 25 24) (getBits v 23 23) = true →
         s.dev.dmcEn (1 - c) = false ∨ getBits v 25 23 = s.dev.fld (Off.DMC_CTL (1 - c)) 25 23 → (s.dev.dch c).stalled = [] →
         Completes (.dmcEnable m c v) s (fun t => Beside s t ∧ t.dev.dmcEn c = true ∧ t.dev.bit (Off.DMC_CTL c) 30 = true ∧
           t.dev.fld (Off.DMC_CTL c) 25 23 = getBits v 25 23 ∧ t.dev.dmcEn (1 - c) = s.dev.dmcEn (1 - c) ∧ t.dev.sdram = s.dev.sdram ∧
           (t.dev.dch c).open_ = [] ∧ (t.dev.dch c).acts = [] ∧ (t.dev.dch c).winAt = s.dev.nsNow ∧
           (∀ rank < 2, mget (fun _ => 0) (t.dev.dch c).refAt rank = s.dev.nsNow) ∧ t.dev.dch (1 - c) = s.dev.dch (1 - c) ∧
           NewEvents s t [])) ∧
       (v.getLsbD 31 = true → s.dev.dmcEn c = false → (∀ w < 16, s.dev.tsetWord s.dev.dmcSetB c w ≠ 0) →
         dmcConfigOk (getBits v 25 24) (getBits v 23 23) = false ∨
           (s.dev.dmcEn (1 - c) = true ∧ getBits v 25 23 ≠ s.dev.fld (Off.DMC_CTL (1 - c)) 25 23) →
         Completes (.dmcEnable m c v) s (fun t => Beside s t ∧ t.dev.dmcEn c = false ∧ t.dev.bit (Off.DMC_CTL c) 30 = false ∧ NewEvents s t [])) ∧
       (v.getLsbD 31 = true → s.dev.dmcEn c = true →
         dmcConfigOk (getBits v 25 24) (getBits v 23 23) = false ∨
           (s.dev.dmcEn (1 - c) = true ∧ getBits v 25 23 ≠ s.dev.fld (Off.DMC_CTL (1 - c)) 25 23) →
         Completes (.dmcEnable m c v) s (fun t => Beside s t ∧ t.dev.regs = s.dev.regs ∧ t.dev.dmc = s.dev.dmc ∧ NewEvents s t [])) ∧
       (v.getLsbD 31 = true → s.dev.dmcEn c = true → (∀ w < 16, s.dev.tsetWord s.dev.dmcSetB c w ≠ 0) →
         dmcConfigOk (getBits v 25 24) (getBits v 23 23) = true →
         s.dev.dmcEn (1 - c) = false ∨ getBits v 25 23 = s.dev.fld (Off.DMC_CTL (1 - c)) 25 23 →
         Completes (.dmcEnable m c v) s (fun t => Beside s t ∧ t.dev.dmcEn c = true ∧ t.dev.fld (Off.DMC_CTL c) 25 23 = getBits v 25 23 ∧
           t.dev.bit (Off.DMC_CTL c) 30 = s.dev.bit (Off.DMC_CTL c) 30 ∧ t.dev.dmc = s.dev.dmc ∧ NewEvents s t [])) ∧
       (v.getLsbD 31 = false →
         Completes (.dmcEnable m c v) s (fun t => Beside s t ∧ t.dev.dmcEn c = false ∧ t.dev.dmc = s.dev.dmc ∧
           (t.dev.rd (Off.DMC_SIZE 0)).toNat = 0 ∧ NewEvents s t []))) ∧
     (∀ b, s.Trusts m (Off.DMC_PWR 0) → s.dev.dmcSetB = !b → s.dev.bit (Off.DMC_PWR 0) 0 = true → s.dev.rendering = false →
       Completes (.timingSetChange m b) s (fun t => Beside s t ∧ t.dev.dmcSetB = b ∧ t.dev.bit (Off.DMC_PWR 0) 31 = b ∧
         t.dev.bit (Off.DMC_PWR 1) 31 = b ∧ (t.dev.dch c).open_ = [] ∧ (t.dev.dch c).owed = [] ∧
         (t.dev.dch c).holdTo = max (s.dev.dch c).holdTo (s.dev.nsNow + 30000) ∧ (t.dev.dch c).srTo = s.dev.nsNow + 30000 ∧ (t.dev.dch c).rq = (s.dev.dch c).rq ∧
         (t.dev.dch c).wq = (s.dev.dch c).wq ∧ SameRegsBut [Off.DMC_PWR 0, Off.DMC_PWR 1] s t ∧ NewEvents s t [])) ∧
     (∀ b, s.Trusts m (Off.DMC_PWR 0) → s.dev.dmcSetB = !b → s.dev.bit (Off.DMC_PWR 0) 0 = true → s.dev.rendering = true →
       Completes (.timingSetChange m b) s (fun t => Beside s t ∧ t.dev.dmcSetB = s.dev.dmcSetB ∧ t.dev.dmc = s.dev.dmc ∧
         NewEvents s t [(0x0E04, 0, 0)]))) ∧
  (∀ (c rank : Nat) (s : State), s.Ready → c < 2 → rank < 2 → mwf (fun _ => DmcCh.init) s.dev.dmc = true → s.dev.dmcEn c = true →
     let x := s.dev.dch c
     let busy := ∃ r ∈ x.rq ++ x.wq, s.dev.dmcRank c r.granule = rank
     let waiting := busy ∨ ∃ w ∈ x.stalled, s.dev.dmcRank c w.granule = rank
     let early (cmd : Instr) := Completes cmd s (fun t => Beside s t ∧ t.dev = s.dev)
     let owed := mget (fun _ => 0) x.owed rank
     let sameBank := s.dev.bit (Off.DMC_CTL c) 29
     let closes (b : Nat) := b / 32 == rank && (!sameBank || sbCloses (mget (fun _ => 0) x.sbNext rank) (owed + 1) b)
     (s.dev.dmcRefDue c rank = false → early (.refresh c rank)) ∧
     (s.dev.dmcRefDue c rank = true → mwf (fun _ => 0) x.owed = true → mwf (fun _ => 0) x.refAt = true →
       let counted (t : State) := mget (fun _ => 0) (t.dev.dch c).refAt rank = mget (fun _ => 0) x.refAt rank + s.dev.dmcIntervalNs c rank ∧
         t.dev.regs = s.dev.regs ∧ NewEvents s t []
       (x.holdTo ≤ s.dev.nsNow → ¬ busy ∨ 4 ≤ owed → Completes (.refresh c rank) s (fun t => Beside s t ∧ counted t ∧
         mget (fun _ => 0) (t.dev.dch c).owed rank = 0 ∧ (t.dev.dch c).open_ = mkeep (fun b => !closes b) x.open_)) ∧
       (s.dev.nsNow < x.holdTo ∨ (busy ∧ owed < 4) → Completes (.refresh c rank) s (fun t => Beside s t ∧ counted t ∧
         mget (fun _ => 0) (t.dev.dch c).owed rank = owed + 1 ∧ (t.dev.dch c).open_ = x.open_))) ∧
     (∀ v < 256, let due := mget (fun _ => 0) x.mr4At rank + ms32 ≤ s.dev.nsNow
       (due → mwf (fun _ => 0) x.mr4 = true → Completes (.mr4Poll c rank v) s (fun t => Beside s t ∧
         mget (fun _ => 0) (t.dev.dch c).mr4 rank = v ∧ t.dev.regs = s.dev.regs ∧ NewEvents s t [])) ∧
       (¬ due → early (.mr4Poll c rank v))) ∧
     (s.dev.nsNow < x.winAt + ms32 → early (.rhWindowEnd c)) ∧
     (x.winAt + ms32 ≤ s.dev.nsNow → Completes (.rhWindowEnd c) s (fun t => Beside s t ∧ (t.dev.dch c).acts = [] ∧ (t.dev.dch c).thr = [] ∧
       (t.dev.rd (Off.DMC_THR c)) = 0 ∧ (t.dev.dch c).winAt = x.winAt + ms32 ∧
       (t.dev.dch c).rq = x.rq.map (fun r => { r with held := r.held || x.thr.contains (s.dev.dmcPair c r) }) ∧
       SameRegsBut [Off.DMC_STAT c, Off.DMC_PWR c, Off.DMC_THR c] s t ∧ NewEvents s t [])) ∧
     (s.dev.nsNow < x.trackAt + s.dev.dmcTrackNs c → early (.dqsTracking c)) ∧
     (x.trackAt + s.dev.dmcTrackNs c ≤ s.dev.nsNow → Completes (.dqsTracking c) s (fun t => Beside s t ∧ t.dev.dch c = { x with
         holdTo := max x.holdTo (s.dev.nsNow + 2000)
         trackAt := s.dev.nsNow } ∧ t.dev.regs = s.dev.regs ∧ NewEvents s t [])) ∧
     (s.dev.bit (Off.DMC_CTL c) 28 = false ∨ s.dev.dmcScrubDue c = false → early (.scrubRead c)) ∧
     (s.dev.bit (Off.DMC_CTL c) 28 = true → s.dev.dmcScrubDue c = true → (∀ w ∈ x.stalled, w.req ≠ 13) → x.rq.length < 64 →
       Completes (.scrubRead c) s (fun t => Beside s t ∧ (t.dev.dch c).scrub = (x.scrub + 1) % s.dev.dmcGranules c ∧
       (t.dev.dch c).rq = x.rq ++ [⟨x.seq, granuleOf c x.scrub, 13, s.dev.nsNow, [], none, false, false,
         getBytes s.dev.sdram (128 * granuleOf c x.scrub) 128, false, []⟩] ∧ t.dev.sdram = s.dev.sdram ∧ NewEvents s t [])) ∧
     (s.dev.dmcIdle c rank = false ∨ waiting → early (.rankPowerDown c rank)) ∧
     (s.dev.bit (Off.DMC_PWR c) 0 = true → s.dev.dmcIdle c rank = true → ¬ waiting → rank ∉ x.pd →
       Completes (.rankPowerDown c rank) s (fun t => Beside s t ∧
       (t.dev.dch c).pd = x.pd ++ [rank] ∧ (t.dev.dch c).open_ = mkeep (fun b => b / 32 != rank) x.open_ ∧
       t.dev.bit (Off.DMC_PWR c) 29 = true ∧ SameRegsBut [Off.DMC_STAT c, Off.DMC_PWR c, Off.DMC_THR c] s t ∧ NewEvents s t [])))

/-- R291, R293, R295, R296: on the channel of its granule, an accepted read joins the read queue with the granule as the writes accepted
before it leave it; a write stores its strobed bytes and joins the write queue, or the entry of its granule that has not begun, is
acknowledged, overtakes the reads of its granule accepted before it, and leaves no correction of it to be written back (R304); a request
that finds its queue full, the channel out of use or an earlier one of its requester stalled, stalls behind it and stores nothing. R294,
R297: an issued read leaves its queue for those in flight, its bank's row opened; aged reads go first, then those whose row is open. While
the queue drains the first write is issued: one of part of a beat after its read, any other at once. R293, R301: a read in flight returns
its data; corrected beats are counted, the first reported, and their granule waits to be written back unless a later write to it was
accepted; an uncorrectable beat is counted, captured, raised and remembered, unless a later write has covered it whole. R297, R298: the
table of a bank counts the activations of a row; a bank whose table is full counts every other row down. The activation that brings a row to
RH_TH throttles its requester on that bank, once a window, but never the scrubber; one at the instant at which a window ends counts in
neither. A throttled request, and one held from the window before, is issued no sooner than RH_DELAY ns after the last issue of its
requester to its bank. The model's own choices that it rests on: log entries 105, 106, 107, 113. -/
def Obligations.SdramRequestsAndReturns : Prop :=
  (∀ (c₀ g req : Nat) (s : State), s.Ready → c₀ < 2 → req < 14 → mwf (fun _ => DmcCh.init) s.dev.dmc = true → mwf (fun _ => 0) s.dev.sdram = true →
     let c := granuleCh g
     let x := s.dev.dch c
     let served := s.dev.dmcEn c = true ∧ (∀ w ∈ x.stalled, w.req ≠ req)
     let stalls (op : DmcOp) := Completes (.sdramRequest c₀ g req op) s (fun t => Beside s t ∧ t.dev.sdram = s.dev.sdram ∧
       (t.dev.dch c).rq = x.rq ∧ (t.dev.dch c).wq = x.wq ∧ (t.dev.dch c).stalled = x.stalled ++ [⟨g, req, op⟩] ∧
       SameRegsBut [Off.DMC_STAT c, Off.DMC_PWR c, Off.DMC_THR c] s t ∧ NewEvents s t [])
     let stores (bs : List (Option Byte)) (wq : List DmcReq) := Completes (.sdramRequest c₀ g req (.write bs)) s (fun t => Beside s t ∧
       (∀ a, bget t.dev.sdram a = if 128 * g ≤ a ∧ a < 128 * g + 128 then (bs.getD (a - 128 * g) none).getD (bget s.dev.sdram a)
         else bget s.dev.sdram a) ∧
       (t.dev.dch c).wq = wq ∧ (t.dev.dch c).rq = x.rq.map (DmcReq.overtaken g) ∧ (t.dev.dch c).flight = x.flight.map (DmcReq.overtaken g) ∧
       (t.dev.dch c).ack = some (g, req) ∧ (t.dev.dch c).wback = x.wback.filter (fun w => w.1 != g) ∧
       (t.dev.dch c).stalled = x.stalled ∧ NewEvents s t [])
     (∀ flow, served → x.rq.length < 64 → Completes (.sdramRequest c₀ g req (.read flow)) s (fun t => Beside s t ∧ t.dev.sdram = s.dev.sdram ∧
       (t.dev.dch c).rq = x.rq ++ [⟨x.seq, g, req, s.dev.nsNow, [], flow, false, false, getBytes s.dev.sdram (128 * g) 128, false, []⟩] ∧
       (t.dev.dch c).wq = x.wq ∧ (t.dev.dch c).seq = x.seq + 1 ∧
       SameRegsBut [Off.DMC_STAT c, Off.DMC_PWR c, Off.DMC_THR c] s t ∧ NewEvents s t [])) ∧
     (∀ flow, ¬ served ∨ 64 ≤ x.rq.length → stalls (.read flow)) ∧
     (∀ bs : List (Option Byte), bs.length = 128 →
       (served → (∀ r ∈ x.wq, joinable g r = false) → x.wq.length < 32 →
         stores bs (x.wq ++ [⟨x.seq, g, req, s.dev.nsNow, strobesOf bs, none, false, false, [], false, []⟩])) ∧
       (served → (∃ r ∈ x.wq, joinable g r = true) →
         stores bs (x.wq.map (fun r => if joinable g r then { r with strobes := orStrobes r.strobes (strobesOf bs) } else r))) ∧
       (¬ served ∨ ((∀ r ∈ x.wq, joinable g r = false) ∧ 32 ≤ x.wq.length) → stalls (.write bs)))) ∧
  (∀ (c : Nat) (r : DmcReq) (s : State), s.Ready → c < 2 → mwf (fun _ => DmcCh.init) s.dev.dmc = true →
     let x := s.dev.dch c
     (s.dev.dmcEn c = true → x.holdTo ≤ s.dev.nsNow → (∀ k, mget (fun _ => 0) x.owed k ≤ 4) → x.stalled = [] →
       s.dev.fld (Off.DMC_RH_TH c) 15 0 = 0 → mwf (fun _ => 0) x.open_ = true →
       let opened (t : State) := mget (fun _ => 0) (t.dev.dch c).open_ (s.dev.dmcBank c r.granule) = s.dev.dmcRow c r.granule + 1 ∧
         t.dev.sdram = s.dev.sdram ∧ NewEvents s t []
       (∀ beats, x.drain = false → s.dev.dmcPickRead c = some r → Completes (.dmcIssue c beats) s (fun t => Beside s t ∧ opened t ∧
         (t.dev.dch c).flight = x.flight ++ [r] ∧ (t.dev.dch c).rq = x.rq.filter (fun q => q.seq != r.seq) ∧ (t.dev.dch c).wq = x.wq)) ∧
       (∀ rest, x.drain = true → x.wq = r :: rest → s.dev.dmcHeld c r = false →
         (∀ beats, r.begun = true ∨ partBeats r.strobes = [] → Completes (.dmcIssue c beats) s (fun t => Beside s t ∧ opened t ∧
           (t.dev.dch c).wq = rest ∧ (t.dev.dch c).rq = x.rq ∧
           (t.dev.dch c).flight = x.flight.map (DmcReq.covered r.granule (wholeBeats r.strobes)))) ∧
         (r.begun = false → partBeats r.strobes ≠ [] → (∀ b < 16, (16 * r.granule + b) ∉ s.dev.poison) →
           Completes (.dmcIssue c []) s (fun t => Beside s t ∧ opened t ∧ (t.dev.dch c).wq = { r with begun := true } :: rest ∧
             (t.dev.dch c).rq = x.rq ∧ (t.dev.dch c).flight = x.flight ∧ t.dev.poison = s.dev.poison)))) ∧
     (s.dev.dmcPickRead c = some r → r ∈ x.rq ∧ x.waits r = false ∧
       (∀ q ∈ x.rq, x.waits q = false → s.dev.dmcHeld c q = false → q.at_ + 1000 ≤ s.dev.nsNow → r.at_ + 1000 ≤ s.dev.nsNow) ∧
       (∀ q ∈ x.rq, x.waits q = false → s.dev.dmcHeld c q = false → s.dev.dmcOpen c q = true →
         r.at_ + 1000 ≤ s.dev.nsNow ∨ s.dev.dmcOpen c r = true)) ∧
     (x.nextReturn = some r → (∀ b < 16, (16 * r.granule + b) ∉ s.dev.poison) → r.granule < 2 ^ 29 →
       let scrub := if r.req = 13 then 2 ^ 30 else 0
       (Completes (.readDataReturn c []) s (fun t => Beside s t ∧ (t.dev.dch c).ret = some ⟨r.granule, r.req, false, r.data⟩ ∧
         (t.dev.dch c).flight = x.flight.filter (fun q => q.seq != r.seq) ∧ t.dev.poison = s.dev.poison ∧
         t.dev.regs = s.dev.regs ∧ NewEvents s t [])) ∧
       Completes (.readDataReturn c [.corrected]) s (fun t => Beside s t ∧ (t.dev.dch c).ret = some ⟨r.granule, r.req, false, r.data⟩ ∧
         t.dev.poison = s.dev.poison ∧ (t.dev.dch c).wback = x.wback ++ (if r.later = true then [] else [(r.granule, r.req)]) ∧
         t.dev.fld (Off.DMC_ECC_STAT c) 31 16 = min (s.dev.fld (Off.DMC_ECC_STAT c) 31 16 + 1) 65535 ∧
         SameRegsBut [Off.DMC_ECC_STAT c] s t ∧
         NewEvents s t (if x.ceAt = 0 ∨ x.ceAt + 2999 < s.dev.clk.tick + 1 then [(0x0E02, c, c * 2 ^ 31 + r.granule)] else [])) ∧
       (s.dev.bit (Off.DMC_ECC_ADDR c) 31 = false →
         Completes (.readDataReturn c [.fatal]) s (fun t => Beside s t ∧ (t.dev.dch c).ret = some ⟨r.granule, r.req, true, r.data⟩ ∧
           (0 ∉ r.whole → 16 * r.granule ∈ t.dev.poison) ∧ (0 ∈ r.whole → t.dev.poison = s.dev.poison) ∧ t.dev.fld (Off.DMC_ECC_STAT c) 15 0 = min (s.dev.fld (Off.DMC_ECC_STAT c) 15 0 + 1) 65535 ∧
           (t.dev.rd (Off.DMC_ECC_ADDR c)).toNat = 2 ^ 31 + r.granule ∧ SameRegsBut [Off.DMC_ECC_STAT c, Off.DMC_ECC_ADDR c] s t ∧
           NewEvents s t [(0x0E03, c, c * 2 ^ 31 + scrub + r.granule)])))) ∧
  ((∀ (t : NMap Nat) (row : Nat), mwf (fun _ => 0) t = true →
     let n (r : Nat) := mget (fun _ => 0) t r
     let n' (r : Nat) := mget (fun _ => 0) (rhCount t row) r
     (n row ≠ 0 ∨ t.length < 16 → n' row = n row + 1 ∧ ∀ r, r ≠ row → n' r = n r) ∧
     (n row = 0 → 16 ≤ t.length → ∀ r, n' r = n r - 1)) ∧
   (∀ (c : Nat) (r : DmcReq) (beats : List EccBeat) (s : State), s.Ready → c < 2 → mwf (fun _ => DmcCh.init) s.dev.dmc = true →
     let x := s.dev.dch c
     s.dev.dmcEn c = true → x.holdTo ≤ s.dev.nsNow → (∀ k, mget (fun _ => 0) x.owed k ≤ 4) → x.stalled = [] → x.drain = false →
     s.dev.dmcPickRead c = some r → s.dev.dmcOpen c r = false → s.dev.fld (Off.DMC_RH_TH c) 15 0 ≠ 0 → r.req < 14 →
     mwf (fun _ => []) x.acts = true → mwf (fun _ => 0) x.lastIss = true →
     let bank := s.dev.dmcBank c r.granule
     let row := s.dev.dmcRow c r.granule
     let now := rhCount (mget (fun _ => []) x.acts bank) row
     let marks := mget (fun _ => 0) now row = s.dev.fld (Off.DMC_RH_TH c) 15 0 ∧ r.req ≠ 13 ∧ s.dev.dmcPair c r ∉ x.thr
     let issued (t : State) := Beside s t ∧ (t.dev.dch c).flight = x.flight ++ [r] ∧
       mget (fun _ => 0) (t.dev.dch c).lastIss (s.dev.dmcPair c r) = s.dev.nsNow + 1
     let counted (t : State) := mget (fun _ => []) (t.dev.dch c).acts bank = now ∧
       ∀ b, b ≠ bank → mget (fun _ => []) (t.dev.dch c).acts b = mget (fun _ => []) x.acts b
     (s.dev.nsNow < x.winAt + ms32 → marks → Completes (.dmcIssue c beats) s (fun t => issued t ∧ counted t ∧
       (t.dev.dch c).thr = x.thr ++ [s.dev.dmcPair c r] ∧ t.dev.bit (Off.DMC_THR c) r.req = true ∧
       NewEvents s t [(0x0E01, c, r.req * 2 ^ 28 + c * 2 ^ 27 + s.dev.dmcRank c r.granule * 2 ^ 26 + (bank % 32) * 2 ^ 21 + row)])) ∧
     (s.dev.nsNow < x.winAt + ms32 → ¬ marks → Completes (.dmcIssue c beats) s (fun t => issued t ∧ counted t ∧ (t.dev.dch c).thr = x.thr ∧
       NewEvents s t [])) ∧
     (s.dev.nsNow = x.winAt + ms32 → Completes (.dmcIssue c beats) s (fun t => issued t ∧ (t.dev.dch c).acts = [] ∧ (t.dev.dch c).thr = [] ∧
       (t.dev.dch c).winAt = s.dev.nsNow ∧ NewEvents s t []))) ∧
   (∀ (d : Dev) (c : Nat) (r : DmcReq), d.dmcPickRead c = some r → d.dmcPair c r ∈ (d.dch c).thr ∨ r.held = true →
     let last := mget (fun _ => 0) (d.dch c).lastIss (d.dmcPair c r)
     last = 0 ∨ last - 1 + d.fld (Off.DMC_RH_DELAY c) 15 0 ≤ d.nsNow))



/-! ### Resets, power states and the Lamplighter -/

/-- R333, R335, R341, R357: a reset that acts at once holds the device, records its cause and LAST, its code, and, for a rail, the rail, and
returns every register but the Lamplighter's (LMP_WDOG_CFG apart) and SYS_RESET_CAUSE to its reset value; a power-on reset returns them all.
OTP and flash stay. R333, R334, R341: a thermal reset is announced, and holds the device after it acts until the junction has cooled; the
announcement ends with the reset, its cause recorded. R333: a junction at WARN or above is reported once, and 5 °C below it again. R328,
R351: a kick with the key restarts the count, one without it and a count that reaches 0 announce a watchdog reset, code 5, as a lockstep
mismatch does; with EN = 0, paused, or before the count is 0 nothing happens. The model's own choices that it rests on: log entries 13, 132,
133, 135. -/
def Obligations.ResetsAndWatchdog : Prop :=
  (∀ s : State, mwf regReset s.dev.regs = true →
     let cleared (code : Nat) (t : State) := Beside s t ∧ t.dev.lmp.pwr = .held none ∧ t.dev.isUp = false ∧ t.dev.bit Off.SYS_RESET_CAUSE code = true ∧
       (∀ o, o ≠ Off.SYS_RESET_CAUSE → t.dev.rd o = if keptReg o then s.dev.rd o else regReset o) ∧ t.dev.sram = [] ∧ t.dev.sdram = [] ∧
       t.dev.div.resident = [] ∧ t.dev.clk.valid = false ∧ t.dev.evt.raised = []
     Completes .por s (fun t => Beside s t ∧ t.dev.lmp.pwr = .held none ∧ t.dev.rd Off.SYS_RESET_CAUSE = 0x10000002 ∧
       (∀ o, o ≠ Off.SYS_RESET_CAUSE → t.dev.rd o = regReset o) ∧ t.dev.sram = [] ∧ t.dev.evt.raised = []) ∧
     (s.dev.powered = true → s.dev.sys.failing = [] →
       Completes .brownout s (fun t => cleared 2 t ∧ t.dev.fld Off.SYS_RESET_CAUSE 31 28 = 2) ∧
       Completes .refclkLoss s (fun t => cleared 9 t ∧ t.dev.fld Off.SYS_RESET_CAUSE 31 28 = 9) ∧
       Completes .resetN s (fun t => cleared 3 t ∧ t.dev.fld Off.SYS_RESET_CAUSE 31 28 = 3) ∧
       (∀ rail < 16, Completes (.railFault rail) s (fun t => cleared 7 t ∧ t.dev.fld Off.SYS_RESET_CAUSE 31 28 = 7 ∧
         t.dev.fld Off.SYS_RESET_CAUSE 27 24 = rail)))) ∧
  (∀ s : State, s.Ready →
     (s.dev.sys.failing = [] → Completes .thermalReset s (fun t => Beside s t ∧ t.dev.sys.failing = [8] ∧ t.dev.lmp.hot = true ∧
       t.dev.isUp = true ∧ SameRegsBut [Off.TWN_CLAIM] s t)) ∧
     Completes .thermalRelease s (fun t => Beside s t ∧ t.dev = { s.dev with lmp := { s.dev.lmp with hot := false } }) ∧
     (∀ code, 2 ≤ code → code < 16 → s.dev.sys.failing = [code] → code ≠ 7 → Completes .failingHoldbackEnd s (fun t => Beside s t ∧
       t.dev.lmp.pwr = .held none ∧ t.dev.lmp.hot = s.dev.lmp.hot ∧ t.dev.bit Off.SYS_RESET_CAUSE code = true ∧
       t.dev.fld Off.SYS_RESET_CAUSE 31 28 = code ∧ t.dev.sys.failing = [] ∧
       (∀ o, o ≠ Off.SYS_RESET_CAUSE → t.dev.rd o = if keptReg o then s.dev.rd o else regReset o))) ∧
     (∀ temp : Int, -32768 ≤ temp → temp < 32768 →
       let warn := min 0x348 (signedOf 16 (s.dev.fld Off.PWR_TEMP_CFG 15 0))
       (s.dev.sys.warnHot = false → warn ≤ temp → Completes (.thermalWarn temp) s (fun t => Beside s t ∧
         t.dev.fld Off.PWR_TEMP 15 0 = toSigned 16 temp ∧ t.dev.sys = { s.dev.sys with warnHot := true } ∧ SameRegsBut [Off.PWR_TEMP] s t ∧
         NewEvents s t [(0x0201, 0, 2 ^ 31 + toSigned 16 temp)])) ∧
       (s.dev.sys.warnHot = true → temp ≤ warn - 40 → Completes (.thermalWarn temp) s (fun t => Beside s t ∧
         t.dev.sys = { s.dev.sys with warnHot := false } ∧ SameRegsBut [Off.PWR_TEMP] s t ∧ NewEvents s t [(0x0201, 0, toSigned 16 temp)])) ∧
       (s.dev.sys.warnHot = false → temp < warn → Completes (.thermalWarn temp) s (fun t => Beside s t ∧
         t.dev.fld Off.PWR_TEMP 15 0 = toSigned 16 temp ∧ t.dev.sys = s.dev.sys ∧ SameRegsBut [Off.PWR_TEMP] s t ∧ NewEvents s t [])))) ∧
  (∀ s : State, s.Ready → s.dev.sys.failing = [] →
     let fires (t : State) := Beside s t ∧ t.dev.sys.failing = [5] ∧ t.dev.lmp.wdog = 0 ∧ t.dev.isUp = true ∧ SameRegsBut [Off.TWN_CLAIM] s t
     (∀ (m : Master) (v : Word), s.Trusts m Off.LMP_WDOG_KICK →
       (getBits v 15 0 = 0x5EED → Completes (.wdogKick m v) s (fun t => Beside s t ∧
         t.dev.lmp = { s.dev.lmp with wdog := max 1 (s.dev.fld Off.LMP_WDOG_CFG 15 0) * 1000000 } ∧ t.dev.sys.failing = [] ∧
         NewEvents s t [])) ∧
       (getBits v 15 0 ≠ 0x5EED → Completes (.wdogKick m v) s fires)) ∧
     (s.dev.bit Off.LMP_WDOG_CFG 31 = true → s.dev.wdogPaused = false → s.dev.lmp.wdog = 0 → Completes .watchdog s fires) ∧
     (s.dev.bit Off.LMP_WDOG_CFG 31 = false ∨ s.dev.wdogPaused = true ∨ s.dev.lmp.wdog ≠ 0 →
       Completes .watchdog s (fun t => Beside s t ∧ t.dev = s.dev)) ∧
     Completes .lockstepMismatch s fires)

/-- R335, R336, R338: at release the straps are sampled and the device is up, with its TWIN_ID and the PCIe link, in the provisioning state
when no key slot is programmed, and with BOOT_SEL 1 the ROM waits for the host; a hot device stays held. The firmware's residence is tried
once it runs: the host's bytes, if they are what DIV_IMG_ADDR and DIV_IMG_LEN name, and the image that passes is resident, one that fails is
reported, and images are loaded from then on. R326, R327: the oscillator's fall to its RC and its return show in LMP_OSC and are reported;
the low RTC word waits with the others for the next RTC tick. R332: a Quarter idle for 16 ticks that the next slot does not prefer is gated;
a wake too late for a job is reported. The model's own choices that it rests on: log entries 13, 20, 146, 200, 205. -/
def Obligations.ReleaseAndLamplighter : Prop :=
  ((∀ (st : Straps) (s : State), mwf regReset s.dev.regs = true → s.dev.evt.fresh = [] → s.dev.lmp.pwr = .held none →
     (s.dev.lmp.hot = false → st.bootSel % 4 = 1 → s.dev.lmp.oscSay = [] → Completes (.resetRelease st) s (fun t => Beside s t ∧ t.dev.isUp = true ∧
       t.dev.straps = { st with bootSel := 1, bank33 := st.bank33 % 16 } ∧ t.dev.sys.waitHost = true ∧ t.dev.sys.waitTwin = false ∧
       t.dev.sys.provisioning = !(List.range 4).any (fun i => s.otp.programmed i) ∧ t.dev.fld Off.PWR_RAIL_STAT 11 8 = st.bank33 % 16 ∧
       t.dev.bit Off.TWN_STAT 28 = st.twinB ∧ t.dev.sys.pcieUp = true ∧ NewEvents s t [])) ∧
     (s.dev.lmp.hot = true → Completes (.resetRelease st) s (fun t => Beside s t ∧ t.dev = s.dev))) ∧
   (∀ (img : List Byte) (s : State), s.Ready → s.dev.sys.phase = 1 → s.dev.populated ≠ 0 → s.dev.sys.source = 1 → s.dev.imgBusy = true →
     s.dev.straps.bootSel = 1 →
     let named := (s.dev.rd Off.DIV_IMG_ADDR_LO).toNat % 8 = 0 ∧ img.length = (s.dev.rd Off.DIV_IMG_LEN).toNat
     let got := (s.dev.hostImage (some img)).getD []
     (named → got = img) ∧ (¬ named → got = []) ∧
     ((s.dev.firmwareCheck s.otp 1 got).2 = none → Completes (.firmwareResidenceFill (some img)) s (fun t =>
       t.dev.div.firmware = got ∧ t.dev.sys.phase = 2 ∧ t.dev.fld Off.DIV_IMG_STAT 31 28 = 2)) ∧
     (imgKind got ≠ 3 → Completes (.firmwareResidenceFill (some img)) s (fun t => Beside s t ∧ t.dev.div = s.dev.div ∧ t.dev.sys.phase = 2 ∧
       t.dev.fld Off.DIV_IMG_STAT 31 28 = 3 ∧ SameRegsBut [Off.DIV_IMG_STAT] s t ∧
       NewEvents s t [(0x1002, 0, 3 * 2 ^ 28 + 2 ^ 26 + imgKind got * 2 ^ 24)])))) ∧
  (∀ s : State, s.Ready →
     (s.dev.bit Off.LMP_OSC 31 = false → Completes .oscFallback s (fun t => Beside s t ∧ t.dev.bit Off.LMP_OSC 31 = true ∧
       SameRegsBut [Off.LMP_OSC] s t ∧ NewEvents s t [(0x0203, 0, 1)])) ∧
     (s.dev.bit Off.LMP_OSC 31 = true → Completes .oscRestored s (fun t => Beside s t ∧ t.dev.bit Off.LMP_OSC 31 = false ∧
       SameRegsBut [Off.LMP_OSC] s t ∧ NewEvents s t [(0x0203, 0, 0)])) ∧
     (∀ (m : Master) (v : Word), s.Trusts m Off.LMP_RTC_SEC_LO → Completes (.rtcWrite m v) s (fun t => Beside s t ∧
       t.dev.lmp = { s.dev.lmp with rtcNew := some v } ∧ t.dev.regs = s.dev.regs ∧ NewEvents s t [])) ∧
     (∀ q < 4, s.dev.bit Off.PWR_QGATE q = true → s.dev.quarterGated q = false → 16 ≤ s.dev.idleTicks q → s.dev.quarterListed q = false →
       s.dev.slotPrefers q (s.dev.clk.tick + 1) = false → s.dev.rd Off.ICX_SPARE_USE = 0 →
       Completes (.quarterGate q) s (fun t => Beside s t ∧ t.dev.quarterGated q = true ∧ t.dev.sys = s.dev.sys ∧
         SameRegsBut [Off.PWR_QGATE] s t ∧ NewEvents s t [])) ∧
     (∀ q < 4, s.dev.quarterGated q = true → mwf (fun _ => 0) s.dev.sys.idleTicks = true →
       Completes (.quarterWake q true) s (fun t => Beside s t ∧ t.dev.quarterGated q = false ∧ t.dev.idleTicks q = 0 ∧
         SameRegsBut [Off.PWR_QGATE] s t ∧ NewEvents s t [(0x0204, 0, q)]) ∧
       (s.dev.quarterListed q = false → s.dev.slotPrefers q (s.dev.clk.tick + 1) = true →
         Completes (.quarterWake q false) s (fun t => Beside s t ∧ t.dev.quarterGated q = false ∧ t.dev.idleTicks q = 0 ∧
           SameRegsBut [Off.PWR_QGATE] s t ∧ NewEvents s t []))))

/-- R331: a power request is refused while rendering, with PWR_REQ_REFUSED reason 1, and while an image is loading or a transfer runs,
reason 2; otherwise entry begins. R330: at its end NAP keeps Steward SRAM, with no image where no firmware was loaded, and HIBERNATE keeps
nothing. R330, R333: WAKE, the RTC alarm and the NAP timer end a low-power state, recorded in LMP_WAKE_STAT and as cause 10; a NAP keeps its
image until the ROM has checked it, and resumes with it when it is good. The timer does not wake from HIBERNATE. The model's own choices
that it rests on: log entries 134. -/
def Obligations.LowPowerAndWakes : Prop :=
  (∀ s : State, s.Ready →
     (∀ (m : Master) (nap : Bool), s.Trusts m Off.SYS_PWR_REQ → s.dev.sys.entering = 0 →
       let c := if nap then Instr.pwrReqNap m else Instr.pwrReqHibernate m
       (s.dev.rendering = true → Completes c s (fun t => Beside s t ∧ t.dev.fld Off.SYS_PWR_REQ 30 28 = 2 ∧ t.dev.sys.entering = 0 ∧
         SameRegsBut [Off.SYS_PWR_REQ] s t ∧ NewEvents s t [(0x0202, 0, 1)])) ∧
       (s.dev.rendering = false → s.dev.pipe.closure = none → s.dev.fld Off.DIV_IMG_STAT 31 28 = 1 →
         Completes c s (fun t => Beside s t ∧ t.dev.fld Off.SYS_PWR_REQ 30 28 = 3 ∧ t.dev.sys.entering = 0 ∧
           SameRegsBut [Off.SYS_PWR_REQ] s t ∧ NewEvents s t [(0x0202, 0, 2)])) ∧
       (s.dev.rendering = false → s.dev.pipe.closure = none → s.dev.fld Off.DIV_IMG_STAT 31 28 ≠ 1 → s.dev.twn.xfers = [] →
         Completes c s (fun t => Beside s t ∧ t.dev.fld Off.SYS_PWR_REQ 30 28 = 1 ∧ t.dev.sys.entering = (if nap then 1 else 2) ∧
           t.dev.fld Off.SYS_PWR_STATE 31 29 = 5 ∧ SameRegsBut [Off.SYS_PWR_REQ, Off.SYS_PWR_STATE] s t ∧ NewEvents s t []))) ∧
     (s.dev.sys.entering = 1 → s.dev.sys.phase = 0 ∨ s.dev.sys.phase = 3 → s.dev.lmp.wakeReq = none → Completes .lowPowerEntryDone s (fun t =>
       Beside s t ∧ t.dev.lmp.pwr = .nap none ∧ t.dev.lmp.napNs = 0 ∧ t.dev.sram = [])) ∧
     (s.dev.sys.entering = 1 → s.dev.sys.phase ≠ 0 → s.dev.sys.phase ≠ 3 → s.dev.lmp.wakeReq = none → Completes .lowPowerEntryDone s (fun t => Beside s t ∧
       t.dev.lmp.pwr = .nap (some ⟨s.dev.sram, s.dev.sys.source, s.dev.sys.entry⟩) ∧ t.dev.lmp.napNs = 0 ∧ t.dev.sram = [] ∧
       (∀ o, t.dev.rd o = if keptReg o then s.dev.rd o else regReset o))) ∧
     (s.dev.sys.entering = 2 → s.dev.lmp.wakeReq = none → Completes .lowPowerEntryDone s (fun t => Beside s t ∧ t.dev.lmp.pwr = .hibernate ∧
       t.dev.sram = [] ∧ (∀ o, t.dev.rd o = if keptReg o then s.dev.rd o else regReset o)))) ∧
  ((∀ (img : Option Retained) (s : State), mwf regReset s.dev.regs = true → s.dev.lmp.pwr = .nap img ∨ (s.dev.lmp.pwr = .hibernate ∧ img = none) →
     let woken (src : Nat) (t : State) := Beside s t ∧ t.dev.lmp.pwr = .held img ∧ t.dev.fld Off.LMP_WAKE_STAT 2 0 = src ∧
       t.dev.bit Off.SYS_RESET_CAUSE 10 = true ∧ t.dev.fld Off.SYS_RESET_CAUSE 31 28 = 10
     Completes .wake s (woken 1) ∧
     (s.dev.rd Off.LMP_RTC_ALARM_LO = s.dev.rd Off.LMP_RTC_SEC_LO → s.dev.rd Off.LMP_RTC_ALARM_HI = s.dev.rd Off.LMP_RTC_SEC_HI →
       s.dev.rd Off.LMP_RTC_ALARM_LO ≠ 0 → Completes .rtcAlarm s (woken 2)) ∧
     (s.dev.lmp.pwr = .nap img → s.dev.rd Off.LMP_NAP_TIMER ≠ 0 →
       ((s.dev.rd Off.LMP_NAP_TIMER).toNat * 1000000000 ≤ s.dev.lmp.napNs → Completes .napTimer s (woken 3)) ∧
       (s.dev.lmp.napNs < (s.dev.rd Off.LMP_NAP_TIMER).toNat * 1000000000 → s.dev.evt.fresh = [] →
         Completes .napTimer s (fun t => Beside s t ∧ t.dev = s.dev))) ∧
     (s.dev.lmp.pwr = .hibernate → s.dev.evt.fresh = [] → Completes .napTimer s (fun t => Beside s t ∧ t.dev = s.dev))) ∧
   (∀ (r : Retained) (s : State), s.Ready → s.dev.lmp.resume = some r → Completes (.napWakeResume true) s (fun t => Beside s t ∧
     t.dev.sram = r.sram ∧ t.dev.sys.phase = 1 ∧ t.dev.sys.source = r.source ∧ t.dev.lmp.resume = none ∧ t.dev.bit Off.SYS_CTL 0 = true ∧
     SameRegsBut [Off.SYS_CTL] s t ∧ NewEvents s t [])))



/-! ### The event ring and aborts -/

/-- R346 to R349: the oldest event is recorded at entry HEAD of a ring in Steward SRAM, which then advances modulo SIZE; an urgent code sets
URGENT. A full ring loses it, counted in EVT_LOST; a masked one leaves no trace; with EN = 0 it joins the 64-entry buffer. A write of
EVT_TAIL or EVT_CTL drives IRQ_N anew. The model's own choices that it rests on: log entries 38. -/
def Obligations.EventRecords : Prop :=
  (∀ (e : EvRec) (es : List EvRec) (s : State), s.Ready → s.dev.evt.raised = e :: es →
     (s.dev.masked e.code = true → Completes .evtRecordWrite s (fun t => Beside s t ∧
       t.dev = { s.dev with evt := { s.dev.evt with raised := es } })) ∧
     (s.dev.masked e.code = false → s.dev.bit Off.EVT_CTL 31 = false → s.dev.evt.lost = 0 → s.dev.evt.buf.length < 64 →
       Completes .evtRecordWrite s (fun t => Beside s t ∧
         t.dev = { s.dev with evt := { s.dev.evt with raised := es, buf := s.dev.evt.buf ++ [e] } })) ∧
     (s.dev.masked e.code = false → s.dev.bit Off.EVT_CTL 31 = true → s.dev.evtRoom = 0 →
       Completes .evtRecordWrite s (fun t => Beside s t ∧ t.dev.evt = { s.dev.evt with raised := es, lost := s.dev.evt.lost + 1 } ∧
         t.dev.sram = s.dev.sram ∧ t.dev.out = s.dev.out ∧
         (t.dev.rd Off.EVT_LOST).toNat = min ((s.dev.rd Off.EVT_LOST).toNat + 1) (2 ^ 32 - 1) ∧ SameRegsBut [Off.EVT_LOST] s t)) ∧
     (∀ o, s.dev.masked e.code = false → s.dev.bit Off.EVT_CTL 31 = true → s.dev.evt.lost = 0 → s.dev.evtRoom ≠ 0 →
       mwf (fun _ => 0) s.dev.sram = true → s.dev.sramOff (s.dev.evtBase + 16 * s.dev.fld Off.EVT_HEAD 11 0) = some o →
       Completes .evtRecordWrite s (fun t => Beside s t ∧ t.dev.evt.raised = es ∧ t.dev.evt.lost = 0 ∧
         (∀ a, bget t.dev.sram a = if o ≤ a ∧ a < o + 16 then e.bytes.getD (a - o) 0 else bget s.dev.sram a) ∧
         t.dev.fld Off.EVT_HEAD 11 0 = (s.dev.fld Off.EVT_HEAD 11 0 + 1) % s.dev.evtSize ∧
         t.dev.bit Off.EVT_STAT 31 = (s.dev.bit Off.EVT_STAT 31 || s.dev.urgent e.code) ∧
         SameRegsBut [Off.EVT_HEAD, Off.EVT_STAT] s t))) ∧
  (∀ s : State, s.Ready →
    let pins (t : State) := t.dev.out = s.dev.out ++ [.pin 10 t.dev.irq0, .pin 11 t.dev.irq1]
    (∀ m (v : Word), s.Trusts m Off.EVT_TAIL → s.dev.evt.lost = 0 → Completes (.evtTailWrite m v) s (fun t => Beside s t ∧
      t.dev.fld Off.EVT_TAIL 11 0 = getBits v 11 0 ∧ t.dev.evt = s.dev.evt ∧ pins t ∧ SameRegsBut [Off.EVT_TAIL] s t)) ∧
    (∀ m irq0, s.Trusts m Off.EVT_CTL → s.dev.bit Off.EVT_CTL 31 = false →
      (s.dev.evtBaseOk = false → Completes (.evtEnable m irq0) s (fun t => Beside s t ∧ t.dev.bit Off.EVT_CTL 31 = false ∧
        t.dev.evt = s.dev.evt ∧ pins t ∧ SameRegsBut [Off.EVT_CTL] s t)) ∧
      (s.dev.evtBaseOk = true → s.dev.evt.buf = [] → s.dev.evt.lost = 0 → Completes (.evtEnable m irq0) s (fun t => Beside s t ∧
        t.dev.bit Off.EVT_CTL 31 = true ∧ t.dev.bit Off.EVT_CTL 30 = irq0 ∧ t.dev.evt = s.dev.evt ∧ pins t ∧ SameRegsBut [Off.EVT_CTL] s t)) ∧
      (s.dev.evtBaseOk = true → s.dev.evt.lost = 0 → s.dev.evt.buf.length ≤ s.dev.evtRoom → s.dev.fld Off.EVT_HEAD 11 0 < s.dev.evtSize →
        Completes (.evtEnable m irq0) s (fun t => t.dev.evt.buf = [] ∧ t.dev.evt.lost = 0 ∧
          t.dev.fld Off.EVT_HEAD 11 0 = (s.dev.fld Off.EVT_HEAD 11 0 + s.dev.evt.buf.length) % s.dev.evtSize))))

/-- R352 to R354: an abort posts STATUS with KIND in SYS_ABORT_STAT and raises ABORT_DONE: NO_SUCH for an ID out of range, NOT_ACTIVE for an
idle target, and otherwise it ends its target and posts DONE_ABORTED: at once, or, BUSY until then, when the last of its running jobs
reports ABORTED; a stream's waits for the boundary. Queued SDRAM reads of an aborted flow are gone. A Closure of a running render begins,
BUSY. While a Closure runs every other abort is NOT_ACTIVE; GO is ignored while BUSY. The model's own choices that it rests on: log entries
17, 128, 129. -/
def Obligations.Aborts : Prop :=
  ∀ (m : Master) (id : Word) (s : State), s.Ready → s.Trusts m Off.SYS_ABORT_CMD → s.Trusts m Off.SYS_ABORT_ID →
    let n := id.toNat
    let result (k status : Nat) (t : State) := Beside s t ∧ t.dev.rd Off.SYS_ABORT_STAT = BitVec.ofNat 32 (status * 2 ^ 28 + k * 2 ^ 24) ∧
      t.dev.rd Off.SYS_ABORT_ID = id ∧ t.dev.fld Off.SYS_ABORT_CMD 2 0 = k ∧
      ⟨0x0105, 0, 0, status * 2 ^ 28 + k * 2 ^ 24, s.dev.clk.tick⟩ ∈ t.dev.evt.raised
    let posted (k status : Nat) (t : State) := result k status t ∧ NewEvents s t [(0x0105, 0, status * 2 ^ 28 + k * 2 ^ 24)]
    let still (k status : Nat) (t : State) := posted k status t ∧ t.dev.icx = s.dev.icx ∧ t.dev.obj = s.dev.obj ∧ t.dev.net = s.dev.net ∧
      t.dev.pipe = s.dev.pipe ∧ SameRegsBut [Off.SYS_ABORT_ID, Off.SYS_ABORT_CMD, Off.SYS_ABORT_STAT] s t
    let busy (k : Nat) (t : State) := Beside s t ∧ t.dev.bit Off.SYS_ABORT_STAT 31 = true ∧ t.dev.fld Off.SYS_ABORT_STAT 27 24 = k ∧
      t.dev.pipe.abort = some (k, n)
    let keysOf (js : List Job) := (js.filter (fun j => j.st == .running)).map (fun j => j.key)
    let ends (k : Nat) (js : List Job) (c : Instr) (P : State → Prop) :=
      ((∀ j ∈ js, j.st ≠ .running) → Completes c s (fun t => result k 1 t ∧ P t)) ∧
      ((∃ j ∈ js, j.st = .running) → Completes c s (fun t => busy k t ∧ t.dev.icx.stopping = keysOf js ∧ P t))
    let live := s.dev.icx.jobs.filter (fun j => j.key.flow == n && !j.st.over)
    let others : List Instr := [.abortJob m id false, .abortWarden m id, .abortStream m id, .abortFlow m id, .abortQuarter m id, .abortSdramFlow m id]
    (s.dev.bit Off.SYS_ABORT_STAT 31 = true → s.dev.toSettle = [] →
      s.dev.pipe.abort = none ∨ (∃ x, s.dev.pipe.abort = some (2, x)) ∨
        ((∃ j ∈ s.dev.icx.jobs, s.dev.icx.stopping.contains j.key = true ∧ j.st = .running) ∧
          ∀ j ∈ s.dev.icx.jobs, s.dev.icx.stopping.contains j.key = true → j.st = .running ∨ abortable true j = false) →
      ∀ c ∈ .closure m :: others, Completes c s (fun t => Beside s t ∧
      t.dev.icx = s.dev.icx ∧ t.dev.obj = s.dev.obj ∧ t.dev.net = s.dev.net ∧ t.dev.pipe = s.dev.pipe ∧
      SameRegsBut [Off.SYS_ABORT_ID, Off.SYS_ABORT_CMD] s t ∧ NewEvents s t [])) ∧
    (s.dev.bit Off.SYS_ABORT_STAT 31 = false → s.dev.Settled → s.dev.pipe.closure ≠ none → ∀ k < 6,
      Completes (others.getD k (.closure m)) s (still k 2)) ∧
    (s.dev.bit Off.SYS_ABORT_STAT 31 = false → s.dev.Settled → s.dev.pipe.closure = none →
     (∀ race, (4096 ≤ n ∨ s.dev.instanceOf n = [] → Completes (.abortJob m id race) s (still 0 3)) ∧
       (n < 4096 → s.dev.instanceOf n ≠ [] → (∀ j ∈ s.dev.instanceOf n, abortable false j = false) →
         Completes (.abortJob m id race) s (still 0 2)) ∧
       (n < 4096 → (∃ j ∈ s.dev.instanceOf n, abortable false j = true) →
         ends 0 (s.dev.instanceOf n) (.abortJob m id race) (fun t =>
           ∀ j ∈ t.dev.instanceOf n, j.st = .running ∨ j.st = .writing ∨ j.st = .faulted ∨ j.st.over = true))) ∧
     (8 ≤ n → Completes (.abortWarden m id) s (still 1 3)) ∧
     (n < 8 → s.dev.wdnBusy n = false → Completes (.abortWarden m id) s (still 1 2)) ∧
     (n < 8 → s.dev.wdnBusy n = true → Completes (.abortWarden m id) s (fun t => posted 1 1 t ∧ t.dev.wdnBusy n = false ∧
       SameRegsBut [Off.SYS_ABORT_ID, Off.SYS_ABORT_CMD, Off.SYS_ABORT_STAT, Off.WDN_STAT] s t)) ∧
     (512 ≤ n ∨ 128 ≤ n % 256 → Completes (.abortStream m id) s (still 2 3)) ∧
     (n < 512 → n % 256 < 128 → let tx := decide (256 ≤ n)
       let on (d : Dev) := if tx then d.txEn (n % 256) else d.rxEn (n % 256)
       (on s.dev = false → Completes (.abortStream m id) s (still 2 2)) ∧
       (on s.dev = true → Completes (.abortStream m id) s (fun t => busy 2 t ∧ on t.dev = true ∧
         t.dev.pendW = s.dev.pendW ++ [.streamOff tx (n % 256)] ∧
         SameRegsBut [Off.SYS_ABORT_ID, Off.SYS_ABORT_CMD, Off.SYS_ABORT_STAT] s t ∧ NewEvents s t []))) ∧
     (256 ≤ n → Completes (.abortFlow m id) s (still 3 3) ∧ Completes (.abortSdramFlow m id) s (still 5 3)) ∧
     (n < 256 → live = [] → Completes (.abortFlow m id) s (still 3 2) ∧ Completes (.abortSdramFlow m id) s (still 5 2)) ∧
     (n < 256 → live ≠ [] → ends 3 live (.abortFlow m id) (fun t => n ∈ t.dev.icx.fadeIn) ∧
       ends 5 live (.abortSdramFlow m id) (fun t => n ∈ t.dev.icx.fadeIn ∧ (mwf (fun _ => DmcCh.init) s.dev.dmc = true →
         ∀ c < 2, ∀ r ∈ (t.dev.dch c).rq, r.flow ≠ some n))) ∧
     (4 ≤ n → Completes (.abortQuarter m id) s (still 4 3)) ∧
     (n < 4 → s.dev.quarterFenced n = true → Completes (.abortQuarter m id) s (still 4 2)) ∧
     (n < 4 → s.dev.quarterFenced n = false → Completes (.abortQuarter m id) s (fun t => result 4 1 t ∧
       ∀ i < 8, (t.dev.square (8 * n + i)).fenced = true)) ∧
     (id = 0 → s.dev.rendering = false → Completes (.closure m) s (still 6 2)) ∧
     (id = 0 → s.dev.rendering = true → ∀ b, s.dev.pipe.from_ = some b → Completes (.closure m) s (fun t => Beside s t ∧
       t.dev.bit Off.SYS_ABORT_STAT 31 = true ∧ t.dev.fld Off.SYS_ABORT_STAT 27 24 = 6 ∧ t.dev.rendering = true ∧
       t.dev.pipe.closure = some 0 ∧ t.dev.pipe.closAbort = true ∧ t.dev.icx = s.dev.icx ∧ NewEvents s t []))) ∧
    (∀ (kind x sq runNs : Nat) (k : JobKey) (j : Job), s.dev.pipe.abort = some (kind, x) → kind < 8 → kind ≠ 2 → s.dev.icx.stopping = [k] →
      sq < 32 → (s.dev.square sq).run = some k → (s.dev.square sq).kerb = none → (s.dev.square sq).blocked = false →
      s.dev.job k = some j → j.st = .running → j.grant = none → s.dev.toSettle = [] →
      (∀ x ∈ s.dev.icx.jobs, ∀ y ∈ s.dev.icx.jobs, x.key = y.key → x = y) →
      Completes (.completionReport sq 2 false runNs none) s (fun t => Beside s t ∧ t.dev.pipe.abort = none ∧ t.dev.icx.stopping = [] ∧
        t.dev.fld Off.SYS_ABORT_STAT 31 28 = 1 ∧ t.dev.fld Off.SYS_ABORT_STAT 27 24 = kind ∧
        ∃ e ∈ t.dev.evt.raised, e.code = 0x0105 ∧ e.param = (t.dev.rd Off.SYS_ABORT_STAT).toNat))



/-! ### Every command -/

/-- A step takes the command at the front of the queue and answers what it does on the rest; on an empty queue a cycle of REFCLK passes (the
model's choice, log entry 9). -/
def Obligations.StepTakesTheFront : Prop :=
  (∀ (c : Instr) (rest : List Instr) (s : State), s.pending = c :: rest → step s = exec c { s with pending := rest }) ∧
  (∀ s : State, s.pending = [] → step s = .next s.idle)

/-- Every well-formed command answers a next state, whatever the state, and leaves the queue and no event behind that has not joined the
queue of events; one that names a unit the device does not have is the one fault, and nothing is refused. The model's own choices that it
rests on: log entries 155. -/
def Obligations.WellFormedCommandsComplete : Prop :=
  ∀ (c : Instr) (s : State), (c.wf = true → Completes c s (fun t => t.pending = s.pending ∧ t.dev.evt.fresh = [])) ∧
    (c.wf = false → exec c s = .fault .noSuchUnit)

/-- R329, R335: while the device is held in reset, in a low-power state or unpowered, a well-formed command that is none of the
Lamplighter's (resets, thermal sensor, REFCLK, straps at release, oscillator, wakes) has no effect at all. The model's own choices that it
rests on: log entries 13. -/
def Obligations.NothingActsWhileDown : Prop :=
  ∀ (c : Instr) (s : State), s.dev.isUp = false → s.dev.evt.fresh = [] → c.wf = true →
    (∀ st, c ≠ .resetRelease st) → (∀ r, c ≠ .railFault r) →
    c ∉ [.por, .brownout, .resetN, .thermalReset, .thermalRelease, .refclkLoss, .oscFallback, .oscRestored, .lowPowerEntryDone, .wake,
      .rtcAlarm, .napTimer] →
    exec c s = .next s

/-- R320: the OTP only moves one way. Whatever command a step performs, no fuse is blown back, no revocation is undone, no programmed hash
changes, and the identifier and the MAC addresses stay. -/
def Obligations.OtpMovesOneWay : Prop :=
  ∀ s : State, mwf (fun _ => []) s.otp.keys = true → ∀ t : State, step s = .next t →
    (s.otp.hostTrust = true → t.otp.hostTrust = true) ∧ (s.otp.dbgDisable = true → t.otp.dbgDisable = true) ∧
    s.otp.revoked ||| t.otp.revoked = t.otp.revoked ∧
    (∀ k, s.otp.programmed k = true → mget (fun _ => []) t.otp.keys k = mget (fun _ => []) s.otp.keys k) ∧
    t.otp.uid = s.otp.uid ∧ t.otp.mac = s.otp.mac ∧ t.flash = s.flash

/-- R320, R344, kept by every step: revocation never leaves the device without a usable key slot, the hashes are 48 bytes in one canonical
list, and no event waits to join the queue of events. -/
def Obligations.StepKeepsSound : Prop :=
  ∀ s : State, s.Sound → ∀ t : State, step s = .next t → t.Sound

/-- The state right after reset is sound. -/
def Obligations.ResetIsSound : Prop :=
  State.reset.Sound

/-- R305, R319, R320: while the device is up and only then the OTP changes, and only by a write that is secure as it is granted: of the
command's own master, of a burst a target port still holds or of one that the crossbar grants now; or by a record of SEC_PROG_CMD or
SEC_REVOKE in a plan image that has authenticated, which the loader performs (R27, R29). -/
def Obligations.OtpChangesOnlyBySecureWrites : Prop :=
  ∀ (c : Instr) (s : State), ∀ t : State, exec c s = .next t → t.otp ≠ s.otp → s.dev.isUp = true ∧
    let secureAt (k : Nat) (m : Master) := (s.portFree k).dev.secureOf (s.portFree k).otp m = true
    (∃ m, writer c = some m ∧ secureAt 2 m) ∨
    (∃ h ∈ s.dev.sys.held, h.2.req.write.isSome = true ∧ h.2.secure = true) ∨
    (∃ k bs, c = .crossbarGrant k bs ∧ ∃ b ∈ s.dev.sys.waiting ++ bs, b.write.isSome = true ∧ secureAt k b.master) ∨
    (∃ b r, s.PlanAtHand c b ∧ r ∈ imgRecs b ∧ r.burns = true)

/-- R333, R335 to R337, R8: the state right after the release of a power-on reset with blank OTP (the straps are the model's choice, log
entry 20): SYS_TICK 0, local time invalid, every register at its reset value but SYS_RESET_CAUSE, no plan, no rendering, nothing waiting, no
memory written. The model's own choices that it rests on: log entries 10, 20, 21, 199, 200, 210, 211. -/
def Obligations.ResetState : Prop :=
  let s := State.reset
  s.Ready ∧ s.pending = [] ∧ s.dev.clk.tick = 0 ∧ s.dev.clk.valid = false ∧ (∀ o, o ≠ Off.SYS_RESET_CAUSE → s.dev.rd o = regReset o) ∧
    s.dev.rd Off.SYS_RESET_CAUSE = 0x10000002 ∧ (∀ o, s.dev.re o = regReset o) ∧ s.dev.planValid = false ∧ s.dev.rendering = false ∧
    s.dev.pendW = [] ∧ s.dev.samp = [] ∧ s.dev.sram = [] ∧ s.dev.sdram = [] ∧ s.dev.tabE = [] ∧ s.dev.evt.raised = [] ∧ s.dev.out = [] ∧
    s.dev.div.resident = [] ∧ s.dev.div.queue = [] ∧ s.dev.obj.pending = [] ∧ s.dev.icx.jobs = [] ∧ s.dev.twn.ledger = [] ∧
    s.dev.sys.provisioning = true ∧ s.otp.revoked = 0 ∧ (∀ k, s.otp.programmed k = false)

/-! ### Words, samples and events -/

/-- R178: a received word i of WLEN bits becomes the binary32 value i × 2^−(WLEN−1), exactly for WLEN ≤ 24 and rounded to nearest even for
32. A sample v is sent as v × 2^(WLEN−1) rounded to the nearest integer, ties to even, saturated; NaN is sent as 0; nothing else is added. A
frame of a RUNNING port brings its words, and sends the playout block, by these conversions; an AES3 frame by those of WLEN = 24. -/
def Obligations.SampleWords : Prop :=
  (∀ w v : Nat, 1 ≤ w → w ≤ 24 → v < 2 ^ w → isFin (sampleOf w v) = true ∧ fval (sampleOf w v) * 2 ^ (w - 1) = signedOf w v * 2 ^ 149) ∧
  (∀ v : Nat, v < 2 ^ 32 →
    let y := sampleOf 32 v
    let i : Int := signedOf 32 v * 2 ^ 149
    isFin y = true ∧ ∀ x : F32, isFin x = true → fval x ≠ fval y →
      (fval y * 2 ^ 31 - i).natAbs ≤ (fval x * 2 ^ 31 - i).natAbs ∧
      ((fval y * 2 ^ 31 - i).natAbs = (fval x * 2 ^ 31 - i).natAbs → y.getLsbD 0 = false)) ∧
  (∀ (w : Nat) (v : F32), 1 ≤ w → w ≤ 32 →
    (isNaN v = true → wordOf w v = 0) ∧
    (isInf v = true → signedOf w (wordOf w v) = if fsign v then -(2 ^ (w - 1)) else 2 ^ (w - 1) - 1) ∧
    (isFin v = true →
      let x : Rat := (fval v : Rat) * (2 ^ (w - 1) : Nat) / (2 ^ 149 : Nat)
      let y : Int := signedOf w (wordOf w v)
      (-(2 ^ (w - 1) : Int)) ≤ y ∧ y ≤ 2 ^ (w - 1) - 1 ∧
      ((y : Rat) - x ≤ 1 / 2 ∨ y = -(2 ^ (w - 1))) ∧ (x - (y : Rat) ≤ 1 / 2 ∨ y = 2 ^ (w - 1) - 1) ∧
      (((y : Rat) - x = 1 / 2 ∨ x - (y : Rat) = 1 / 2) → y ≠ -(2 ^ (w - 1)) → y ≠ 2 ^ (w - 1) - 1 → y % 2 = 0))) ∧
  (∀ (p n : Nat) (f : SerialFrame) (s : State), s.Ready → p < 16 → mwf (fun _ => []) s.dev.samp = true →
    (∀ g, mwf (fun _ => 0) (mget (fun _ => []) s.dev.samp g) = true) → mwf (fun _ => Port.init) s.dev.net.ports = true →
    let x := s.dev.port p
    let cfg := s.dev.re (Off.PRT_CFG p)
    s.dev.portSt p = 3 → cfgForeign cfg = false → cfgLink cfg = false → x.next = some n →
    gatesAll x.ins x.mask (cfgFrameSlots cfg) true = true → gatesAll x.outs x.mask (cfgFrameSlots cfg) true = true →
    mwf (fun _ => ChGate.init) x.ins = true → mwf (fun _ => ChGate.init) x.outs = true →
    frameStarts f cfg ≠ [] → 2 * (s.dev.frameErr f.errNs).natAbs * s.dev.fs ≤ 1000000000 → x.top ≤ n →
    Completes (.serialFrame p f) s (fun t => Beside s t ∧
      (∀ k < cfgFrameSlots cfg, x.mask.getLsbD k = true →
        t.dev.sget (Sig.serialRaw (32 * p + k)) n = sampleOf (cfgWlen cfg) (frameWord f cfg k)) ∧
      ∃ ws : List (Option Nat), t.dev.out = s.dev.out ++ [.serial p n ws] ∧ ∀ k < cfgFrameSlots cfg, x.mask.getLsbD k = true →
        ws.getD k none = some (wordOf (cfgWlen cfg) (s.dev.sget (Sig.gateOut (2 * 65536 + 32 * p + k)) n) *
          2 ^ (cfgSlotW cfg - cfgWlen cfg)))) ∧
  (∀ (r : Nat) (z : Bool) (a b : AesSub) (s : State), s.Ready → r < 8 → s.dev.bit (Off.AES_RX_CFG r) 31 = true →
    subParityOk a = true → subParityOk b = true → s.dev.bit (Off.AES_RX_CFG r) 0 = false → mwf (fun _ => []) s.dev.samp = true →
    (∀ g, mwf (fun _ => 0) (mget (fun _ => []) s.dev.samp g) = true) →
    Completes (.aes3Frame r z a b) s (fun t => Beside s t ∧
      t.dev.sget (Sig.aesIn (2 * r)) (s.dev.aesRx r).frames = sampleOf 24 a.audio ∧
      t.dev.sget (Sig.aesIn (2 * r + 1)) (s.dev.aesRx r).frames = sampleOf 24 b.audio)) ∧
  (∀ (d : Dev) (t n k first : Nat) (inv : Nat → Bool), d.bit (Off.AES_TX_CFG t) 31 = true → (d.aesTx t).from_ = some first → k < d.L →
    let i := n * d.L + k
    first ≤ i → ∃ a b, Out.aes t i (i + 1) (decide (i % 192 = 0)) a b ∈ (d.aesTxTick t n inv).out ∧
      a % 2 ^ 24 = wordOf 24 (d.sget (Sig.gateOut (3 * 65536 + 2 * t)) i) ∧
      b % 2 ^ 24 = wordOf 24 (d.sget (Sig.gateOut (3 * 65536 + 2 * t + 1)) i))

/-- R344: events raised together join the queue in ascending order of code and then of instance, none lost or added, after those that wait
already. -/
def Obligations.EventsAreOrdered : Prop :=
  ∀ d : Dev, ∃ es : List EvRec, d.settle.evt.raised = d.evt.raised ++ es ∧ es.Perm d.evt.fresh ∧
    es.Pairwise (fun a b => a.code < b.code ∨ (a.code = b.code ∧ a.inst ≤ b.inst)) ∧ d.settle.evt.fresh = []

/-- R348: a code whose bit is set in its range's mask is masked: code 0xRRnn has bit nn of EVT_MASK(RR − 1). A masked event writes no
record, sends no Notice and signals nothing: it leaves the queue, and nothing else of the device changes. Its counters and effects are
unchanged: raising an event is the same whatever the masks hold. -/
def Obligations.MaskedEvents : Prop :=
  (∀ (d : Dev) (rr nn : Nat), 1 ≤ rr → rr ≤ 16 → nn < 32 → d.masked (rr * 256 + nn) = d.bit (Off.EVT_MASK (rr - 1)) nn) ∧
  (∀ (e : EvRec) (es : List EvRec) (s : State), s.Ready → s.dev.evt.raised = e :: es → s.dev.masked e.code = true →
    Completes .evtRecordWrite s (fun t => Beside s t ∧ t.dev = { s.dev with evt := { s.dev.evt with raised := es } })) ∧
  (∀ (d : Dev) (code inst param k : Nat) (v : Word), (d.wr (Off.EVT_MASK k) v).raise code inst param =
    (d.raise code inst param).wr (Off.EVT_MASK k) v)

/-! ### Rendering -/

/-- R65, R70, R74: the speed of sound as used; the direction of a speaker at the reference point; `snap` finds a speaker in use without
NO_PAN and not excluded, none of the others being nearer the direction, and it gives that speaker 1.0 and the others 0.0. R97, R104 to R106:
a history sample from before the object's start or the first capture tick, one of a tick without capture, and one of an age at or beyond its
reach read as 0.0. A Street that is silent and stays silent contributes nothing and takes its target delay; one that ramps ends the tick at
its target gain, its delay moved toward its target by at most 0.125 sample per sample; a Street that crosses over ends at its targets. The
model's own choices that it rests on: log entries 66, 202, 229. -/
def Obligations.SpeakersAndStreets : Prop :=
  (∀ (d : Dev) (l : Nat), l < 16 →
     (let c := d.tef (layBase l + 0x20)
      d.lC l = if isFin c = true ∧ fle 0x437A0000 c = true ∧ fle c 0x43E10000 = true then c else 0x43AB8000) ∧
     (∀ s, isZero (vnorm (d.sPos l s)) = true → d.sDir l s = ⟨0, fone, 0⟩) ∧
     (∀ (zones : Word) (u : V3),
       let q (s : Nat) : Prop := s < d.lSpk l ∧ d.sNoPan l s = false ∧ d.excl l zones s = false
       (∀ s, d.snapSpk l zones u = some s → q s ∧ ∀ t, q t → flt (vdot u (d.sDir l s)) (vdot u (d.sDir l t)) = false) ∧
       (d.snapSpk l zones u = none → ∀ s, ¬ q s) ∧
       (∀ s, d.snapSpk l zones u = some s → (d.snap l zones u).2 = (List.range (d.lSpk l)).map (fun k => if k = s then fone else 0)))) ∧
  ((∀ (d : Dev) (o n : Nat) (m : Int), m < mget (fun _ => 0) d.geo.histFrom o ∨ m < d.geo.firstCap.getD 0 * d.L ∨ (d.reach o : Int) ≤ (n : Int) - m ∨
       (∃ g ∈ d.geo.gaps, (g.1 : Int) ≤ m ∧ m < (g.2 : Int)) → d.hist o n m = 0) ∧
   (∀ (d : Dev) (i t : Nat) (part : List F32), mwf (fun _ => Str.init) d.geo.streets = true →
     let r := d.streetTick i t part
     let x := d.street i
     let y := r.1.street i
     let tg := d.strTargets i
     (∀ j, j ≠ i → r.1.street j = d.street j) ∧ r.2.length = part.length ∧
     (isZero x.cur = true → isZero (d.strGain i) = true → r.2 = part ∧ y.delay = tg.2.1 ∧ y.cur = x.cur) ∧
     (isZero x.cur = false ∨ isZero (d.strGain i) = false → y.cur = d.strGain i ∧ y.base = tg.1 ∧
       (y.delay = tg.2.1 ∨ (y.xfade = false ∧ ((y.delay : Int) - x.delay).natAbs = d.L * 0x2000 ∧
         d.L * 0x2000 < ((tg.2.1 : Int) - x.delay).natAbs)))))

/-! ### Establishment -/

/-- R9 step 5, R11: a boundary establishes every change that waits, in the order in which the writes were completed, and none waits after
it: a register's established word takes the bits of its read-write fields from what was written, a table's established bytes are those
written, and what no change names keeps what was established before. Here for changes of registers of the blocks OUT, RBT and DRV, whose
established words nothing but a write changes, and of room tables, where no Diversion, Ledger entry or content of the partner acts at the
same boundary. -/
def Obligations.BoundaryEstablishes : Prop :=
  ∀ (b : BoundaryIn) (s : State), s.Ready → s.dev.clk.valid = true → s.dev.ptp.stepTo = none → s.dev.sys.held = [] →
    s.dev.div.waiting = none → s.dev.div.queue = [] → s.dev.twn.ledger = [] → s.dev.twn.epoch = none → s.dev.twn.putOff = none →
    mwf regReset s.dev.est = true → mwf (fun _ => 0) s.dev.tabE = true → mwf (fun _ => 0) s.dev.tabW = true →
    (∀ p ∈ s.dev.pendW, (∃ off v, p = .reg off v ∧ off / 0x10000 ∈ [0x0B, 0x0C, 0x12]) ∨
      (∃ off bs, p = .tab off bs ∧ 0x1800000 ≤ off ∧ off + bs.length ≤ 0x1A00000)) →
    Completes (.tickBoundary b) s (fun t => t.dev.pendW = [] ∧
      (∀ (off : Nat) (r : RegRow), off / 0x10000 ∈ [0x0B, 0x0C, 0x12] → regRow off = some r →
        let m := r.bits (fun a => a == .rw || a == .rws)
        t.dev.re off = s.dev.pendW.foldl (fun w p => match p with
          | .reg o v => if o = off then (w &&& ~~~ m) ||| (v &&& m) else w
          | _ => w) (s.dev.re off)) ∧
      (∀ a, 0x1800000 ≤ a → a < 0x1A00000 → bget t.dev.tabE a = s.dev.pendW.foldl (fun w p => match p with
        | .tab o bs => if o ≤ a ∧ a < o + bs.length then bs.getD (a - o) 0 else w
        | _ => w) (bget s.dev.tabE a)))
end

