-- ==== Sys2Proof/Laws/NMap.lean ====
section
/-! SUPPORT. Laws of the sparse maps: a read after a write, a write elsewhere, and the canonical form every write keeps. -/

namespace Sys2Proof.Machine

variable {α : Type}

@[simp] theorem mget_nil (d : Nat → α) (k : Nat) : mget d [] k = d k := rfl

/-- Below the keys of a map every key reads as unlisted. -/
theorem mget_of_keysAbove (d : Nat → α) (m : NMap α) (k : Nat) (h : keysAbove k m = true) : mget d m k = d k := by
  cases m with
  | nil => rfl
  | cons p m =>
    obtain ⟨j, v⟩ := p
    simp only [keysAbove, List.all_cons, Bool.and_eq_true, decide_eq_true_eq] at h
    simp only [mget]
    rw [if_neg (by omega), if_pos h.1]

theorem keysAbove_mono {k l : Nat} (m : NMap α) (hkl : k ≤ l) (h : keysAbove l m = true) : keysAbove k m = true := by
  simp only [keysAbove, List.all_eq_true, decide_eq_true_eq] at *
  intro p hp
  have := h p hp
  omega

theorem mwf_cons [DecidableEq α] (d : Nat → α) (k : Nat) (v : α) (m : NMap α) :
    mwf d ((k, v) :: m) = true ↔ keysAbove k m = true ∧ v ≠ d k ∧ mwf d m = true := by
  simp [mwf, and_assoc]

/-- A read of the key just written. -/
theorem mget_mset_self [DecidableEq α] (d : Nat → α) (m : NMap α) (k : Nat) (v : α) (h : mwf d m = true) :
    mget d (mset d m k v) k = v := by
  induction m with
  | nil => by_cases hv : v = d k <;> simp [mset, mget, hv]
  | cons p m ih =>
    obtain ⟨j, w⟩ := p
    rw [mwf_cons] at h
    simp only [mset]
    by_cases hk : k = j
    · subst hk
      by_cases hv : v = d k
      · simp only [if_true, if_pos hv]
        rw [mget_of_keysAbove d m k h.1, hv]
      · simp [if_neg hv, mget]
    · rw [if_neg hk]
      by_cases hlt : k < j
      · rw [if_pos hlt]
        by_cases hv : v = d k
        · simp [mget, hk, hlt, hv]
        · simp [if_neg hv, mget]
      · rw [if_neg hlt]
        simp only [mget, if_neg hk, if_neg hlt]
        exact ih h.2.2

/-- A read of another key than the one written. -/
theorem mget_mset_ne [DecidableEq α] (d : Nat → α) (m : NMap α) (k l : Nat) (v : α) (h : mwf d m = true) (hl : l ≠ k) :
    mget d (mset d m k v) l = mget d m l := by
  induction m with
  | nil => by_cases hv : v = d k <;> simp [mset, mget, hv, hl]
  | cons p m ih =>
    obtain ⟨j, w⟩ := p
    rw [mwf_cons] at h
    simp only [mset]
    by_cases hk : k = j
    · subst hk
      by_cases hv : v = d k
      · simp only [if_true, if_pos hv, mget, if_neg hl]
        by_cases hlt : l < k
        · rw [if_pos hlt]
          exact mget_of_keysAbove d m l (keysAbove_mono m (by omega) h.1)
        · rw [if_neg hlt]
      · simp [if_neg hv, mget, hl]
    · rw [if_neg hk]
      by_cases hlt : k < j
      · rw [if_pos hlt]
        by_cases hv : v = d k
        · simp [if_pos hv]
        · simp only [if_neg hv, mget, if_neg hl]
          by_cases h1 : l < k
          · rw [if_pos h1, if_neg (by omega), if_pos (by omega)]
          · rw [if_neg h1]
      · rw [if_neg hlt]
        simp only [mget]
        rw [ih h.2.2]

theorem mget_mset [DecidableEq α] (d : Nat → α) (m : NMap α) (k l : Nat) (v : α) (h : mwf d m = true) :
    mget d (mset d m k v) l = if l = k then v else mget d m l := by
  by_cases hl : l = k
  · subst hl; rw [if_pos rfl, mget_mset_self d m l v h]
  · rw [if_neg hl, mget_mset_ne d m k l v h hl]

theorem keysAbove_mset [DecidableEq α] (d : Nat → α) (m : NMap α) (k l : Nat) (v : α) (h : keysAbove l m = true) (hl : l < k) :
    keysAbove l (mset d m k v) = true := by
  induction m with
  | nil => by_cases hv : v = d k <;> simp [mset, hv, keysAbove, hl]
  | cons p m ih =>
    obtain ⟨j, w⟩ := p
    have hj : l < j ∧ keysAbove l m = true := by
      simpa only [keysAbove, List.all_cons, Bool.and_eq_true, decide_eq_true_eq] using h
    have key : ∀ (x : α), keysAbove l ((j, x) :: m) = true := by
      intro x; simpa only [keysAbove, List.all_cons, Bool.and_eq_true, decide_eq_true_eq] using hj
    simp only [mset]
    split
    · split
      · exact hj.2
      · exact key v
    · split
      · split
        · exact key w
        · simpa only [keysAbove, List.all_cons, Bool.and_eq_true, decide_eq_true_eq] using And.intro hl hj
      · have := ih hj.2
        simpa only [keysAbove, List.all_cons, Bool.and_eq_true, decide_eq_true_eq] using And.intro hj.1 this

/-- Every write keeps the canonical form. -/
theorem mwf_mset [DecidableEq α] (d : Nat → α) (m : NMap α) (k : Nat) (v : α) (h : mwf d m = true) :
    mwf d (mset d m k v) = true := by
  induction m with
  | nil => by_cases hv : v = d k <;> simp [mset, mwf, hv, keysAbove]
  | cons p m ih =>
    obtain ⟨j, w⟩ := p
    have hc := (mwf_cons d j w m).mp h
    simp only [mset]
    by_cases hk : k = j
    · subst hk
      by_cases hv : v = d k
      · simpa [if_pos hv] using hc.2.2
      · simp only [if_true, if_neg hv]
        exact (mwf_cons d k v m).mpr ⟨hc.1, hv, hc.2.2⟩
    · rw [if_neg hk]
      by_cases hlt : k < j
      · rw [if_pos hlt]
        by_cases hv : v = d k
        · simpa [if_pos hv] using h
        · simp only [if_neg hv]
          refine (mwf_cons d k v _).mpr ⟨?_, hv, h⟩
          simp only [keysAbove, List.all_cons, Bool.and_eq_true, decide_eq_true_eq]
          exact ⟨hlt, keysAbove_mono m (by omega) hc.1⟩
      · rw [if_neg hlt]
        exact (mwf_cons d j w _).mpr ⟨keysAbove_mset d m k j v hc.1 (by omega), hc.2.1, ih hc.2.2⟩

theorem mwf_msetList [DecidableEq α] (d : Nat → α) (vs : List α) :
    ∀ (m : NMap α) (k : Nat), mwf d m = true → mwf d (msetList d m k vs) = true := by
  induction vs with
  | nil => intro m k h; exact h
  | cons v vs ih => intro m k h; exact ih _ _ (mwf_mset d m k v h)

/-- A run of writes leaves every key outside it as it was. -/
theorem mget_msetList_outside [DecidableEq α] (d : Nat → α) (vs : List α) :
    ∀ (m : NMap α) (k l : Nat), mwf d m = true → (l < k ∨ k + vs.length ≤ l) → mget d (msetList d m k vs) l = mget d m l := by
  induction vs with
  | nil => intro m k l _ _; rfl
  | cons v vs ih =>
    intro m k l h hl
    simp only [List.length_cons] at hl
    simp only [msetList]
    rw [ih _ _ _ (mwf_mset d m k v h) (by omega), mget_mset_ne d m k l v h (by omega)]

/-- A run of writes is read back. -/
theorem mget_msetList_inside [DecidableEq α] (d : Nat → α) (vs : List α) :
    ∀ (m : NMap α) (k i : Nat), mwf d m = true → (hi : i < vs.length) → mget d (msetList d m k vs) (k + i) = vs[i] := by
  induction vs with
  | nil => intro m k i _ hi; simp at hi
  | cons v vs ih =>
    intro m k i h hi
    simp only [msetList]
    cases i with
    | zero =>
      rw [mget_msetList_outside d vs _ _ _ (mwf_mset d m k v h) (by omega)]
      simpa using mget_mset_self d m k v h
    | succ i =>
      have := ih (mset d m k v) (k + 1) i (mwf_mset d m k v h) (by simpa using hi)
      rw [show k + (i + 1) = k + 1 + i by omega, this]
      rfl

end Sys2Proof.Machine
end

