-- ==== Sys2Proof/Laws/State.lean ====
section
/-! SUPPORT. What each elementary update of the device leaves as it was, field by field. -/

namespace Sys2Proof.Machine

variable (d : Dev)

/-! ### wr -/

@[simp] theorem Dev.wr_est (off : Nat) (v : Word) : (d.wr off v).est = d.est := rfl
@[simp] theorem Dev.wr_latch (off : Nat) (v : Word) : (d.wr off v).latch = d.latch := rfl
@[simp] theorem Dev.wr_pendW (off : Nat) (v : Word) : (d.wr off v).pendW = d.pendW := rfl
@[simp] theorem Dev.wr_tabW (off : Nat) (v : Word) : (d.wr off v).tabW = d.tabW := rfl
@[simp] theorem Dev.wr_tabE (off : Nat) (v : Word) : (d.wr off v).tabE = d.tabE := rfl
@[simp] theorem Dev.wr_samp (off : Nat) (v : Word) : (d.wr off v).samp = d.samp := rfl
@[simp] theorem Dev.wr_sdram (off : Nat) (v : Word) : (d.wr off v).sdram = d.sdram := rfl
@[simp] theorem Dev.wr_sram (off : Nat) (v : Word) : (d.wr off v).sram = d.sram := rfl
@[simp] theorem Dev.wr_clk (off : Nat) (v : Word) : (d.wr off v).clk = d.clk := rfl
@[simp] theorem Dev.wr_pipe (off : Nat) (v : Word) : (d.wr off v).pipe = d.pipe := rfl
@[simp] theorem Dev.wr_evt (off : Nat) (v : Word) : (d.wr off v).evt = d.evt := rfl
@[simp] theorem Dev.wr_icx (off : Nat) (v : Word) : (d.wr off v).icx = d.icx := rfl
@[simp] theorem Dev.wr_obj (off : Nat) (v : Word) : (d.wr off v).obj = d.obj := rfl
@[simp] theorem Dev.wr_div (off : Nat) (v : Word) : (d.wr off v).div = d.div := rfl
@[simp] theorem Dev.wr_rbt (off : Nat) (v : Word) : (d.wr off v).rbt = d.rbt := rfl
@[simp] theorem Dev.wr_geo (off : Nat) (v : Word) : (d.wr off v).geo = d.geo := rfl
@[simp] theorem Dev.wr_conv (off : Nat) (v : Word) : (d.wr off v).conv = d.conv := rfl
@[simp] theorem Dev.wr_cond (off : Nat) (v : Word) : (d.wr off v).cond = d.cond := rfl
@[simp] theorem Dev.wr_net (off : Nat) (v : Word) : (d.wr off v).net = d.net := rfl
@[simp] theorem Dev.wr_ptp (off : Nat) (v : Word) : (d.wr off v).ptp = d.ptp := rfl
@[simp] theorem Dev.wr_lpo (off : Nat) (v : Word) : (d.wr off v).lpo = d.lpo := rfl
@[simp] theorem Dev.wr_drv (off : Nat) (v : Word) : (d.wr off v).drv = d.drv := rfl
@[simp] theorem Dev.wr_straps (off : Nat) (v : Word) : (d.wr off v).straps = d.straps := rfl
@[simp] theorem Dev.wr_poison (off : Nat) (v : Word) : (d.wr off v).poison = d.poison := rfl
@[simp] theorem Dev.wr_dmc (off : Nat) (v : Word) : (d.wr off v).dmc = d.dmc := rfl
@[simp] theorem Dev.wr_freed (off : Nat) (v : Word) : (d.wr off v).freed = d.freed := rfl
@[simp] theorem Dev.wr_twn (off : Nat) (v : Word) : (d.wr off v).twn = d.twn := rfl
@[simp] theorem Dev.wr_sys (off : Nat) (v : Word) : (d.wr off v).sys = d.sys := rfl
@[simp] theorem Dev.wr_lmp (off : Nat) (v : Word) : (d.wr off v).lmp = d.lmp := rfl
@[simp] theorem Dev.wr_resp (off : Nat) (v : Word) : (d.wr off v).resp = d.resp := rfl
@[simp] theorem Dev.wr_out (off : Nat) (v : Word) : (d.wr off v).out = d.out := rfl
@[simp] theorem Dev.wr_sdBy (off : Nat) (v : Word) : (d.wr off v).sdBy = d.sdBy := rfl
@[simp] theorem Dev.wr_tap (off : Nat) (v : Word) : (d.wr off v).tap = d.tap := rfl

/-! ### we -/

@[simp] theorem Dev.we_regs (off : Nat) (v : Word) : (d.we off v).regs = d.regs := rfl
@[simp] theorem Dev.we_latch (off : Nat) (v : Word) : (d.we off v).latch = d.latch := rfl
@[simp] theorem Dev.we_pendW (off : Nat) (v : Word) : (d.we off v).pendW = d.pendW := rfl
@[simp] theorem Dev.we_tabW (off : Nat) (v : Word) : (d.we off v).tabW = d.tabW := rfl
@[simp] theorem Dev.we_tabE (off : Nat) (v : Word) : (d.we off v).tabE = d.tabE := rfl
@[simp] theorem Dev.we_samp (off : Nat) (v : Word) : (d.we off v).samp = d.samp := rfl
@[simp] theorem Dev.we_sdram (off : Nat) (v : Word) : (d.we off v).sdram = d.sdram := rfl
@[simp] theorem Dev.we_sram (off : Nat) (v : Word) : (d.we off v).sram = d.sram := rfl
@[simp] theorem Dev.we_clk (off : Nat) (v : Word) : (d.we off v).clk = d.clk := rfl
@[simp] theorem Dev.we_pipe (off : Nat) (v : Word) : (d.we off v).pipe = d.pipe := rfl
@[simp] theorem Dev.we_evt (off : Nat) (v : Word) : (d.we off v).evt = d.evt := rfl
@[simp] theorem Dev.we_icx (off : Nat) (v : Word) : (d.we off v).icx = d.icx := rfl
@[simp] theorem Dev.we_obj (off : Nat) (v : Word) : (d.we off v).obj = d.obj := rfl
@[simp] theorem Dev.we_div (off : Nat) (v : Word) : (d.we off v).div = d.div := rfl
@[simp] theorem Dev.we_rbt (off : Nat) (v : Word) : (d.we off v).rbt = d.rbt := rfl
@[simp] theorem Dev.we_geo (off : Nat) (v : Word) : (d.we off v).geo = d.geo := rfl
@[simp] theorem Dev.we_conv (off : Nat) (v : Word) : (d.we off v).conv = d.conv := rfl
@[simp] theorem Dev.we_cond (off : Nat) (v : Word) : (d.we off v).cond = d.cond := rfl
@[simp] theorem Dev.we_net (off : Nat) (v : Word) : (d.we off v).net = d.net := rfl
@[simp] theorem Dev.we_ptp (off : Nat) (v : Word) : (d.we off v).ptp = d.ptp := rfl
@[simp] theorem Dev.we_lpo (off : Nat) (v : Word) : (d.we off v).lpo = d.lpo := rfl
@[simp] theorem Dev.we_drv (off : Nat) (v : Word) : (d.we off v).drv = d.drv := rfl
@[simp] theorem Dev.we_straps (off : Nat) (v : Word) : (d.we off v).straps = d.straps := rfl
@[simp] theorem Dev.we_poison (off : Nat) (v : Word) : (d.we off v).poison = d.poison := rfl
@[simp] theorem Dev.we_dmc (off : Nat) (v : Word) : (d.we off v).dmc = d.dmc := rfl
@[simp] theorem Dev.we_freed (off : Nat) (v : Word) : (d.we off v).freed = d.freed := rfl
@[simp] theorem Dev.we_twn (off : Nat) (v : Word) : (d.we off v).twn = d.twn := rfl
@[simp] theorem Dev.we_sys (off : Nat) (v : Word) : (d.we off v).sys = d.sys := rfl
@[simp] theorem Dev.we_lmp (off : Nat) (v : Word) : (d.we off v).lmp = d.lmp := rfl
@[simp] theorem Dev.we_resp (off : Nat) (v : Word) : (d.we off v).resp = d.resp := rfl
@[simp] theorem Dev.we_out (off : Nat) (v : Word) : (d.we off v).out = d.out := rfl
@[simp] theorem Dev.we_sdBy (off : Nat) (v : Word) : (d.we off v).sdBy = d.sdBy := rfl
@[simp] theorem Dev.we_tap (off : Nat) (v : Word) : (d.we off v).tap = d.tap := rfl

/-! ### wrN -/

@[simp] theorem Dev.wrN_est (off v : Nat) : (d.wrN off v).est = d.est := rfl
@[simp] theorem Dev.wrN_latch (off v : Nat) : (d.wrN off v).latch = d.latch := rfl
@[simp] theorem Dev.wrN_pendW (off v : Nat) : (d.wrN off v).pendW = d.pendW := rfl
@[simp] theorem Dev.wrN_tabW (off v : Nat) : (d.wrN off v).tabW = d.tabW := rfl
@[simp] theorem Dev.wrN_tabE (off v : Nat) : (d.wrN off v).tabE = d.tabE := rfl
@[simp] theorem Dev.wrN_samp (off v : Nat) : (d.wrN off v).samp = d.samp := rfl
@[simp] theorem Dev.wrN_sdram (off v : Nat) : (d.wrN off v).sdram = d.sdram := rfl
@[simp] theorem Dev.wrN_sram (off v : Nat) : (d.wrN off v).sram = d.sram := rfl
@[simp] theorem Dev.wrN_clk (off v : Nat) : (d.wrN off v).clk = d.clk := rfl
@[simp] theorem Dev.wrN_pipe (off v : Nat) : (d.wrN off v).pipe = d.pipe := rfl
@[simp] theorem Dev.wrN_evt (off v : Nat) : (d.wrN off v).evt = d.evt := rfl
@[simp] theorem Dev.wrN_icx (off v : Nat) : (d.wrN off v).icx = d.icx := rfl
@[simp] theorem Dev.wrN_obj (off v : Nat) : (d.wrN off v).obj = d.obj := rfl
@[simp] theorem Dev.wrN_div (off v : Nat) : (d.wrN off v).div = d.div := rfl
@[simp] theorem Dev.wrN_rbt (off v : Nat) : (d.wrN off v).rbt = d.rbt := rfl
@[simp] theorem Dev.wrN_geo (off v : Nat) : (d.wrN off v).geo = d.geo := rfl
@[simp] theorem Dev.wrN_conv (off v : Nat) : (d.wrN off v).conv = d.conv := rfl
@[simp] theorem Dev.wrN_cond (off v : Nat) : (d.wrN off v).cond = d.cond := rfl
@[simp] theorem Dev.wrN_net (off v : Nat) : (d.wrN off v).net = d.net := rfl
@[simp] theorem Dev.wrN_ptp (off v : Nat) : (d.wrN off v).ptp = d.ptp := rfl
@[simp] theorem Dev.wrN_lpo (off v : Nat) : (d.wrN off v).lpo = d.lpo := rfl
@[simp] theorem Dev.wrN_drv (off v : Nat) : (d.wrN off v).drv = d.drv := rfl
@[simp] theorem Dev.wrN_straps (off v : Nat) : (d.wrN off v).straps = d.straps := rfl
@[simp] theorem Dev.wrN_poison (off v : Nat) : (d.wrN off v).poison = d.poison := rfl
@[simp] theorem Dev.wrN_dmc (off v : Nat) : (d.wrN off v).dmc = d.dmc := rfl
@[simp] theorem Dev.wrN_freed (off v : Nat) : (d.wrN off v).freed = d.freed := rfl
@[simp] theorem Dev.wrN_twn (off v : Nat) : (d.wrN off v).twn = d.twn := rfl
@[simp] theorem Dev.wrN_sys (off v : Nat) : (d.wrN off v).sys = d.sys := rfl
@[simp] theorem Dev.wrN_lmp (off v : Nat) : (d.wrN off v).lmp = d.lmp := rfl
@[simp] theorem Dev.wrN_resp (off v : Nat) : (d.wrN off v).resp = d.resp := rfl
@[simp] theorem Dev.wrN_out (off v : Nat) : (d.wrN off v).out = d.out := rfl
@[simp] theorem Dev.wrN_sdBy (off v : Nat) : (d.wrN off v).sdBy = d.sdBy := rfl
@[simp] theorem Dev.wrN_tap (off v : Nat) : (d.wrN off v).tap = d.tap := rfl

/-! ### setFld -/

@[simp] theorem Dev.setFld_est (off hi lo v : Nat) : (d.setFld off hi lo v).est = d.est := rfl
@[simp] theorem Dev.setFld_latch (off hi lo v : Nat) : (d.setFld off hi lo v).latch = d.latch := rfl
@[simp] theorem Dev.setFld_pendW (off hi lo v : Nat) : (d.setFld off hi lo v).pendW = d.pendW := rfl
@[simp] theorem Dev.setFld_tabW (off hi lo v : Nat) : (d.setFld off hi lo v).tabW = d.tabW := rfl
@[simp] theorem Dev.setFld_tabE (off hi lo v : Nat) : (d.setFld off hi lo v).tabE = d.tabE := rfl
@[simp] theorem Dev.setFld_samp (off hi lo v : Nat) : (d.setFld off hi lo v).samp = d.samp := rfl
@[simp] theorem Dev.setFld_sdram (off hi lo v : Nat) : (d.setFld off hi lo v).sdram = d.sdram := rfl
@[simp] theorem Dev.setFld_sram (off hi lo v : Nat) : (d.setFld off hi lo v).sram = d.sram := rfl
@[simp] theorem Dev.setFld_clk (off hi lo v : Nat) : (d.setFld off hi lo v).clk = d.clk := rfl
@[simp] theorem Dev.setFld_pipe (off hi lo v : Nat) : (d.setFld off hi lo v).pipe = d.pipe := rfl
@[simp] theorem Dev.setFld_evt (off hi lo v : Nat) : (d.setFld off hi lo v).evt = d.evt := rfl
@[simp] theorem Dev.setFld_icx (off hi lo v : Nat) : (d.setFld off hi lo v).icx = d.icx := rfl
@[simp] theorem Dev.setFld_obj (off hi lo v : Nat) : (d.setFld off hi lo v).obj = d.obj := rfl
@[simp] theorem Dev.setFld_div (off hi lo v : Nat) : (d.setFld off hi lo v).div = d.div := rfl
@[simp] theorem Dev.setFld_rbt (off hi lo v : Nat) : (d.setFld off hi lo v).rbt = d.rbt := rfl
@[simp] theorem Dev.setFld_geo (off hi lo v : Nat) : (d.setFld off hi lo v).geo = d.geo := rfl
@[simp] theorem Dev.setFld_conv (off hi lo v : Nat) : (d.setFld off hi lo v).conv = d.conv := rfl
@[simp] theorem Dev.setFld_cond (off hi lo v : Nat) : (d.setFld off hi lo v).cond = d.cond := rfl
@[simp] theorem Dev.setFld_net (off hi lo v : Nat) : (d.setFld off hi lo v).net = d.net := rfl
@[simp] theorem Dev.setFld_ptp (off hi lo v : Nat) : (d.setFld off hi lo v).ptp = d.ptp := rfl
@[simp] theorem Dev.setFld_lpo (off hi lo v : Nat) : (d.setFld off hi lo v).lpo = d.lpo := rfl
@[simp] theorem Dev.setFld_drv (off hi lo v : Nat) : (d.setFld off hi lo v).drv = d.drv := rfl
@[simp] theorem Dev.setFld_straps (off hi lo v : Nat) : (d.setFld off hi lo v).straps = d.straps := rfl
@[simp] theorem Dev.setFld_poison (off hi lo v : Nat) : (d.setFld off hi lo v).poison = d.poison := rfl
@[simp] theorem Dev.setFld_dmc (off hi lo v : Nat) : (d.setFld off hi lo v).dmc = d.dmc := rfl
@[simp] theorem Dev.setFld_freed (off hi lo v : Nat) : (d.setFld off hi lo v).freed = d.freed := rfl
@[simp] theorem Dev.setFld_twn (off hi lo v : Nat) : (d.setFld off hi lo v).twn = d.twn := rfl
@[simp] theorem Dev.setFld_sys (off hi lo v : Nat) : (d.setFld off hi lo v).sys = d.sys := rfl
@[simp] theorem Dev.setFld_lmp (off hi lo v : Nat) : (d.setFld off hi lo v).lmp = d.lmp := rfl
@[simp] theorem Dev.setFld_resp (off hi lo v : Nat) : (d.setFld off hi lo v).resp = d.resp := rfl
@[simp] theorem Dev.setFld_out (off hi lo v : Nat) : (d.setFld off hi lo v).out = d.out := rfl
@[simp] theorem Dev.setFld_sdBy (off hi lo v : Nat) : (d.setFld off hi lo v).sdBy = d.sdBy := rfl
@[simp] theorem Dev.setFld_tap (off hi lo v : Nat) : (d.setFld off hi lo v).tap = d.tap := rfl

/-! ### setBit -/

@[simp] theorem Dev.setBit_est (off i : Nat) (b : Bool) : (d.setBit off i b).est = d.est := rfl
@[simp] theorem Dev.setBit_latch (off i : Nat) (b : Bool) : (d.setBit off i b).latch = d.latch := rfl
@[simp] theorem Dev.setBit_pendW (off i : Nat) (b : Bool) : (d.setBit off i b).pendW = d.pendW := rfl
@[simp] theorem Dev.setBit_tabW (off i : Nat) (b : Bool) : (d.setBit off i b).tabW = d.tabW := rfl
@[simp] theorem Dev.setBit_tabE (off i : Nat) (b : Bool) : (d.setBit off i b).tabE = d.tabE := rfl
@[simp] theorem Dev.setBit_samp (off i : Nat) (b : Bool) : (d.setBit off i b).samp = d.samp := rfl
@[simp] theorem Dev.setBit_sdram (off i : Nat) (b : Bool) : (d.setBit off i b).sdram = d.sdram := rfl
@[simp] theorem Dev.setBit_sram (off i : Nat) (b : Bool) : (d.setBit off i b).sram = d.sram := rfl
@[simp] theorem Dev.setBit_clk (off i : Nat) (b : Bool) : (d.setBit off i b).clk = d.clk := rfl
@[simp] theorem Dev.setBit_pipe (off i : Nat) (b : Bool) : (d.setBit off i b).pipe = d.pipe := rfl
@[simp] theorem Dev.setBit_evt (off i : Nat) (b : Bool) : (d.setBit off i b).evt = d.evt := rfl
@[simp] theorem Dev.setBit_icx (off i : Nat) (b : Bool) : (d.setBit off i b).icx = d.icx := rfl
@[simp] theorem Dev.setBit_obj (off i : Nat) (b : Bool) : (d.setBit off i b).obj = d.obj := rfl
@[simp] theorem Dev.setBit_div (off i : Nat) (b : Bool) : (d.setBit off i b).div = d.div := rfl
@[simp] theorem Dev.setBit_rbt (off i : Nat) (b : Bool) : (d.setBit off i b).rbt = d.rbt := rfl
@[simp] theorem Dev.setBit_geo (off i : Nat) (b : Bool) : (d.setBit off i b).geo = d.geo := rfl
@[simp] theorem Dev.setBit_conv (off i : Nat) (b : Bool) : (d.setBit off i b).conv = d.conv := rfl
@[simp] theorem Dev.setBit_cond (off i : Nat) (b : Bool) : (d.setBit off i b).cond = d.cond := rfl
@[simp] theorem Dev.setBit_net (off i : Nat) (b : Bool) : (d.setBit off i b).net = d.net := rfl
@[simp] theorem Dev.setBit_ptp (off i : Nat) (b : Bool) : (d.setBit off i b).ptp = d.ptp := rfl
@[simp] theorem Dev.setBit_lpo (off i : Nat) (b : Bool) : (d.setBit off i b).lpo = d.lpo := rfl
@[simp] theorem Dev.setBit_drv (off i : Nat) (b : Bool) : (d.setBit off i b).drv = d.drv := rfl
@[simp] theorem Dev.setBit_straps (off i : Nat) (b : Bool) : (d.setBit off i b).straps = d.straps := rfl
@[simp] theorem Dev.setBit_poison (off i : Nat) (b : Bool) : (d.setBit off i b).poison = d.poison := rfl
@[simp] theorem Dev.setBit_dmc (off i : Nat) (b : Bool) : (d.setBit off i b).dmc = d.dmc := rfl
@[simp] theorem Dev.setBit_freed (off i : Nat) (b : Bool) : (d.setBit off i b).freed = d.freed := rfl
@[simp] theorem Dev.setBit_twn (off i : Nat) (b : Bool) : (d.setBit off i b).twn = d.twn := rfl
@[simp] theorem Dev.setBit_sys (off i : Nat) (b : Bool) : (d.setBit off i b).sys = d.sys := rfl
@[simp] theorem Dev.setBit_lmp (off i : Nat) (b : Bool) : (d.setBit off i b).lmp = d.lmp := rfl
@[simp] theorem Dev.setBit_resp (off i : Nat) (b : Bool) : (d.setBit off i b).resp = d.resp := rfl
@[simp] theorem Dev.setBit_out (off i : Nat) (b : Bool) : (d.setBit off i b).out = d.out := rfl
@[simp] theorem Dev.setBit_sdBy (off i : Nat) (b : Bool) : (d.setBit off i b).sdBy = d.sdBy := rfl
@[simp] theorem Dev.setBit_tap (off i : Nat) (b : Bool) : (d.setBit off i b).tap = d.tap := rfl

/-! ### bumpFld -/

@[simp] theorem Dev.bumpFld_est (off hi lo n : Nat) : (d.bumpFld off hi lo n).est = d.est := rfl
@[simp] theorem Dev.bumpFld_latch (off hi lo n : Nat) : (d.bumpFld off hi lo n).latch = d.latch := rfl
@[simp] theorem Dev.bumpFld_pendW (off hi lo n : Nat) : (d.bumpFld off hi lo n).pendW = d.pendW := rfl
@[simp] theorem Dev.bumpFld_tabW (off hi lo n : Nat) : (d.bumpFld off hi lo n).tabW = d.tabW := rfl
@[simp] theorem Dev.bumpFld_tabE (off hi lo n : Nat) : (d.bumpFld off hi lo n).tabE = d.tabE := rfl
@[simp] theorem Dev.bumpFld_samp (off hi lo n : Nat) : (d.bumpFld off hi lo n).samp = d.samp := rfl
@[simp] theorem Dev.bumpFld_sdram (off hi lo n : Nat) : (d.bumpFld off hi lo n).sdram = d.sdram := rfl
@[simp] theorem Dev.bumpFld_sram (off hi lo n : Nat) : (d.bumpFld off hi lo n).sram = d.sram := rfl
@[simp] theorem Dev.bumpFld_clk (off hi lo n : Nat) : (d.bumpFld off hi lo n).clk = d.clk := rfl
@[simp] theorem Dev.bumpFld_pipe (off hi lo n : Nat) : (d.bumpFld off hi lo n).pipe = d.pipe := rfl
@[simp] theorem Dev.bumpFld_evt (off hi lo n : Nat) : (d.bumpFld off hi lo n).evt = d.evt := rfl
@[simp] theorem Dev.bumpFld_icx (off hi lo n : Nat) : (d.bumpFld off hi lo n).icx = d.icx := rfl
@[simp] theorem Dev.bumpFld_obj (off hi lo n : Nat) : (d.bumpFld off hi lo n).obj = d.obj := rfl
@[simp] theorem Dev.bumpFld_div (off hi lo n : Nat) : (d.bumpFld off hi lo n).div = d.div := rfl
@[simp] theorem Dev.bumpFld_rbt (off hi lo n : Nat) : (d.bumpFld off hi lo n).rbt = d.rbt := rfl
@[simp] theorem Dev.bumpFld_geo (off hi lo n : Nat) : (d.bumpFld off hi lo n).geo = d.geo := rfl
@[simp] theorem Dev.bumpFld_conv (off hi lo n : Nat) : (d.bumpFld off hi lo n).conv = d.conv := rfl
@[simp] theorem Dev.bumpFld_cond (off hi lo n : Nat) : (d.bumpFld off hi lo n).cond = d.cond := rfl
@[simp] theorem Dev.bumpFld_net (off hi lo n : Nat) : (d.bumpFld off hi lo n).net = d.net := rfl
@[simp] theorem Dev.bumpFld_ptp (off hi lo n : Nat) : (d.bumpFld off hi lo n).ptp = d.ptp := rfl
@[simp] theorem Dev.bumpFld_lpo (off hi lo n : Nat) : (d.bumpFld off hi lo n).lpo = d.lpo := rfl
@[simp] theorem Dev.bumpFld_drv (off hi lo n : Nat) : (d.bumpFld off hi lo n).drv = d.drv := rfl
@[simp] theorem Dev.bumpFld_straps (off hi lo n : Nat) : (d.bumpFld off hi lo n).straps = d.straps := rfl
@[simp] theorem Dev.bumpFld_poison (off hi lo n : Nat) : (d.bumpFld off hi lo n).poison = d.poison := rfl
@[simp] theorem Dev.bumpFld_dmc (off hi lo n : Nat) : (d.bumpFld off hi lo n).dmc = d.dmc := rfl
@[simp] theorem Dev.bumpFld_freed (off hi lo n : Nat) : (d.bumpFld off hi lo n).freed = d.freed := rfl
@[simp] theorem Dev.bumpFld_twn (off hi lo n : Nat) : (d.bumpFld off hi lo n).twn = d.twn := rfl
@[simp] theorem Dev.bumpFld_sys (off hi lo n : Nat) : (d.bumpFld off hi lo n).sys = d.sys := rfl
@[simp] theorem Dev.bumpFld_lmp (off hi lo n : Nat) : (d.bumpFld off hi lo n).lmp = d.lmp := rfl
@[simp] theorem Dev.bumpFld_resp (off hi lo n : Nat) : (d.bumpFld off hi lo n).resp = d.resp := rfl
@[simp] theorem Dev.bumpFld_out (off hi lo n : Nat) : (d.bumpFld off hi lo n).out = d.out := rfl
@[simp] theorem Dev.bumpFld_sdBy (off hi lo n : Nat) : (d.bumpFld off hi lo n).sdBy = d.sdBy := rfl
@[simp] theorem Dev.bumpFld_tap (off hi lo n : Nat) : (d.bumpFld off hi lo n).tap = d.tap := rfl

/-! ### bumpN -/

@[simp] theorem Dev.bumpN_est (off n : Nat) : (d.bumpN off n).est = d.est := rfl
@[simp] theorem Dev.bumpN_latch (off n : Nat) : (d.bumpN off n).latch = d.latch := rfl
@[simp] theorem Dev.bumpN_pendW (off n : Nat) : (d.bumpN off n).pendW = d.pendW := rfl
@[simp] theorem Dev.bumpN_tabW (off n : Nat) : (d.bumpN off n).tabW = d.tabW := rfl
@[simp] theorem Dev.bumpN_tabE (off n : Nat) : (d.bumpN off n).tabE = d.tabE := rfl
@[simp] theorem Dev.bumpN_samp (off n : Nat) : (d.bumpN off n).samp = d.samp := rfl
@[simp] theorem Dev.bumpN_sdram (off n : Nat) : (d.bumpN off n).sdram = d.sdram := rfl
@[simp] theorem Dev.bumpN_sram (off n : Nat) : (d.bumpN off n).sram = d.sram := rfl
@[simp] theorem Dev.bumpN_clk (off n : Nat) : (d.bumpN off n).clk = d.clk := rfl
@[simp] theorem Dev.bumpN_pipe (off n : Nat) : (d.bumpN off n).pipe = d.pipe := rfl
@[simp] theorem Dev.bumpN_evt (off n : Nat) : (d.bumpN off n).evt = d.evt := rfl
@[simp] theorem Dev.bumpN_icx (off n : Nat) : (d.bumpN off n).icx = d.icx := rfl
@[simp] theorem Dev.bumpN_obj (off n : Nat) : (d.bumpN off n).obj = d.obj := rfl
@[simp] theorem Dev.bumpN_div (off n : Nat) : (d.bumpN off n).div = d.div := rfl
@[simp] theorem Dev.bumpN_rbt (off n : Nat) : (d.bumpN off n).rbt = d.rbt := rfl
@[simp] theorem Dev.bumpN_geo (off n : Nat) : (d.bumpN off n).geo = d.geo := rfl
@[simp] theorem Dev.bumpN_conv (off n : Nat) : (d.bumpN off n).conv = d.conv := rfl
@[simp] theorem Dev.bumpN_cond (off n : Nat) : (d.bumpN off n).cond = d.cond := rfl
@[simp] theorem Dev.bumpN_net (off n : Nat) : (d.bumpN off n).net = d.net := rfl
@[simp] theorem Dev.bumpN_ptp (off n : Nat) : (d.bumpN off n).ptp = d.ptp := rfl
@[simp] theorem Dev.bumpN_lpo (off n : Nat) : (d.bumpN off n).lpo = d.lpo := rfl
@[simp] theorem Dev.bumpN_drv (off n : Nat) : (d.bumpN off n).drv = d.drv := rfl
@[simp] theorem Dev.bumpN_straps (off n : Nat) : (d.bumpN off n).straps = d.straps := rfl
@[simp] theorem Dev.bumpN_poison (off n : Nat) : (d.bumpN off n).poison = d.poison := rfl
@[simp] theorem Dev.bumpN_dmc (off n : Nat) : (d.bumpN off n).dmc = d.dmc := rfl
@[simp] theorem Dev.bumpN_freed (off n : Nat) : (d.bumpN off n).freed = d.freed := rfl
@[simp] theorem Dev.bumpN_twn (off n : Nat) : (d.bumpN off n).twn = d.twn := rfl
@[simp] theorem Dev.bumpN_sys (off n : Nat) : (d.bumpN off n).sys = d.sys := rfl
@[simp] theorem Dev.bumpN_lmp (off n : Nat) : (d.bumpN off n).lmp = d.lmp := rfl
@[simp] theorem Dev.bumpN_resp (off n : Nat) : (d.bumpN off n).resp = d.resp := rfl
@[simp] theorem Dev.bumpN_out (off n : Nat) : (d.bumpN off n).out = d.out := rfl
@[simp] theorem Dev.bumpN_sdBy (off n : Nat) : (d.bumpN off n).sdBy = d.sdBy := rfl
@[simp] theorem Dev.bumpN_tap (off n : Nat) : (d.bumpN off n).tap = d.tap := rfl

/-! ### bump -/

@[simp] theorem Dev.bump_est (off : Nat) : (d.bump off).est = d.est := rfl
@[simp] theorem Dev.bump_latch (off : Nat) : (d.bump off).latch = d.latch := rfl
@[simp] theorem Dev.bump_pendW (off : Nat) : (d.bump off).pendW = d.pendW := rfl
@[simp] theorem Dev.bump_tabW (off : Nat) : (d.bump off).tabW = d.tabW := rfl
@[simp] theorem Dev.bump_tabE (off : Nat) : (d.bump off).tabE = d.tabE := rfl
@[simp] theorem Dev.bump_samp (off : Nat) : (d.bump off).samp = d.samp := rfl
@[simp] theorem Dev.bump_sdram (off : Nat) : (d.bump off).sdram = d.sdram := rfl
@[simp] theorem Dev.bump_sram (off : Nat) : (d.bump off).sram = d.sram := rfl
@[simp] theorem Dev.bump_clk (off : Nat) : (d.bump off).clk = d.clk := rfl
@[simp] theorem Dev.bump_pipe (off : Nat) : (d.bump off).pipe = d.pipe := rfl
@[simp] theorem Dev.bump_evt (off : Nat) : (d.bump off).evt = d.evt := rfl
@[simp] theorem Dev.bump_icx (off : Nat) : (d.bump off).icx = d.icx := rfl
@[simp] theorem Dev.bump_obj (off : Nat) : (d.bump off).obj = d.obj := rfl
@[simp] theorem Dev.bump_div (off : Nat) : (d.bump off).div = d.div := rfl
@[simp] theorem Dev.bump_rbt (off : Nat) : (d.bump off).rbt = d.rbt := rfl
@[simp] theorem Dev.bump_geo (off : Nat) : (d.bump off).geo = d.geo := rfl
@[simp] theorem Dev.bump_conv (off : Nat) : (d.bump off).conv = d.conv := rfl
@[simp] theorem Dev.bump_cond (off : Nat) : (d.bump off).cond = d.cond := rfl
@[simp] theorem Dev.bump_net (off : Nat) : (d.bump off).net = d.net := rfl
@[simp] theorem Dev.bump_ptp (off : Nat) : (d.bump off).ptp = d.ptp := rfl
@[simp] theorem Dev.bump_lpo (off : Nat) : (d.bump off).lpo = d.lpo := rfl
@[simp] theorem Dev.bump_drv (off : Nat) : (d.bump off).drv = d.drv := rfl
@[simp] theorem Dev.bump_straps (off : Nat) : (d.bump off).straps = d.straps := rfl
@[simp] theorem Dev.bump_poison (off : Nat) : (d.bump off).poison = d.poison := rfl
@[simp] theorem Dev.bump_dmc (off : Nat) : (d.bump off).dmc = d.dmc := rfl
@[simp] theorem Dev.bump_freed (off : Nat) : (d.bump off).freed = d.freed := rfl
@[simp] theorem Dev.bump_twn (off : Nat) : (d.bump off).twn = d.twn := rfl
@[simp] theorem Dev.bump_sys (off : Nat) : (d.bump off).sys = d.sys := rfl
@[simp] theorem Dev.bump_lmp (off : Nat) : (d.bump off).lmp = d.lmp := rfl
@[simp] theorem Dev.bump_resp (off : Nat) : (d.bump off).resp = d.resp := rfl
@[simp] theorem Dev.bump_out (off : Nat) : (d.bump off).out = d.out := rfl
@[simp] theorem Dev.bump_sdBy (off : Nat) : (d.bump off).sdBy = d.sdBy := rfl
@[simp] theorem Dev.bump_tap (off : Nat) : (d.bump off).tap = d.tap := rfl

/-! ### raiseB -/

@[simp] theorem Dev.raiseB_regs (b c i p : Nat) : (d.raiseB b c i p).regs = d.regs := rfl
@[simp] theorem Dev.raiseB_est (b c i p : Nat) : (d.raiseB b c i p).est = d.est := rfl
@[simp] theorem Dev.raiseB_latch (b c i p : Nat) : (d.raiseB b c i p).latch = d.latch := rfl
@[simp] theorem Dev.raiseB_pendW (b c i p : Nat) : (d.raiseB b c i p).pendW = d.pendW := rfl
@[simp] theorem Dev.raiseB_tabW (b c i p : Nat) : (d.raiseB b c i p).tabW = d.tabW := rfl
@[simp] theorem Dev.raiseB_tabE (b c i p : Nat) : (d.raiseB b c i p).tabE = d.tabE := rfl
@[simp] theorem Dev.raiseB_samp (b c i p : Nat) : (d.raiseB b c i p).samp = d.samp := rfl
@[simp] theorem Dev.raiseB_sdram (b c i p : Nat) : (d.raiseB b c i p).sdram = d.sdram := rfl
@[simp] theorem Dev.raiseB_sram (b c i p : Nat) : (d.raiseB b c i p).sram = d.sram := rfl
@[simp] theorem Dev.raiseB_clk (b c i p : Nat) : (d.raiseB b c i p).clk = d.clk := rfl
@[simp] theorem Dev.raiseB_pipe (b c i p : Nat) : (d.raiseB b c i p).pipe = d.pipe := rfl
@[simp] theorem Dev.raiseB_icx (b c i p : Nat) : (d.raiseB b c i p).icx = d.icx := rfl
@[simp] theorem Dev.raiseB_obj (b c i p : Nat) : (d.raiseB b c i p).obj = d.obj := rfl
@[simp] theorem Dev.raiseB_div (b c i p : Nat) : (d.raiseB b c i p).div = d.div := rfl
@[simp] theorem Dev.raiseB_rbt (b c i p : Nat) : (d.raiseB b c i p).rbt = d.rbt := rfl
@[simp] theorem Dev.raiseB_geo (b c i p : Nat) : (d.raiseB b c i p).geo = d.geo := rfl
@[simp] theorem Dev.raiseB_conv (b c i p : Nat) : (d.raiseB b c i p).conv = d.conv := rfl
@[simp] theorem Dev.raiseB_cond (b c i p : Nat) : (d.raiseB b c i p).cond = d.cond := rfl
@[simp] theorem Dev.raiseB_net (b c i p : Nat) : (d.raiseB b c i p).net = d.net := rfl
@[simp] theorem Dev.raiseB_ptp (b c i p : Nat) : (d.raiseB b c i p).ptp = d.ptp := rfl
@[simp] theorem Dev.raiseB_lpo (b c i p : Nat) : (d.raiseB b c i p).lpo = d.lpo := rfl
@[simp] theorem Dev.raiseB_drv (b c i p : Nat) : (d.raiseB b c i p).drv = d.drv := rfl
@[simp] theorem Dev.raiseB_straps (b c i p : Nat) : (d.raiseB b c i p).straps = d.straps := rfl
@[simp] theorem Dev.raiseB_poison (b c i p : Nat) : (d.raiseB b c i p).poison = d.poison := rfl
@[simp] theorem Dev.raiseB_dmc (b c i p : Nat) : (d.raiseB b c i p).dmc = d.dmc := rfl
@[simp] theorem Dev.raiseB_freed (b c i p : Nat) : (d.raiseB b c i p).freed = d.freed := rfl
@[simp] theorem Dev.raiseB_twn (b c i p : Nat) : (d.raiseB b c i p).twn = d.twn := rfl
@[simp] theorem Dev.raiseB_sys (b c i p : Nat) : (d.raiseB b c i p).sys = d.sys := rfl
@[simp] theorem Dev.raiseB_lmp (b c i p : Nat) : (d.raiseB b c i p).lmp = d.lmp := rfl
@[simp] theorem Dev.raiseB_resp (b c i p : Nat) : (d.raiseB b c i p).resp = d.resp := rfl
@[simp] theorem Dev.raiseB_out (b c i p : Nat) : (d.raiseB b c i p).out = d.out := rfl
@[simp] theorem Dev.raiseB_sdBy (b c i p : Nat) : (d.raiseB b c i p).sdBy = d.sdBy := rfl
@[simp] theorem Dev.raiseB_tap (b c i p : Nat) : (d.raiseB b c i p).tap = d.tap := rfl

/-! ### raise -/

@[simp] theorem Dev.raise_regs (c i p : Nat) : (d.raise c i p).regs = d.regs := rfl
@[simp] theorem Dev.raise_est (c i p : Nat) : (d.raise c i p).est = d.est := rfl
@[simp] theorem Dev.raise_latch (c i p : Nat) : (d.raise c i p).latch = d.latch := rfl
@[simp] theorem Dev.raise_pendW (c i p : Nat) : (d.raise c i p).pendW = d.pendW := rfl
@[simp] theorem Dev.raise_tabW (c i p : Nat) : (d.raise c i p).tabW = d.tabW := rfl
@[simp] theorem Dev.raise_tabE (c i p : Nat) : (d.raise c i p).tabE = d.tabE := rfl
@[simp] theorem Dev.raise_samp (c i p : Nat) : (d.raise c i p).samp = d.samp := rfl
@[simp] theorem Dev.raise_sdram (c i p : Nat) : (d.raise c i p).sdram = d.sdram := rfl
@[simp] theorem Dev.raise_sram (c i p : Nat) : (d.raise c i p).sram = d.sram := rfl
@[simp] theorem Dev.raise_clk (c i p : Nat) : (d.raise c i p).clk = d.clk := rfl
@[simp] theorem Dev.raise_pipe (c i p : Nat) : (d.raise c i p).pipe = d.pipe := rfl
@[simp] theorem Dev.raise_icx (c i p : Nat) : (d.raise c i p).icx = d.icx := rfl
@[simp] theorem Dev.raise_obj (c i p : Nat) : (d.raise c i p).obj = d.obj := rfl
@[simp] theorem Dev.raise_div (c i p : Nat) : (d.raise c i p).div = d.div := rfl
@[simp] theorem Dev.raise_rbt (c i p : Nat) : (d.raise c i p).rbt = d.rbt := rfl
@[simp] theorem Dev.raise_geo (c i p : Nat) : (d.raise c i p).geo = d.geo := rfl
@[simp] theorem Dev.raise_conv (c i p : Nat) : (d.raise c i p).conv = d.conv := rfl
@[simp] theorem Dev.raise_cond (c i p : Nat) : (d.raise c i p).cond = d.cond := rfl
@[simp] theorem Dev.raise_net (c i p : Nat) : (d.raise c i p).net = d.net := rfl
@[simp] theorem Dev.raise_ptp (c i p : Nat) : (d.raise c i p).ptp = d.ptp := rfl
@[simp] theorem Dev.raise_lpo (c i p : Nat) : (d.raise c i p).lpo = d.lpo := rfl
@[simp] theorem Dev.raise_drv (c i p : Nat) : (d.raise c i p).drv = d.drv := rfl
@[simp] theorem Dev.raise_straps (c i p : Nat) : (d.raise c i p).straps = d.straps := rfl
@[simp] theorem Dev.raise_poison (c i p : Nat) : (d.raise c i p).poison = d.poison := rfl
@[simp] theorem Dev.raise_dmc (c i p : Nat) : (d.raise c i p).dmc = d.dmc := rfl
@[simp] theorem Dev.raise_freed (c i p : Nat) : (d.raise c i p).freed = d.freed := rfl
@[simp] theorem Dev.raise_twn (c i p : Nat) : (d.raise c i p).twn = d.twn := rfl
@[simp] theorem Dev.raise_sys (c i p : Nat) : (d.raise c i p).sys = d.sys := rfl
@[simp] theorem Dev.raise_lmp (c i p : Nat) : (d.raise c i p).lmp = d.lmp := rfl
@[simp] theorem Dev.raise_resp (c i p : Nat) : (d.raise c i p).resp = d.resp := rfl
@[simp] theorem Dev.raise_out (c i p : Nat) : (d.raise c i p).out = d.out := rfl
@[simp] theorem Dev.raise_sdBy (c i p : Nat) : (d.raise c i p).sdBy = d.sdBy := rfl
@[simp] theorem Dev.raise_tap (c i p : Nat) : (d.raise c i p).tap = d.tap := rfl

/-! ### settle -/

@[simp] theorem Dev.settle_regs : (d.settle).regs = d.regs := rfl
@[simp] theorem Dev.settle_est : (d.settle).est = d.est := rfl
@[simp] theorem Dev.settle_latch : (d.settle).latch = d.latch := rfl
@[simp] theorem Dev.settle_pendW : (d.settle).pendW = d.pendW := rfl
@[simp] theorem Dev.settle_tabW : (d.settle).tabW = d.tabW := rfl
@[simp] theorem Dev.settle_tabE : (d.settle).tabE = d.tabE := rfl
@[simp] theorem Dev.settle_samp : (d.settle).samp = d.samp := rfl
@[simp] theorem Dev.settle_sdram : (d.settle).sdram = d.sdram := rfl
@[simp] theorem Dev.settle_sram : (d.settle).sram = d.sram := rfl
@[simp] theorem Dev.settle_clk : (d.settle).clk = d.clk := rfl
@[simp] theorem Dev.settle_pipe : (d.settle).pipe = d.pipe := rfl
@[simp] theorem Dev.settle_icx : (d.settle).icx = d.icx := rfl
@[simp] theorem Dev.settle_obj : (d.settle).obj = d.obj := rfl
@[simp] theorem Dev.settle_div : (d.settle).div = d.div := rfl
@[simp] theorem Dev.settle_rbt : (d.settle).rbt = d.rbt := rfl
@[simp] theorem Dev.settle_geo : (d.settle).geo = d.geo := rfl
@[simp] theorem Dev.settle_conv : (d.settle).conv = d.conv := rfl
@[simp] theorem Dev.settle_cond : (d.settle).cond = d.cond := rfl
@[simp] theorem Dev.settle_net : (d.settle).net = d.net := rfl
@[simp] theorem Dev.settle_ptp : (d.settle).ptp = d.ptp := rfl
@[simp] theorem Dev.settle_lpo : (d.settle).lpo = d.lpo := rfl
@[simp] theorem Dev.settle_drv : (d.settle).drv = d.drv := rfl
@[simp] theorem Dev.settle_straps : (d.settle).straps = d.straps := rfl
@[simp] theorem Dev.settle_poison : (d.settle).poison = d.poison := rfl
@[simp] theorem Dev.settle_dmc : (d.settle).dmc = d.dmc := rfl
@[simp] theorem Dev.settle_freed : (d.settle).freed = d.freed := rfl
@[simp] theorem Dev.settle_twn : (d.settle).twn = d.twn := rfl
@[simp] theorem Dev.settle_sys : (d.settle).sys = d.sys := rfl
@[simp] theorem Dev.settle_lmp : (d.settle).lmp = d.lmp := rfl
@[simp] theorem Dev.settle_resp : (d.settle).resp = d.resp := rfl
@[simp] theorem Dev.settle_out : (d.settle).out = d.out := rfl
@[simp] theorem Dev.settle_sdBy : (d.settle).sdBy = d.sdBy := rfl
@[simp] theorem Dev.settle_tap : (d.settle).tap = d.tap := rfl

/-! ### emit -/

@[simp] theorem Dev.emit_regs (o : Out) : (d.emit o).regs = d.regs := rfl
@[simp] theorem Dev.emit_est (o : Out) : (d.emit o).est = d.est := rfl
@[simp] theorem Dev.emit_latch (o : Out) : (d.emit o).latch = d.latch := rfl
@[simp] theorem Dev.emit_pendW (o : Out) : (d.emit o).pendW = d.pendW := rfl
@[simp] theorem Dev.emit_tabW (o : Out) : (d.emit o).tabW = d.tabW := rfl
@[simp] theorem Dev.emit_tabE (o : Out) : (d.emit o).tabE = d.tabE := rfl
@[simp] theorem Dev.emit_samp (o : Out) : (d.emit o).samp = d.samp := rfl
@[simp] theorem Dev.emit_sdram (o : Out) : (d.emit o).sdram = d.sdram := rfl
@[simp] theorem Dev.emit_sram (o : Out) : (d.emit o).sram = d.sram := rfl
@[simp] theorem Dev.emit_clk (o : Out) : (d.emit o).clk = d.clk := rfl
@[simp] theorem Dev.emit_pipe (o : Out) : (d.emit o).pipe = d.pipe := rfl
@[simp] theorem Dev.emit_evt (o : Out) : (d.emit o).evt = d.evt := rfl
@[simp] theorem Dev.emit_icx (o : Out) : (d.emit o).icx = d.icx := rfl
@[simp] theorem Dev.emit_obj (o : Out) : (d.emit o).obj = d.obj := rfl
@[simp] theorem Dev.emit_div (o : Out) : (d.emit o).div = d.div := rfl
@[simp] theorem Dev.emit_rbt (o : Out) : (d.emit o).rbt = d.rbt := rfl
@[simp] theorem Dev.emit_geo (o : Out) : (d.emit o).geo = d.geo := rfl
@[simp] theorem Dev.emit_conv (o : Out) : (d.emit o).conv = d.conv := rfl
@[simp] theorem Dev.emit_cond (o : Out) : (d.emit o).cond = d.cond := rfl
@[simp] theorem Dev.emit_net (o : Out) : (d.emit o).net = d.net := rfl
@[simp] theorem Dev.emit_ptp (o : Out) : (d.emit o).ptp = d.ptp := rfl
@[simp] theorem Dev.emit_lpo (o : Out) : (d.emit o).lpo = d.lpo := rfl
@[simp] theorem Dev.emit_drv (o : Out) : (d.emit o).drv = d.drv := rfl
@[simp] theorem Dev.emit_straps (o : Out) : (d.emit o).straps = d.straps := rfl
@[simp] theorem Dev.emit_poison (o : Out) : (d.emit o).poison = d.poison := rfl
@[simp] theorem Dev.emit_dmc (o : Out) : (d.emit o).dmc = d.dmc := rfl
@[simp] theorem Dev.emit_freed (o : Out) : (d.emit o).freed = d.freed := rfl
@[simp] theorem Dev.emit_twn (o : Out) : (d.emit o).twn = d.twn := rfl
@[simp] theorem Dev.emit_sys (o : Out) : (d.emit o).sys = d.sys := rfl
@[simp] theorem Dev.emit_lmp (o : Out) : (d.emit o).lmp = d.lmp := rfl
@[simp] theorem Dev.emit_resp (o : Out) : (d.emit o).resp = d.resp := rfl
@[simp] theorem Dev.emit_sdBy (o : Out) : (d.emit o).sdBy = d.sdBy := rfl
@[simp] theorem Dev.emit_tap (o : Out) : (d.emit o).tap = d.tap := rfl

/-! ### later -/

@[simp] theorem Dev.later_regs (p : Pend) : (d.later p).regs = d.regs := rfl
@[simp] theorem Dev.later_est (p : Pend) : (d.later p).est = d.est := rfl
@[simp] theorem Dev.later_latch (p : Pend) : (d.later p).latch = d.latch := rfl
@[simp] theorem Dev.later_tabW (p : Pend) : (d.later p).tabW = d.tabW := rfl
@[simp] theorem Dev.later_tabE (p : Pend) : (d.later p).tabE = d.tabE := rfl
@[simp] theorem Dev.later_samp (p : Pend) : (d.later p).samp = d.samp := rfl
@[simp] theorem Dev.later_sdram (p : Pend) : (d.later p).sdram = d.sdram := rfl
@[simp] theorem Dev.later_sram (p : Pend) : (d.later p).sram = d.sram := rfl
@[simp] theorem Dev.later_clk (p : Pend) : (d.later p).clk = d.clk := rfl
@[simp] theorem Dev.later_pipe (p : Pend) : (d.later p).pipe = d.pipe := rfl
@[simp] theorem Dev.later_evt (p : Pend) : (d.later p).evt = d.evt := rfl
@[simp] theorem Dev.later_icx (p : Pend) : (d.later p).icx = d.icx := rfl
@[simp] theorem Dev.later_obj (p : Pend) : (d.later p).obj = d.obj := rfl
@[simp] theorem Dev.later_div (p : Pend) : (d.later p).div = d.div := rfl
@[simp] theorem Dev.later_rbt (p : Pend) : (d.later p).rbt = d.rbt := rfl
@[simp] theorem Dev.later_geo (p : Pend) : (d.later p).geo = d.geo := rfl
@[simp] theorem Dev.later_conv (p : Pend) : (d.later p).conv = d.conv := rfl
@[simp] theorem Dev.later_cond (p : Pend) : (d.later p).cond = d.cond := rfl
@[simp] theorem Dev.later_net (p : Pend) : (d.later p).net = d.net := rfl
@[simp] theorem Dev.later_ptp (p : Pend) : (d.later p).ptp = d.ptp := rfl
@[simp] theorem Dev.later_lpo (p : Pend) : (d.later p).lpo = d.lpo := rfl
@[simp] theorem Dev.later_drv (p : Pend) : (d.later p).drv = d.drv := rfl
@[simp] theorem Dev.later_straps (p : Pend) : (d.later p).straps = d.straps := rfl
@[simp] theorem Dev.later_poison (p : Pend) : (d.later p).poison = d.poison := rfl
@[simp] theorem Dev.later_dmc (p : Pend) : (d.later p).dmc = d.dmc := rfl
@[simp] theorem Dev.later_freed (p : Pend) : (d.later p).freed = d.freed := rfl
@[simp] theorem Dev.later_twn (p : Pend) : (d.later p).twn = d.twn := rfl
@[simp] theorem Dev.later_sys (p : Pend) : (d.later p).sys = d.sys := rfl
@[simp] theorem Dev.later_lmp (p : Pend) : (d.later p).lmp = d.lmp := rfl
@[simp] theorem Dev.later_resp (p : Pend) : (d.later p).resp = d.resp := rfl
@[simp] theorem Dev.later_out (p : Pend) : (d.later p).out = d.out := rfl
@[simp] theorem Dev.later_sdBy (p : Pend) : (d.later p).sdBy = d.sdBy := rfl
@[simp] theorem Dev.later_tap (p : Pend) : (d.later p).tap = d.tap := rfl

/-! ### setTabW -/

@[simp] theorem Dev.setTabW_regs (off : Nat) (bs : List Byte) : (d.setTabW off bs).regs = d.regs := rfl
@[simp] theorem Dev.setTabW_est (off : Nat) (bs : List Byte) : (d.setTabW off bs).est = d.est := rfl
@[simp] theorem Dev.setTabW_latch (off : Nat) (bs : List Byte) : (d.setTabW off bs).latch = d.latch := rfl
@[simp] theorem Dev.setTabW_pendW (off : Nat) (bs : List Byte) : (d.setTabW off bs).pendW = d.pendW := rfl
@[simp] theorem Dev.setTabW_tabE (off : Nat) (bs : List Byte) : (d.setTabW off bs).tabE = d.tabE := rfl
@[simp] theorem Dev.setTabW_samp (off : Nat) (bs : List Byte) : (d.setTabW off bs).samp = d.samp := rfl
@[simp] theorem Dev.setTabW_sdram (off : Nat) (bs : List Byte) : (d.setTabW off bs).sdram = d.sdram := rfl
@[simp] theorem Dev.setTabW_sram (off : Nat) (bs : List Byte) : (d.setTabW off bs).sram = d.sram := rfl
@[simp] theorem Dev.setTabW_clk (off : Nat) (bs : List Byte) : (d.setTabW off bs).clk = d.clk := rfl
@[simp] theorem Dev.setTabW_pipe (off : Nat) (bs : List Byte) : (d.setTabW off bs).pipe = d.pipe := rfl
@[simp] theorem Dev.setTabW_evt (off : Nat) (bs : List Byte) : (d.setTabW off bs).evt = d.evt := rfl
@[simp] theorem Dev.setTabW_icx (off : Nat) (bs : List Byte) : (d.setTabW off bs).icx = d.icx := rfl
@[simp] theorem Dev.setTabW_obj (off : Nat) (bs : List Byte) : (d.setTabW off bs).obj = d.obj := rfl
@[simp] theorem Dev.setTabW_div (off : Nat) (bs : List Byte) : (d.setTabW off bs).div = d.div := rfl
@[simp] theorem Dev.setTabW_rbt (off : Nat) (bs : List Byte) : (d.setTabW off bs).rbt = d.rbt := rfl
@[simp] theorem Dev.setTabW_geo (off : Nat) (bs : List Byte) : (d.setTabW off bs).geo = d.geo := rfl
@[simp] theorem Dev.setTabW_conv (off : Nat) (bs : List Byte) : (d.setTabW off bs).conv = d.conv := rfl
@[simp] theorem Dev.setTabW_cond (off : Nat) (bs : List Byte) : (d.setTabW off bs).cond = d.cond := rfl
@[simp] theorem Dev.setTabW_net (off : Nat) (bs : List Byte) : (d.setTabW off bs).net = d.net := rfl
@[simp] theorem Dev.setTabW_ptp (off : Nat) (bs : List Byte) : (d.setTabW off bs).ptp = d.ptp := rfl
@[simp] theorem Dev.setTabW_lpo (off : Nat) (bs : List Byte) : (d.setTabW off bs).lpo = d.lpo := rfl
@[simp] theorem Dev.setTabW_drv (off : Nat) (bs : List Byte) : (d.setTabW off bs).drv = d.drv := rfl
@[simp] theorem Dev.setTabW_straps (off : Nat) (bs : List Byte) : (d.setTabW off bs).straps = d.straps := rfl
@[simp] theorem Dev.setTabW_poison (off : Nat) (bs : List Byte) : (d.setTabW off bs).poison = d.poison := rfl
@[simp] theorem Dev.setTabW_dmc (off : Nat) (bs : List Byte) : (d.setTabW off bs).dmc = d.dmc := rfl
@[simp] theorem Dev.setTabW_freed (off : Nat) (bs : List Byte) : (d.setTabW off bs).freed = d.freed := rfl
@[simp] theorem Dev.setTabW_twn (off : Nat) (bs : List Byte) : (d.setTabW off bs).twn = d.twn := rfl
@[simp] theorem Dev.setTabW_sys (off : Nat) (bs : List Byte) : (d.setTabW off bs).sys = d.sys := rfl
@[simp] theorem Dev.setTabW_lmp (off : Nat) (bs : List Byte) : (d.setTabW off bs).lmp = d.lmp := rfl
@[simp] theorem Dev.setTabW_resp (off : Nat) (bs : List Byte) : (d.setTabW off bs).resp = d.resp := rfl
@[simp] theorem Dev.setTabW_out (off : Nat) (bs : List Byte) : (d.setTabW off bs).out = d.out := rfl
@[simp] theorem Dev.setTabW_sdBy (off : Nat) (bs : List Byte) : (d.setTabW off bs).sdBy = d.sdBy := rfl
@[simp] theorem Dev.setTabW_tap (off : Nat) (bs : List Byte) : (d.setTabW off bs).tap = d.tap := rfl

/-! ### setTabE -/

@[simp] theorem Dev.setTabE_regs (off : Nat) (bs : List Byte) : (d.setTabE off bs).regs = d.regs := rfl
@[simp] theorem Dev.setTabE_est (off : Nat) (bs : List Byte) : (d.setTabE off bs).est = d.est := rfl
@[simp] theorem Dev.setTabE_latch (off : Nat) (bs : List Byte) : (d.setTabE off bs).latch = d.latch := rfl
@[simp] theorem Dev.setTabE_pendW (off : Nat) (bs : List Byte) : (d.setTabE off bs).pendW = d.pendW := rfl
@[simp] theorem Dev.setTabE_tabW (off : Nat) (bs : List Byte) : (d.setTabE off bs).tabW = d.tabW := rfl
@[simp] theorem Dev.setTabE_samp (off : Nat) (bs : List Byte) : (d.setTabE off bs).samp = d.samp := rfl
@[simp] theorem Dev.setTabE_sdram (off : Nat) (bs : List Byte) : (d.setTabE off bs).sdram = d.sdram := rfl
@[simp] theorem Dev.setTabE_sram (off : Nat) (bs : List Byte) : (d.setTabE off bs).sram = d.sram := rfl
@[simp] theorem Dev.setTabE_clk (off : Nat) (bs : List Byte) : (d.setTabE off bs).clk = d.clk := rfl
@[simp] theorem Dev.setTabE_pipe (off : Nat) (bs : List Byte) : (d.setTabE off bs).pipe = d.pipe := rfl
@[simp] theorem Dev.setTabE_evt (off : Nat) (bs : List Byte) : (d.setTabE off bs).evt = d.evt := rfl
@[simp] theorem Dev.setTabE_icx (off : Nat) (bs : List Byte) : (d.setTabE off bs).icx = d.icx := rfl
@[simp] theorem Dev.setTabE_obj (off : Nat) (bs : List Byte) : (d.setTabE off bs).obj = d.obj := rfl
@[simp] theorem Dev.setTabE_div (off : Nat) (bs : List Byte) : (d.setTabE off bs).div = d.div := rfl
@[simp] theorem Dev.setTabE_rbt (off : Nat) (bs : List Byte) : (d.setTabE off bs).rbt = d.rbt := rfl
@[simp] theorem Dev.setTabE_geo (off : Nat) (bs : List Byte) : (d.setTabE off bs).geo = d.geo := rfl
@[simp] theorem Dev.setTabE_conv (off : Nat) (bs : List Byte) : (d.setTabE off bs).conv = d.conv := rfl
@[simp] theorem Dev.setTabE_cond (off : Nat) (bs : List Byte) : (d.setTabE off bs).cond = d.cond := rfl
@[simp] theorem Dev.setTabE_net (off : Nat) (bs : List Byte) : (d.setTabE off bs).net = d.net := rfl
@[simp] theorem Dev.setTabE_ptp (off : Nat) (bs : List Byte) : (d.setTabE off bs).ptp = d.ptp := rfl
@[simp] theorem Dev.setTabE_lpo (off : Nat) (bs : List Byte) : (d.setTabE off bs).lpo = d.lpo := rfl
@[simp] theorem Dev.setTabE_drv (off : Nat) (bs : List Byte) : (d.setTabE off bs).drv = d.drv := rfl
@[simp] theorem Dev.setTabE_straps (off : Nat) (bs : List Byte) : (d.setTabE off bs).straps = d.straps := rfl
@[simp] theorem Dev.setTabE_poison (off : Nat) (bs : List Byte) : (d.setTabE off bs).poison = d.poison := rfl
@[simp] theorem Dev.setTabE_dmc (off : Nat) (bs : List Byte) : (d.setTabE off bs).dmc = d.dmc := rfl
@[simp] theorem Dev.setTabE_freed (off : Nat) (bs : List Byte) : (d.setTabE off bs).freed = d.freed := rfl
@[simp] theorem Dev.setTabE_twn (off : Nat) (bs : List Byte) : (d.setTabE off bs).twn = d.twn := rfl
@[simp] theorem Dev.setTabE_sys (off : Nat) (bs : List Byte) : (d.setTabE off bs).sys = d.sys := rfl
@[simp] theorem Dev.setTabE_lmp (off : Nat) (bs : List Byte) : (d.setTabE off bs).lmp = d.lmp := rfl
@[simp] theorem Dev.setTabE_resp (off : Nat) (bs : List Byte) : (d.setTabE off bs).resp = d.resp := rfl
@[simp] theorem Dev.setTabE_out (off : Nat) (bs : List Byte) : (d.setTabE off bs).out = d.out := rfl
@[simp] theorem Dev.setTabE_sdBy (off : Nat) (bs : List Byte) : (d.setTabE off bs).sdBy = d.sdBy := rfl
@[simp] theorem Dev.setTabE_tap (off : Nat) (bs : List Byte) : (d.setTabE off bs).tap = d.tap := rfl

/-! ### sput -/

@[simp] theorem Dev.sput_regs (sig n : Nat) (v : F32) : (d.sput sig n v).regs = d.regs := rfl
@[simp] theorem Dev.sput_est (sig n : Nat) (v : F32) : (d.sput sig n v).est = d.est := rfl
@[simp] theorem Dev.sput_latch (sig n : Nat) (v : F32) : (d.sput sig n v).latch = d.latch := rfl
@[simp] theorem Dev.sput_pendW (sig n : Nat) (v : F32) : (d.sput sig n v).pendW = d.pendW := rfl
@[simp] theorem Dev.sput_tabW (sig n : Nat) (v : F32) : (d.sput sig n v).tabW = d.tabW := rfl
@[simp] theorem Dev.sput_tabE (sig n : Nat) (v : F32) : (d.sput sig n v).tabE = d.tabE := rfl
@[simp] theorem Dev.sput_sdram (sig n : Nat) (v : F32) : (d.sput sig n v).sdram = d.sdram := rfl
@[simp] theorem Dev.sput_sram (sig n : Nat) (v : F32) : (d.sput sig n v).sram = d.sram := rfl
@[simp] theorem Dev.sput_clk (sig n : Nat) (v : F32) : (d.sput sig n v).clk = d.clk := rfl
@[simp] theorem Dev.sput_pipe (sig n : Nat) (v : F32) : (d.sput sig n v).pipe = d.pipe := rfl
@[simp] theorem Dev.sput_evt (sig n : Nat) (v : F32) : (d.sput sig n v).evt = d.evt := rfl
@[simp] theorem Dev.sput_icx (sig n : Nat) (v : F32) : (d.sput sig n v).icx = d.icx := rfl
@[simp] theorem Dev.sput_obj (sig n : Nat) (v : F32) : (d.sput sig n v).obj = d.obj := rfl
@[simp] theorem Dev.sput_div (sig n : Nat) (v : F32) : (d.sput sig n v).div = d.div := rfl
@[simp] theorem Dev.sput_rbt (sig n : Nat) (v : F32) : (d.sput sig n v).rbt = d.rbt := rfl
@[simp] theorem Dev.sput_geo (sig n : Nat) (v : F32) : (d.sput sig n v).geo = d.geo := rfl
@[simp] theorem Dev.sput_conv (sig n : Nat) (v : F32) : (d.sput sig n v).conv = d.conv := rfl
@[simp] theorem Dev.sput_cond (sig n : Nat) (v : F32) : (d.sput sig n v).cond = d.cond := rfl
@[simp] theorem Dev.sput_net (sig n : Nat) (v : F32) : (d.sput sig n v).net = d.net := rfl
@[simp] theorem Dev.sput_ptp (sig n : Nat) (v : F32) : (d.sput sig n v).ptp = d.ptp := rfl
@[simp] theorem Dev.sput_lpo (sig n : Nat) (v : F32) : (d.sput sig n v).lpo = d.lpo := rfl
@[simp] theorem Dev.sput_drv (sig n : Nat) (v : F32) : (d.sput sig n v).drv = d.drv := rfl
@[simp] theorem Dev.sput_straps (sig n : Nat) (v : F32) : (d.sput sig n v).straps = d.straps := rfl
@[simp] theorem Dev.sput_poison (sig n : Nat) (v : F32) : (d.sput sig n v).poison = d.poison := rfl
@[simp] theorem Dev.sput_dmc (sig n : Nat) (v : F32) : (d.sput sig n v).dmc = d.dmc := rfl
@[simp] theorem Dev.sput_freed (sig n : Nat) (v : F32) : (d.sput sig n v).freed = d.freed := rfl
@[simp] theorem Dev.sput_twn (sig n : Nat) (v : F32) : (d.sput sig n v).twn = d.twn := rfl
@[simp] theorem Dev.sput_sys (sig n : Nat) (v : F32) : (d.sput sig n v).sys = d.sys := rfl
@[simp] theorem Dev.sput_lmp (sig n : Nat) (v : F32) : (d.sput sig n v).lmp = d.lmp := rfl
@[simp] theorem Dev.sput_resp (sig n : Nat) (v : F32) : (d.sput sig n v).resp = d.resp := rfl
@[simp] theorem Dev.sput_out (sig n : Nat) (v : F32) : (d.sput sig n v).out = d.out := rfl
@[simp] theorem Dev.sput_sdBy (sig n : Nat) (v : F32) : (d.sput sig n v).sdBy = d.sdBy := rfl
@[simp] theorem Dev.sput_tap (sig n : Nat) (v : F32) : (d.sput sig n v).tap = d.tap := rfl

/-! ### sputs -/

@[simp] theorem Dev.sputs_regs (sig n : Nat) (vs : List F32) : (d.sputs sig n vs).regs = d.regs := rfl
@[simp] theorem Dev.sputs_est (sig n : Nat) (vs : List F32) : (d.sputs sig n vs).est = d.est := rfl
@[simp] theorem Dev.sputs_latch (sig n : Nat) (vs : List F32) : (d.sputs sig n vs).latch = d.latch := rfl
@[simp] theorem Dev.sputs_pendW (sig n : Nat) (vs : List F32) : (d.sputs sig n vs).pendW = d.pendW := rfl
@[simp] theorem Dev.sputs_tabW (sig n : Nat) (vs : List F32) : (d.sputs sig n vs).tabW = d.tabW := rfl
@[simp] theorem Dev.sputs_tabE (sig n : Nat) (vs : List F32) : (d.sputs sig n vs).tabE = d.tabE := rfl
@[simp] theorem Dev.sputs_sdram (sig n : Nat) (vs : List F32) : (d.sputs sig n vs).sdram = d.sdram := rfl
@[simp] theorem Dev.sputs_sram (sig n : Nat) (vs : List F32) : (d.sputs sig n vs).sram = d.sram := rfl
@[simp] theorem Dev.sputs_clk (sig n : Nat) (vs : List F32) : (d.sputs sig n vs).clk = d.clk := rfl
@[simp] theorem Dev.sputs_pipe (sig n : Nat) (vs : List F32) : (d.sputs sig n vs).pipe = d.pipe := rfl
@[simp] theorem Dev.sputs_evt (sig n : Nat) (vs : List F32) : (d.sputs sig n vs).evt = d.evt := rfl
@[simp] theorem Dev.sputs_icx (sig n : Nat) (vs : List F32) : (d.sputs sig n vs).icx = d.icx := rfl
@[simp] theorem Dev.sputs_obj (sig n : Nat) (vs : List F32) : (d.sputs sig n vs).obj = d.obj := rfl
@[simp] theorem Dev.sputs_div (sig n : Nat) (vs : List F32) : (d.sputs sig n vs).div = d.div := rfl
@[simp] theorem Dev.sputs_rbt (sig n : Nat) (vs : List F32) : (d.sputs sig n vs).rbt = d.rbt := rfl
@[simp] theorem Dev.sputs_geo (sig n : Nat) (vs : List F32) : (d.sputs sig n vs).geo = d.geo := rfl
@[simp] theorem Dev.sputs_conv (sig n : Nat) (vs : List F32) : (d.sputs sig n vs).conv = d.conv := rfl
@[simp] theorem Dev.sputs_cond (sig n : Nat) (vs : List F32) : (d.sputs sig n vs).cond = d.cond := rfl
@[simp] theorem Dev.sputs_net (sig n : Nat) (vs : List F32) : (d.sputs sig n vs).net = d.net := rfl
@[simp] theorem Dev.sputs_ptp (sig n : Nat) (vs : List F32) : (d.sputs sig n vs).ptp = d.ptp := rfl
@[simp] theorem Dev.sputs_lpo (sig n : Nat) (vs : List F32) : (d.sputs sig n vs).lpo = d.lpo := rfl
@[simp] theorem Dev.sputs_drv (sig n : Nat) (vs : List F32) : (d.sputs sig n vs).drv = d.drv := rfl
@[simp] theorem Dev.sputs_straps (sig n : Nat) (vs : List F32) : (d.sputs sig n vs).straps = d.straps := rfl
@[simp] theorem Dev.sputs_poison (sig n : Nat) (vs : List F32) : (d.sputs sig n vs).poison = d.poison := rfl
@[simp] theorem Dev.sputs_dmc (sig n : Nat) (vs : List F32) : (d.sputs sig n vs).dmc = d.dmc := rfl
@[simp] theorem Dev.sputs_freed (sig n : Nat) (vs : List F32) : (d.sputs sig n vs).freed = d.freed := rfl
@[simp] theorem Dev.sputs_twn (sig n : Nat) (vs : List F32) : (d.sputs sig n vs).twn = d.twn := rfl
@[simp] theorem Dev.sputs_sys (sig n : Nat) (vs : List F32) : (d.sputs sig n vs).sys = d.sys := rfl
@[simp] theorem Dev.sputs_lmp (sig n : Nat) (vs : List F32) : (d.sputs sig n vs).lmp = d.lmp := rfl
@[simp] theorem Dev.sputs_resp (sig n : Nat) (vs : List F32) : (d.sputs sig n vs).resp = d.resp := rfl
@[simp] theorem Dev.sputs_out (sig n : Nat) (vs : List F32) : (d.sputs sig n vs).out = d.out := rfl
@[simp] theorem Dev.sputs_sdBy (sig n : Nat) (vs : List F32) : (d.sputs sig n vs).sdBy = d.sdBy := rfl
@[simp] theorem Dev.sputs_tap (sig n : Nat) (vs : List F32) : (d.sputs sig n vs).tap = d.tap := rfl

/-! ### setTwn -/

@[simp] theorem Dev.setTwn_regs (x : Twn) : (d.setTwn x).regs = d.regs := rfl
@[simp] theorem Dev.setTwn_est (x : Twn) : (d.setTwn x).est = d.est := rfl
@[simp] theorem Dev.setTwn_latch (x : Twn) : (d.setTwn x).latch = d.latch := rfl
@[simp] theorem Dev.setTwn_pendW (x : Twn) : (d.setTwn x).pendW = d.pendW := rfl
@[simp] theorem Dev.setTwn_tabW (x : Twn) : (d.setTwn x).tabW = d.tabW := rfl
@[simp] theorem Dev.setTwn_tabE (x : Twn) : (d.setTwn x).tabE = d.tabE := rfl
@[simp] theorem Dev.setTwn_samp (x : Twn) : (d.setTwn x).samp = d.samp := rfl
@[simp] theorem Dev.setTwn_sdram (x : Twn) : (d.setTwn x).sdram = d.sdram := rfl
@[simp] theorem Dev.setTwn_sram (x : Twn) : (d.setTwn x).sram = d.sram := rfl
@[simp] theorem Dev.setTwn_clk (x : Twn) : (d.setTwn x).clk = d.clk := rfl
@[simp] theorem Dev.setTwn_pipe (x : Twn) : (d.setTwn x).pipe = d.pipe := rfl
@[simp] theorem Dev.setTwn_evt (x : Twn) : (d.setTwn x).evt = d.evt := rfl
@[simp] theorem Dev.setTwn_icx (x : Twn) : (d.setTwn x).icx = d.icx := rfl
@[simp] theorem Dev.setTwn_obj (x : Twn) : (d.setTwn x).obj = d.obj := rfl
@[simp] theorem Dev.setTwn_div (x : Twn) : (d.setTwn x).div = d.div := rfl
@[simp] theorem Dev.setTwn_rbt (x : Twn) : (d.setTwn x).rbt = d.rbt := rfl
@[simp] theorem Dev.setTwn_geo (x : Twn) : (d.setTwn x).geo = d.geo := rfl
@[simp] theorem Dev.setTwn_conv (x : Twn) : (d.setTwn x).conv = d.conv := rfl
@[simp] theorem Dev.setTwn_cond (x : Twn) : (d.setTwn x).cond = d.cond := rfl
@[simp] theorem Dev.setTwn_net (x : Twn) : (d.setTwn x).net = d.net := rfl
@[simp] theorem Dev.setTwn_ptp (x : Twn) : (d.setTwn x).ptp = d.ptp := rfl
@[simp] theorem Dev.setTwn_lpo (x : Twn) : (d.setTwn x).lpo = d.lpo := rfl
@[simp] theorem Dev.setTwn_drv (x : Twn) : (d.setTwn x).drv = d.drv := rfl
@[simp] theorem Dev.setTwn_straps (x : Twn) : (d.setTwn x).straps = d.straps := rfl
@[simp] theorem Dev.setTwn_poison (x : Twn) : (d.setTwn x).poison = d.poison := rfl
@[simp] theorem Dev.setTwn_dmc (x : Twn) : (d.setTwn x).dmc = d.dmc := rfl
@[simp] theorem Dev.setTwn_freed (x : Twn) : (d.setTwn x).freed = d.freed := rfl
@[simp] theorem Dev.setTwn_sys (x : Twn) : (d.setTwn x).sys = d.sys := rfl
@[simp] theorem Dev.setTwn_lmp (x : Twn) : (d.setTwn x).lmp = d.lmp := rfl
@[simp] theorem Dev.setTwn_resp (x : Twn) : (d.setTwn x).resp = d.resp := rfl
@[simp] theorem Dev.setTwn_out (x : Twn) : (d.setTwn x).out = d.out := rfl
@[simp] theorem Dev.setTwn_sdBy (x : Twn) : (d.setTwn x).sdBy = d.sdBy := rfl
@[simp] theorem Dev.setTwn_tap (x : Twn) : (d.setTwn x).tap = d.tap := rfl

/-! ### by -/

@[simp] theorem Dev.by_regs (req : Nat) : (d.by req).regs = d.regs := rfl
@[simp] theorem Dev.by_est (req : Nat) : (d.by req).est = d.est := rfl
@[simp] theorem Dev.by_latch (req : Nat) : (d.by req).latch = d.latch := rfl
@[simp] theorem Dev.by_pendW (req : Nat) : (d.by req).pendW = d.pendW := rfl
@[simp] theorem Dev.by_tabW (req : Nat) : (d.by req).tabW = d.tabW := rfl
@[simp] theorem Dev.by_tabE (req : Nat) : (d.by req).tabE = d.tabE := rfl
@[simp] theorem Dev.by_samp (req : Nat) : (d.by req).samp = d.samp := rfl
@[simp] theorem Dev.by_sdram (req : Nat) : (d.by req).sdram = d.sdram := rfl
@[simp] theorem Dev.by_sram (req : Nat) : (d.by req).sram = d.sram := rfl
@[simp] theorem Dev.by_clk (req : Nat) : (d.by req).clk = d.clk := rfl
@[simp] theorem Dev.by_pipe (req : Nat) : (d.by req).pipe = d.pipe := rfl
@[simp] theorem Dev.by_evt (req : Nat) : (d.by req).evt = d.evt := rfl
@[simp] theorem Dev.by_icx (req : Nat) : (d.by req).icx = d.icx := rfl
@[simp] theorem Dev.by_obj (req : Nat) : (d.by req).obj = d.obj := rfl
@[simp] theorem Dev.by_div (req : Nat) : (d.by req).div = d.div := rfl
@[simp] theorem Dev.by_rbt (req : Nat) : (d.by req).rbt = d.rbt := rfl
@[simp] theorem Dev.by_geo (req : Nat) : (d.by req).geo = d.geo := rfl
@[simp] theorem Dev.by_conv (req : Nat) : (d.by req).conv = d.conv := rfl
@[simp] theorem Dev.by_cond (req : Nat) : (d.by req).cond = d.cond := rfl
@[simp] theorem Dev.by_net (req : Nat) : (d.by req).net = d.net := rfl
@[simp] theorem Dev.by_ptp (req : Nat) : (d.by req).ptp = d.ptp := rfl
@[simp] theorem Dev.by_lpo (req : Nat) : (d.by req).lpo = d.lpo := rfl
@[simp] theorem Dev.by_drv (req : Nat) : (d.by req).drv = d.drv := rfl
@[simp] theorem Dev.by_straps (req : Nat) : (d.by req).straps = d.straps := rfl
@[simp] theorem Dev.by_poison (req : Nat) : (d.by req).poison = d.poison := rfl
@[simp] theorem Dev.by_dmc (req : Nat) : (d.by req).dmc = d.dmc := rfl
@[simp] theorem Dev.by_freed (req : Nat) : (d.by req).freed = d.freed := rfl
@[simp] theorem Dev.by_twn (req : Nat) : (d.by req).twn = d.twn := rfl
@[simp] theorem Dev.by_sys (req : Nat) : (d.by req).sys = d.sys := rfl
@[simp] theorem Dev.by_lmp (req : Nat) : (d.by req).lmp = d.lmp := rfl
@[simp] theorem Dev.by_resp (req : Nat) : (d.by req).resp = d.resp := rfl
@[simp] theorem Dev.by_out (req : Nat) : (d.by req).out = d.out := rfl
@[simp] theorem Dev.by_tap (req : Nat) : (d.by req).tap = d.tap := rfl

/-! ### setDch -/

@[simp] theorem Dev.setDch_regs (c : Nat) (x : DmcCh) : (d.setDch c x).regs = d.regs := rfl
@[simp] theorem Dev.setDch_est (c : Nat) (x : DmcCh) : (d.setDch c x).est = d.est := rfl
@[simp] theorem Dev.setDch_latch (c : Nat) (x : DmcCh) : (d.setDch c x).latch = d.latch := rfl
@[simp] theorem Dev.setDch_pendW (c : Nat) (x : DmcCh) : (d.setDch c x).pendW = d.pendW := rfl
@[simp] theorem Dev.setDch_tabW (c : Nat) (x : DmcCh) : (d.setDch c x).tabW = d.tabW := rfl
@[simp] theorem Dev.setDch_tabE (c : Nat) (x : DmcCh) : (d.setDch c x).tabE = d.tabE := rfl
@[simp] theorem Dev.setDch_samp (c : Nat) (x : DmcCh) : (d.setDch c x).samp = d.samp := rfl
@[simp] theorem Dev.setDch_sdram (c : Nat) (x : DmcCh) : (d.setDch c x).sdram = d.sdram := rfl
@[simp] theorem Dev.setDch_sram (c : Nat) (x : DmcCh) : (d.setDch c x).sram = d.sram := rfl
@[simp] theorem Dev.setDch_clk (c : Nat) (x : DmcCh) : (d.setDch c x).clk = d.clk := rfl
@[simp] theorem Dev.setDch_pipe (c : Nat) (x : DmcCh) : (d.setDch c x).pipe = d.pipe := rfl
@[simp] theorem Dev.setDch_evt (c : Nat) (x : DmcCh) : (d.setDch c x).evt = d.evt := rfl
@[simp] theorem Dev.setDch_icx (c : Nat) (x : DmcCh) : (d.setDch c x).icx = d.icx := rfl
@[simp] theorem Dev.setDch_obj (c : Nat) (x : DmcCh) : (d.setDch c x).obj = d.obj := rfl
@[simp] theorem Dev.setDch_div (c : Nat) (x : DmcCh) : (d.setDch c x).div = d.div := rfl
@[simp] theorem Dev.setDch_rbt (c : Nat) (x : DmcCh) : (d.setDch c x).rbt = d.rbt := rfl
@[simp] theorem Dev.setDch_geo (c : Nat) (x : DmcCh) : (d.setDch c x).geo = d.geo := rfl
@[simp] theorem Dev.setDch_conv (c : Nat) (x : DmcCh) : (d.setDch c x).conv = d.conv := rfl
@[simp] theorem Dev.setDch_cond (c : Nat) (x : DmcCh) : (d.setDch c x).cond = d.cond := rfl
@[simp] theorem Dev.setDch_net (c : Nat) (x : DmcCh) : (d.setDch c x).net = d.net := rfl
@[simp] theorem Dev.setDch_ptp (c : Nat) (x : DmcCh) : (d.setDch c x).ptp = d.ptp := rfl
@[simp] theorem Dev.setDch_lpo (c : Nat) (x : DmcCh) : (d.setDch c x).lpo = d.lpo := rfl
@[simp] theorem Dev.setDch_drv (c : Nat) (x : DmcCh) : (d.setDch c x).drv = d.drv := rfl
@[simp] theorem Dev.setDch_straps (c : Nat) (x : DmcCh) : (d.setDch c x).straps = d.straps := rfl
@[simp] theorem Dev.setDch_poison (c : Nat) (x : DmcCh) : (d.setDch c x).poison = d.poison := rfl
@[simp] theorem Dev.setDch_freed (c : Nat) (x : DmcCh) : (d.setDch c x).freed = d.freed := rfl
@[simp] theorem Dev.setDch_twn (c : Nat) (x : DmcCh) : (d.setDch c x).twn = d.twn := rfl
@[simp] theorem Dev.setDch_sys (c : Nat) (x : DmcCh) : (d.setDch c x).sys = d.sys := rfl
@[simp] theorem Dev.setDch_lmp (c : Nat) (x : DmcCh) : (d.setDch c x).lmp = d.lmp := rfl
@[simp] theorem Dev.setDch_resp (c : Nat) (x : DmcCh) : (d.setDch c x).resp = d.resp := rfl
@[simp] theorem Dev.setDch_out (c : Nat) (x : DmcCh) : (d.setDch c x).out = d.out := rfl
@[simp] theorem Dev.setDch_sdBy (c : Nat) (x : DmcCh) : (d.setDch c x).sdBy = d.sdBy := rfl
@[simp] theorem Dev.setDch_tap (c : Nat) (x : DmcCh) : (d.setDch c x).tap = d.tap := rfl

/-! ### setJobs -/

@[simp] theorem Dev.setJobs_regs (js : List Job) : (d.setJobs js).regs = d.regs := rfl
@[simp] theorem Dev.setJobs_est (js : List Job) : (d.setJobs js).est = d.est := rfl
@[simp] theorem Dev.setJobs_latch (js : List Job) : (d.setJobs js).latch = d.latch := rfl
@[simp] theorem Dev.setJobs_pendW (js : List Job) : (d.setJobs js).pendW = d.pendW := rfl
@[simp] theorem Dev.setJobs_tabW (js : List Job) : (d.setJobs js).tabW = d.tabW := rfl
@[simp] theorem Dev.setJobs_tabE (js : List Job) : (d.setJobs js).tabE = d.tabE := rfl
@[simp] theorem Dev.setJobs_samp (js : List Job) : (d.setJobs js).samp = d.samp := rfl
@[simp] theorem Dev.setJobs_sdram (js : List Job) : (d.setJobs js).sdram = d.sdram := rfl
@[simp] theorem Dev.setJobs_sram (js : List Job) : (d.setJobs js).sram = d.sram := rfl
@[simp] theorem Dev.setJobs_clk (js : List Job) : (d.setJobs js).clk = d.clk := rfl
@[simp] theorem Dev.setJobs_pipe (js : List Job) : (d.setJobs js).pipe = d.pipe := rfl
@[simp] theorem Dev.setJobs_evt (js : List Job) : (d.setJobs js).evt = d.evt := rfl
@[simp] theorem Dev.setJobs_obj (js : List Job) : (d.setJobs js).obj = d.obj := rfl
@[simp] theorem Dev.setJobs_div (js : List Job) : (d.setJobs js).div = d.div := rfl
@[simp] theorem Dev.setJobs_rbt (js : List Job) : (d.setJobs js).rbt = d.rbt := rfl
@[simp] theorem Dev.setJobs_geo (js : List Job) : (d.setJobs js).geo = d.geo := rfl
@[simp] theorem Dev.setJobs_conv (js : List Job) : (d.setJobs js).conv = d.conv := rfl
@[simp] theorem Dev.setJobs_cond (js : List Job) : (d.setJobs js).cond = d.cond := rfl
@[simp] theorem Dev.setJobs_net (js : List Job) : (d.setJobs js).net = d.net := rfl
@[simp] theorem Dev.setJobs_ptp (js : List Job) : (d.setJobs js).ptp = d.ptp := rfl
@[simp] theorem Dev.setJobs_lpo (js : List Job) : (d.setJobs js).lpo = d.lpo := rfl
@[simp] theorem Dev.setJobs_drv (js : List Job) : (d.setJobs js).drv = d.drv := rfl
@[simp] theorem Dev.setJobs_straps (js : List Job) : (d.setJobs js).straps = d.straps := rfl
@[simp] theorem Dev.setJobs_poison (js : List Job) : (d.setJobs js).poison = d.poison := rfl
@[simp] theorem Dev.setJobs_dmc (js : List Job) : (d.setJobs js).dmc = d.dmc := rfl
@[simp] theorem Dev.setJobs_freed (js : List Job) : (d.setJobs js).freed = d.freed := rfl
@[simp] theorem Dev.setJobs_twn (js : List Job) : (d.setJobs js).twn = d.twn := rfl
@[simp] theorem Dev.setJobs_sys (js : List Job) : (d.setJobs js).sys = d.sys := rfl
@[simp] theorem Dev.setJobs_lmp (js : List Job) : (d.setJobs js).lmp = d.lmp := rfl
@[simp] theorem Dev.setJobs_resp (js : List Job) : (d.setJobs js).resp = d.resp := rfl
@[simp] theorem Dev.setJobs_out (js : List Job) : (d.setJobs js).out = d.out := rfl
@[simp] theorem Dev.setJobs_sdBy (js : List Job) : (d.setJobs js).sdBy = d.sdBy := rfl
@[simp] theorem Dev.setJobs_tap (js : List Job) : (d.setJobs js).tap = d.tap := rfl

/-! ### setJob -/

@[simp] theorem Dev.setJob_regs (k : JobKey) (f : Job → Job) : (d.setJob k f).regs = d.regs := rfl
@[simp] theorem Dev.setJob_est (k : JobKey) (f : Job → Job) : (d.setJob k f).est = d.est := rfl
@[simp] theorem Dev.setJob_latch (k : JobKey) (f : Job → Job) : (d.setJob k f).latch = d.latch := rfl
@[simp] theorem Dev.setJob_pendW (k : JobKey) (f : Job → Job) : (d.setJob k f).pendW = d.pendW := rfl
@[simp] theorem Dev.setJob_tabW (k : JobKey) (f : Job → Job) : (d.setJob k f).tabW = d.tabW := rfl
@[simp] theorem Dev.setJob_tabE (k : JobKey) (f : Job → Job) : (d.setJob k f).tabE = d.tabE := rfl
@[simp] theorem Dev.setJob_samp (k : JobKey) (f : Job → Job) : (d.setJob k f).samp = d.samp := rfl
@[simp] theorem Dev.setJob_sdram (k : JobKey) (f : Job → Job) : (d.setJob k f).sdram = d.sdram := rfl
@[simp] theorem Dev.setJob_sram (k : JobKey) (f : Job → Job) : (d.setJob k f).sram = d.sram := rfl
@[simp] theorem Dev.setJob_clk (k : JobKey) (f : Job → Job) : (d.setJob k f).clk = d.clk := rfl
@[simp] theorem Dev.setJob_pipe (k : JobKey) (f : Job → Job) : (d.setJob k f).pipe = d.pipe := rfl
@[simp] theorem Dev.setJob_evt (k : JobKey) (f : Job → Job) : (d.setJob k f).evt = d.evt := rfl
@[simp] theorem Dev.setJob_obj (k : JobKey) (f : Job → Job) : (d.setJob k f).obj = d.obj := rfl
@[simp] theorem Dev.setJob_div (k : JobKey) (f : Job → Job) : (d.setJob k f).div = d.div := rfl
@[simp] theorem Dev.setJob_rbt (k : JobKey) (f : Job → Job) : (d.setJob k f).rbt = d.rbt := rfl
@[simp] theorem Dev.setJob_geo (k : JobKey) (f : Job → Job) : (d.setJob k f).geo = d.geo := rfl
@[simp] theorem Dev.setJob_conv (k : JobKey) (f : Job → Job) : (d.setJob k f).conv = d.conv := rfl
@[simp] theorem Dev.setJob_cond (k : JobKey) (f : Job → Job) : (d.setJob k f).cond = d.cond := rfl
@[simp] theorem Dev.setJob_net (k : JobKey) (f : Job → Job) : (d.setJob k f).net = d.net := rfl
@[simp] theorem Dev.setJob_ptp (k : JobKey) (f : Job → Job) : (d.setJob k f).ptp = d.ptp := rfl
@[simp] theorem Dev.setJob_lpo (k : JobKey) (f : Job → Job) : (d.setJob k f).lpo = d.lpo := rfl
@[simp] theorem Dev.setJob_drv (k : JobKey) (f : Job → Job) : (d.setJob k f).drv = d.drv := rfl
@[simp] theorem Dev.setJob_straps (k : JobKey) (f : Job → Job) : (d.setJob k f).straps = d.straps := rfl
@[simp] theorem Dev.setJob_poison (k : JobKey) (f : Job → Job) : (d.setJob k f).poison = d.poison := rfl
@[simp] theorem Dev.setJob_dmc (k : JobKey) (f : Job → Job) : (d.setJob k f).dmc = d.dmc := rfl
@[simp] theorem Dev.setJob_freed (k : JobKey) (f : Job → Job) : (d.setJob k f).freed = d.freed := rfl
@[simp] theorem Dev.setJob_twn (k : JobKey) (f : Job → Job) : (d.setJob k f).twn = d.twn := rfl
@[simp] theorem Dev.setJob_sys (k : JobKey) (f : Job → Job) : (d.setJob k f).sys = d.sys := rfl
@[simp] theorem Dev.setJob_lmp (k : JobKey) (f : Job → Job) : (d.setJob k f).lmp = d.lmp := rfl
@[simp] theorem Dev.setJob_resp (k : JobKey) (f : Job → Job) : (d.setJob k f).resp = d.resp := rfl
@[simp] theorem Dev.setJob_out (k : JobKey) (f : Job → Job) : (d.setJob k f).out = d.out := rfl
@[simp] theorem Dev.setJob_sdBy (k : JobKey) (f : Job → Job) : (d.setJob k f).sdBy = d.sdBy := rfl
@[simp] theorem Dev.setJob_tap (k : JobKey) (f : Job → Job) : (d.setJob k f).tap = d.tap := rfl

/-! ### setReady -/

@[simp] theorem Dev.setReady_regs (l : Nat) (ks : List JobKey) : (d.setReady l ks).regs = d.regs := rfl
@[simp] theorem Dev.setReady_est (l : Nat) (ks : List JobKey) : (d.setReady l ks).est = d.est := rfl
@[simp] theorem Dev.setReady_latch (l : Nat) (ks : List JobKey) : (d.setReady l ks).latch = d.latch := rfl
@[simp] theorem Dev.setReady_pendW (l : Nat) (ks : List JobKey) : (d.setReady l ks).pendW = d.pendW := rfl
@[simp] theorem Dev.setReady_tabW (l : Nat) (ks : List JobKey) : (d.setReady l ks).tabW = d.tabW := rfl
@[simp] theorem Dev.setReady_tabE (l : Nat) (ks : List JobKey) : (d.setReady l ks).tabE = d.tabE := rfl
@[simp] theorem Dev.setReady_samp (l : Nat) (ks : List JobKey) : (d.setReady l ks).samp = d.samp := rfl
@[simp] theorem Dev.setReady_sdram (l : Nat) (ks : List JobKey) : (d.setReady l ks).sdram = d.sdram := rfl
@[simp] theorem Dev.setReady_sram (l : Nat) (ks : List JobKey) : (d.setReady l ks).sram = d.sram := rfl
@[simp] theorem Dev.setReady_clk (l : Nat) (ks : List JobKey) : (d.setReady l ks).clk = d.clk := rfl
@[simp] theorem Dev.setReady_pipe (l : Nat) (ks : List JobKey) : (d.setReady l ks).pipe = d.pipe := rfl
@[simp] theorem Dev.setReady_evt (l : Nat) (ks : List JobKey) : (d.setReady l ks).evt = d.evt := rfl
@[simp] theorem Dev.setReady_obj (l : Nat) (ks : List JobKey) : (d.setReady l ks).obj = d.obj := rfl
@[simp] theorem Dev.setReady_div (l : Nat) (ks : List JobKey) : (d.setReady l ks).div = d.div := rfl
@[simp] theorem Dev.setReady_rbt (l : Nat) (ks : List JobKey) : (d.setReady l ks).rbt = d.rbt := rfl
@[simp] theorem Dev.setReady_geo (l : Nat) (ks : List JobKey) : (d.setReady l ks).geo = d.geo := rfl
@[simp] theorem Dev.setReady_conv (l : Nat) (ks : List JobKey) : (d.setReady l ks).conv = d.conv := rfl
@[simp] theorem Dev.setReady_cond (l : Nat) (ks : List JobKey) : (d.setReady l ks).cond = d.cond := rfl
@[simp] theorem Dev.setReady_net (l : Nat) (ks : List JobKey) : (d.setReady l ks).net = d.net := rfl
@[simp] theorem Dev.setReady_ptp (l : Nat) (ks : List JobKey) : (d.setReady l ks).ptp = d.ptp := rfl
@[simp] theorem Dev.setReady_lpo (l : Nat) (ks : List JobKey) : (d.setReady l ks).lpo = d.lpo := rfl
@[simp] theorem Dev.setReady_drv (l : Nat) (ks : List JobKey) : (d.setReady l ks).drv = d.drv := rfl
@[simp] theorem Dev.setReady_straps (l : Nat) (ks : List JobKey) : (d.setReady l ks).straps = d.straps := rfl
@[simp] theorem Dev.setReady_poison (l : Nat) (ks : List JobKey) : (d.setReady l ks).poison = d.poison := rfl
@[simp] theorem Dev.setReady_dmc (l : Nat) (ks : List JobKey) : (d.setReady l ks).dmc = d.dmc := rfl
@[simp] theorem Dev.setReady_freed (l : Nat) (ks : List JobKey) : (d.setReady l ks).freed = d.freed := rfl
@[simp] theorem Dev.setReady_twn (l : Nat) (ks : List JobKey) : (d.setReady l ks).twn = d.twn := rfl
@[simp] theorem Dev.setReady_sys (l : Nat) (ks : List JobKey) : (d.setReady l ks).sys = d.sys := rfl
@[simp] theorem Dev.setReady_lmp (l : Nat) (ks : List JobKey) : (d.setReady l ks).lmp = d.lmp := rfl
@[simp] theorem Dev.setReady_resp (l : Nat) (ks : List JobKey) : (d.setReady l ks).resp = d.resp := rfl
@[simp] theorem Dev.setReady_out (l : Nat) (ks : List JobKey) : (d.setReady l ks).out = d.out := rfl
@[simp] theorem Dev.setReady_sdBy (l : Nat) (ks : List JobKey) : (d.setReady l ks).sdBy = d.sdBy := rfl
@[simp] theorem Dev.setReady_tap (l : Nat) (ks : List JobKey) : (d.setReady l ks).tap = d.tap := rfl

/-! ### setSquare -/

@[simp] theorem Dev.setSquare_regs (i : Nat) (x : Square) : (d.setSquare i x).regs = d.regs := rfl
@[simp] theorem Dev.setSquare_est (i : Nat) (x : Square) : (d.setSquare i x).est = d.est := rfl
@[simp] theorem Dev.setSquare_latch (i : Nat) (x : Square) : (d.setSquare i x).latch = d.latch := rfl
@[simp] theorem Dev.setSquare_pendW (i : Nat) (x : Square) : (d.setSquare i x).pendW = d.pendW := rfl
@[simp] theorem Dev.setSquare_tabW (i : Nat) (x : Square) : (d.setSquare i x).tabW = d.tabW := rfl
@[simp] theorem Dev.setSquare_tabE (i : Nat) (x : Square) : (d.setSquare i x).tabE = d.tabE := rfl
@[simp] theorem Dev.setSquare_samp (i : Nat) (x : Square) : (d.setSquare i x).samp = d.samp := rfl
@[simp] theorem Dev.setSquare_sdram (i : Nat) (x : Square) : (d.setSquare i x).sdram = d.sdram := rfl
@[simp] theorem Dev.setSquare_sram (i : Nat) (x : Square) : (d.setSquare i x).sram = d.sram := rfl
@[simp] theorem Dev.setSquare_clk (i : Nat) (x : Square) : (d.setSquare i x).clk = d.clk := rfl
@[simp] theorem Dev.setSquare_pipe (i : Nat) (x : Square) : (d.setSquare i x).pipe = d.pipe := rfl
@[simp] theorem Dev.setSquare_evt (i : Nat) (x : Square) : (d.setSquare i x).evt = d.evt := rfl
@[simp] theorem Dev.setSquare_obj (i : Nat) (x : Square) : (d.setSquare i x).obj = d.obj := rfl
@[simp] theorem Dev.setSquare_div (i : Nat) (x : Square) : (d.setSquare i x).div = d.div := rfl
@[simp] theorem Dev.setSquare_rbt (i : Nat) (x : Square) : (d.setSquare i x).rbt = d.rbt := rfl
@[simp] theorem Dev.setSquare_geo (i : Nat) (x : Square) : (d.setSquare i x).geo = d.geo := rfl
@[simp] theorem Dev.setSquare_conv (i : Nat) (x : Square) : (d.setSquare i x).conv = d.conv := rfl
@[simp] theorem Dev.setSquare_cond (i : Nat) (x : Square) : (d.setSquare i x).cond = d.cond := rfl
@[simp] theorem Dev.setSquare_net (i : Nat) (x : Square) : (d.setSquare i x).net = d.net := rfl
@[simp] theorem Dev.setSquare_ptp (i : Nat) (x : Square) : (d.setSquare i x).ptp = d.ptp := rfl
@[simp] theorem Dev.setSquare_lpo (i : Nat) (x : Square) : (d.setSquare i x).lpo = d.lpo := rfl
@[simp] theorem Dev.setSquare_drv (i : Nat) (x : Square) : (d.setSquare i x).drv = d.drv := rfl
@[simp] theorem Dev.setSquare_straps (i : Nat) (x : Square) : (d.setSquare i x).straps = d.straps := rfl
@[simp] theorem Dev.setSquare_poison (i : Nat) (x : Square) : (d.setSquare i x).poison = d.poison := rfl
@[simp] theorem Dev.setSquare_dmc (i : Nat) (x : Square) : (d.setSquare i x).dmc = d.dmc := rfl
@[simp] theorem Dev.setSquare_freed (i : Nat) (x : Square) : (d.setSquare i x).freed = d.freed := rfl
@[simp] theorem Dev.setSquare_twn (i : Nat) (x : Square) : (d.setSquare i x).twn = d.twn := rfl
@[simp] theorem Dev.setSquare_sys (i : Nat) (x : Square) : (d.setSquare i x).sys = d.sys := rfl
@[simp] theorem Dev.setSquare_lmp (i : Nat) (x : Square) : (d.setSquare i x).lmp = d.lmp := rfl
@[simp] theorem Dev.setSquare_resp (i : Nat) (x : Square) : (d.setSquare i x).resp = d.resp := rfl
@[simp] theorem Dev.setSquare_out (i : Nat) (x : Square) : (d.setSquare i x).out = d.out := rfl
@[simp] theorem Dev.setSquare_sdBy (i : Nat) (x : Square) : (d.setSquare i x).sdBy = d.sdBy := rfl
@[simp] theorem Dev.setSquare_tap (i : Nat) (x : Square) : (d.setSquare i x).tap = d.tap := rfl

/-! ### setObjDyn -/

@[simp] theorem Dev.setObjDyn_regs (o : Nat) (x : ObjDyn) : (d.setObjDyn o x).regs = d.regs := rfl
@[simp] theorem Dev.setObjDyn_est (o : Nat) (x : ObjDyn) : (d.setObjDyn o x).est = d.est := rfl
@[simp] theorem Dev.setObjDyn_latch (o : Nat) (x : ObjDyn) : (d.setObjDyn o x).latch = d.latch := rfl
@[simp] theorem Dev.setObjDyn_pendW (o : Nat) (x : ObjDyn) : (d.setObjDyn o x).pendW = d.pendW := rfl
@[simp] theorem Dev.setObjDyn_tabW (o : Nat) (x : ObjDyn) : (d.setObjDyn o x).tabW = d.tabW := rfl
@[simp] theorem Dev.setObjDyn_tabE (o : Nat) (x : ObjDyn) : (d.setObjDyn o x).tabE = d.tabE := rfl
@[simp] theorem Dev.setObjDyn_samp (o : Nat) (x : ObjDyn) : (d.setObjDyn o x).samp = d.samp := rfl
@[simp] theorem Dev.setObjDyn_sdram (o : Nat) (x : ObjDyn) : (d.setObjDyn o x).sdram = d.sdram := rfl
@[simp] theorem Dev.setObjDyn_sram (o : Nat) (x : ObjDyn) : (d.setObjDyn o x).sram = d.sram := rfl
@[simp] theorem Dev.setObjDyn_clk (o : Nat) (x : ObjDyn) : (d.setObjDyn o x).clk = d.clk := rfl
@[simp] theorem Dev.setObjDyn_pipe (o : Nat) (x : ObjDyn) : (d.setObjDyn o x).pipe = d.pipe := rfl
@[simp] theorem Dev.setObjDyn_evt (o : Nat) (x : ObjDyn) : (d.setObjDyn o x).evt = d.evt := rfl
@[simp] theorem Dev.setObjDyn_icx (o : Nat) (x : ObjDyn) : (d.setObjDyn o x).icx = d.icx := rfl
@[simp] theorem Dev.setObjDyn_div (o : Nat) (x : ObjDyn) : (d.setObjDyn o x).div = d.div := rfl
@[simp] theorem Dev.setObjDyn_rbt (o : Nat) (x : ObjDyn) : (d.setObjDyn o x).rbt = d.rbt := rfl
@[simp] theorem Dev.setObjDyn_geo (o : Nat) (x : ObjDyn) : (d.setObjDyn o x).geo = d.geo := rfl
@[simp] theorem Dev.setObjDyn_conv (o : Nat) (x : ObjDyn) : (d.setObjDyn o x).conv = d.conv := rfl
@[simp] theorem Dev.setObjDyn_cond (o : Nat) (x : ObjDyn) : (d.setObjDyn o x).cond = d.cond := rfl
@[simp] theorem Dev.setObjDyn_net (o : Nat) (x : ObjDyn) : (d.setObjDyn o x).net = d.net := rfl
@[simp] theorem Dev.setObjDyn_ptp (o : Nat) (x : ObjDyn) : (d.setObjDyn o x).ptp = d.ptp := rfl
@[simp] theorem Dev.setObjDyn_lpo (o : Nat) (x : ObjDyn) : (d.setObjDyn o x).lpo = d.lpo := rfl
@[simp] theorem Dev.setObjDyn_drv (o : Nat) (x : ObjDyn) : (d.setObjDyn o x).drv = d.drv := rfl
@[simp] theorem Dev.setObjDyn_straps (o : Nat) (x : ObjDyn) : (d.setObjDyn o x).straps = d.straps := rfl
@[simp] theorem Dev.setObjDyn_poison (o : Nat) (x : ObjDyn) : (d.setObjDyn o x).poison = d.poison := rfl
@[simp] theorem Dev.setObjDyn_dmc (o : Nat) (x : ObjDyn) : (d.setObjDyn o x).dmc = d.dmc := rfl
@[simp] theorem Dev.setObjDyn_freed (o : Nat) (x : ObjDyn) : (d.setObjDyn o x).freed = d.freed := rfl
@[simp] theorem Dev.setObjDyn_twn (o : Nat) (x : ObjDyn) : (d.setObjDyn o x).twn = d.twn := rfl
@[simp] theorem Dev.setObjDyn_sys (o : Nat) (x : ObjDyn) : (d.setObjDyn o x).sys = d.sys := rfl
@[simp] theorem Dev.setObjDyn_lmp (o : Nat) (x : ObjDyn) : (d.setObjDyn o x).lmp = d.lmp := rfl
@[simp] theorem Dev.setObjDyn_resp (o : Nat) (x : ObjDyn) : (d.setObjDyn o x).resp = d.resp := rfl
@[simp] theorem Dev.setObjDyn_out (o : Nat) (x : ObjDyn) : (d.setObjDyn o x).out = d.out := rfl
@[simp] theorem Dev.setObjDyn_sdBy (o : Nat) (x : ObjDyn) : (d.setObjDyn o x).sdBy = d.sdBy := rfl
@[simp] theorem Dev.setObjDyn_tap (o : Nat) (x : ObjDyn) : (d.setObjDyn o x).tap = d.tap := rfl

/-! ### setLisDyn -/

@[simp] theorem Dev.setLisDyn_regs (i : Nat) (x : LisDyn) : (d.setLisDyn i x).regs = d.regs := rfl
@[simp] theorem Dev.setLisDyn_est (i : Nat) (x : LisDyn) : (d.setLisDyn i x).est = d.est := rfl
@[simp] theorem Dev.setLisDyn_latch (i : Nat) (x : LisDyn) : (d.setLisDyn i x).latch = d.latch := rfl
@[simp] theorem Dev.setLisDyn_pendW (i : Nat) (x : LisDyn) : (d.setLisDyn i x).pendW = d.pendW := rfl
@[simp] theorem Dev.setLisDyn_tabW (i : Nat) (x : LisDyn) : (d.setLisDyn i x).tabW = d.tabW := rfl
@[simp] theorem Dev.setLisDyn_tabE (i : Nat) (x : LisDyn) : (d.setLisDyn i x).tabE = d.tabE := rfl
@[simp] theorem Dev.setLisDyn_samp (i : Nat) (x : LisDyn) : (d.setLisDyn i x).samp = d.samp := rfl
@[simp] theorem Dev.setLisDyn_sdram (i : Nat) (x : LisDyn) : (d.setLisDyn i x).sdram = d.sdram := rfl
@[simp] theorem Dev.setLisDyn_sram (i : Nat) (x : LisDyn) : (d.setLisDyn i x).sram = d.sram := rfl
@[simp] theorem Dev.setLisDyn_clk (i : Nat) (x : LisDyn) : (d.setLisDyn i x).clk = d.clk := rfl
@[simp] theorem Dev.setLisDyn_pipe (i : Nat) (x : LisDyn) : (d.setLisDyn i x).pipe = d.pipe := rfl
@[simp] theorem Dev.setLisDyn_evt (i : Nat) (x : LisDyn) : (d.setLisDyn i x).evt = d.evt := rfl
@[simp] theorem Dev.setLisDyn_icx (i : Nat) (x : LisDyn) : (d.setLisDyn i x).icx = d.icx := rfl
@[simp] theorem Dev.setLisDyn_div (i : Nat) (x : LisDyn) : (d.setLisDyn i x).div = d.div := rfl
@[simp] theorem Dev.setLisDyn_rbt (i : Nat) (x : LisDyn) : (d.setLisDyn i x).rbt = d.rbt := rfl
@[simp] theorem Dev.setLisDyn_geo (i : Nat) (x : LisDyn) : (d.setLisDyn i x).geo = d.geo := rfl
@[simp] theorem Dev.setLisDyn_conv (i : Nat) (x : LisDyn) : (d.setLisDyn i x).conv = d.conv := rfl
@[simp] theorem Dev.setLisDyn_cond (i : Nat) (x : LisDyn) : (d.setLisDyn i x).cond = d.cond := rfl
@[simp] theorem Dev.setLisDyn_net (i : Nat) (x : LisDyn) : (d.setLisDyn i x).net = d.net := rfl
@[simp] theorem Dev.setLisDyn_ptp (i : Nat) (x : LisDyn) : (d.setLisDyn i x).ptp = d.ptp := rfl
@[simp] theorem Dev.setLisDyn_lpo (i : Nat) (x : LisDyn) : (d.setLisDyn i x).lpo = d.lpo := rfl
@[simp] theorem Dev.setLisDyn_drv (i : Nat) (x : LisDyn) : (d.setLisDyn i x).drv = d.drv := rfl
@[simp] theorem Dev.setLisDyn_straps (i : Nat) (x : LisDyn) : (d.setLisDyn i x).straps = d.straps := rfl
@[simp] theorem Dev.setLisDyn_poison (i : Nat) (x : LisDyn) : (d.setLisDyn i x).poison = d.poison := rfl
@[simp] theorem Dev.setLisDyn_dmc (i : Nat) (x : LisDyn) : (d.setLisDyn i x).dmc = d.dmc := rfl
@[simp] theorem Dev.setLisDyn_freed (i : Nat) (x : LisDyn) : (d.setLisDyn i x).freed = d.freed := rfl
@[simp] theorem Dev.setLisDyn_twn (i : Nat) (x : LisDyn) : (d.setLisDyn i x).twn = d.twn := rfl
@[simp] theorem Dev.setLisDyn_sys (i : Nat) (x : LisDyn) : (d.setLisDyn i x).sys = d.sys := rfl
@[simp] theorem Dev.setLisDyn_lmp (i : Nat) (x : LisDyn) : (d.setLisDyn i x).lmp = d.lmp := rfl
@[simp] theorem Dev.setLisDyn_resp (i : Nat) (x : LisDyn) : (d.setLisDyn i x).resp = d.resp := rfl
@[simp] theorem Dev.setLisDyn_out (i : Nat) (x : LisDyn) : (d.setLisDyn i x).out = d.out := rfl
@[simp] theorem Dev.setLisDyn_sdBy (i : Nat) (x : LisDyn) : (d.setLisDyn i x).sdBy = d.sdBy := rfl
@[simp] theorem Dev.setLisDyn_tap (i : Nat) (x : LisDyn) : (d.setLisDyn i x).tap = d.tap := rfl

/-! ### setWarden -/

@[simp] theorem Dev.setWarden_regs (w : Nat) (x : Warden) : (d.setWarden w x).regs = d.regs := rfl
@[simp] theorem Dev.setWarden_est (w : Nat) (x : Warden) : (d.setWarden w x).est = d.est := rfl
@[simp] theorem Dev.setWarden_latch (w : Nat) (x : Warden) : (d.setWarden w x).latch = d.latch := rfl
@[simp] theorem Dev.setWarden_pendW (w : Nat) (x : Warden) : (d.setWarden w x).pendW = d.pendW := rfl
@[simp] theorem Dev.setWarden_tabW (w : Nat) (x : Warden) : (d.setWarden w x).tabW = d.tabW := rfl
@[simp] theorem Dev.setWarden_tabE (w : Nat) (x : Warden) : (d.setWarden w x).tabE = d.tabE := rfl
@[simp] theorem Dev.setWarden_samp (w : Nat) (x : Warden) : (d.setWarden w x).samp = d.samp := rfl
@[simp] theorem Dev.setWarden_sdram (w : Nat) (x : Warden) : (d.setWarden w x).sdram = d.sdram := rfl
@[simp] theorem Dev.setWarden_sram (w : Nat) (x : Warden) : (d.setWarden w x).sram = d.sram := rfl
@[simp] theorem Dev.setWarden_clk (w : Nat) (x : Warden) : (d.setWarden w x).clk = d.clk := rfl
@[simp] theorem Dev.setWarden_pipe (w : Nat) (x : Warden) : (d.setWarden w x).pipe = d.pipe := rfl
@[simp] theorem Dev.setWarden_evt (w : Nat) (x : Warden) : (d.setWarden w x).evt = d.evt := rfl
@[simp] theorem Dev.setWarden_icx (w : Nat) (x : Warden) : (d.setWarden w x).icx = d.icx := rfl
@[simp] theorem Dev.setWarden_div (w : Nat) (x : Warden) : (d.setWarden w x).div = d.div := rfl
@[simp] theorem Dev.setWarden_rbt (w : Nat) (x : Warden) : (d.setWarden w x).rbt = d.rbt := rfl
@[simp] theorem Dev.setWarden_geo (w : Nat) (x : Warden) : (d.setWarden w x).geo = d.geo := rfl
@[simp] theorem Dev.setWarden_conv (w : Nat) (x : Warden) : (d.setWarden w x).conv = d.conv := rfl
@[simp] theorem Dev.setWarden_cond (w : Nat) (x : Warden) : (d.setWarden w x).cond = d.cond := rfl
@[simp] theorem Dev.setWarden_net (w : Nat) (x : Warden) : (d.setWarden w x).net = d.net := rfl
@[simp] theorem Dev.setWarden_ptp (w : Nat) (x : Warden) : (d.setWarden w x).ptp = d.ptp := rfl
@[simp] theorem Dev.setWarden_lpo (w : Nat) (x : Warden) : (d.setWarden w x).lpo = d.lpo := rfl
@[simp] theorem Dev.setWarden_drv (w : Nat) (x : Warden) : (d.setWarden w x).drv = d.drv := rfl
@[simp] theorem Dev.setWarden_straps (w : Nat) (x : Warden) : (d.setWarden w x).straps = d.straps := rfl
@[simp] theorem Dev.setWarden_poison (w : Nat) (x : Warden) : (d.setWarden w x).poison = d.poison := rfl
@[simp] theorem Dev.setWarden_dmc (w : Nat) (x : Warden) : (d.setWarden w x).dmc = d.dmc := rfl
@[simp] theorem Dev.setWarden_freed (w : Nat) (x : Warden) : (d.setWarden w x).freed = d.freed := rfl
@[simp] theorem Dev.setWarden_twn (w : Nat) (x : Warden) : (d.setWarden w x).twn = d.twn := rfl
@[simp] theorem Dev.setWarden_sys (w : Nat) (x : Warden) : (d.setWarden w x).sys = d.sys := rfl
@[simp] theorem Dev.setWarden_lmp (w : Nat) (x : Warden) : (d.setWarden w x).lmp = d.lmp := rfl
@[simp] theorem Dev.setWarden_resp (w : Nat) (x : Warden) : (d.setWarden w x).resp = d.resp := rfl
@[simp] theorem Dev.setWarden_out (w : Nat) (x : Warden) : (d.setWarden w x).out = d.out := rfl
@[simp] theorem Dev.setWarden_sdBy (w : Nat) (x : Warden) : (d.setWarden w x).sdBy = d.sdBy := rfl
@[simp] theorem Dev.setWarden_tap (w : Nat) (x : Warden) : (d.setWarden w x).tap = d.tap := rfl

/-! ### setXp -/

@[simp] theorem Dev.setXp_regs (x : Nat) (v : Xp) : (d.setXp x v).regs = d.regs := rfl
@[simp] theorem Dev.setXp_est (x : Nat) (v : Xp) : (d.setXp x v).est = d.est := rfl
@[simp] theorem Dev.setXp_latch (x : Nat) (v : Xp) : (d.setXp x v).latch = d.latch := rfl
@[simp] theorem Dev.setXp_pendW (x : Nat) (v : Xp) : (d.setXp x v).pendW = d.pendW := rfl
@[simp] theorem Dev.setXp_tabW (x : Nat) (v : Xp) : (d.setXp x v).tabW = d.tabW := rfl
@[simp] theorem Dev.setXp_tabE (x : Nat) (v : Xp) : (d.setXp x v).tabE = d.tabE := rfl
@[simp] theorem Dev.setXp_samp (x : Nat) (v : Xp) : (d.setXp x v).samp = d.samp := rfl
@[simp] theorem Dev.setXp_sdram (x : Nat) (v : Xp) : (d.setXp x v).sdram = d.sdram := rfl
@[simp] theorem Dev.setXp_sram (x : Nat) (v : Xp) : (d.setXp x v).sram = d.sram := rfl
@[simp] theorem Dev.setXp_clk (x : Nat) (v : Xp) : (d.setXp x v).clk = d.clk := rfl
@[simp] theorem Dev.setXp_pipe (x : Nat) (v : Xp) : (d.setXp x v).pipe = d.pipe := rfl
@[simp] theorem Dev.setXp_evt (x : Nat) (v : Xp) : (d.setXp x v).evt = d.evt := rfl
@[simp] theorem Dev.setXp_icx (x : Nat) (v : Xp) : (d.setXp x v).icx = d.icx := rfl
@[simp] theorem Dev.setXp_obj (x : Nat) (v : Xp) : (d.setXp x v).obj = d.obj := rfl
@[simp] theorem Dev.setXp_div (x : Nat) (v : Xp) : (d.setXp x v).div = d.div := rfl
@[simp] theorem Dev.setXp_geo (x : Nat) (v : Xp) : (d.setXp x v).geo = d.geo := rfl
@[simp] theorem Dev.setXp_conv (x : Nat) (v : Xp) : (d.setXp x v).conv = d.conv := rfl
@[simp] theorem Dev.setXp_cond (x : Nat) (v : Xp) : (d.setXp x v).cond = d.cond := rfl
@[simp] theorem Dev.setXp_net (x : Nat) (v : Xp) : (d.setXp x v).net = d.net := rfl
@[simp] theorem Dev.setXp_ptp (x : Nat) (v : Xp) : (d.setXp x v).ptp = d.ptp := rfl
@[simp] theorem Dev.setXp_lpo (x : Nat) (v : Xp) : (d.setXp x v).lpo = d.lpo := rfl
@[simp] theorem Dev.setXp_drv (x : Nat) (v : Xp) : (d.setXp x v).drv = d.drv := rfl
@[simp] theorem Dev.setXp_straps (x : Nat) (v : Xp) : (d.setXp x v).straps = d.straps := rfl
@[simp] theorem Dev.setXp_poison (x : Nat) (v : Xp) : (d.setXp x v).poison = d.poison := rfl
@[simp] theorem Dev.setXp_dmc (x : Nat) (v : Xp) : (d.setXp x v).dmc = d.dmc := rfl
@[simp] theorem Dev.setXp_freed (x : Nat) (v : Xp) : (d.setXp x v).freed = d.freed := rfl
@[simp] theorem Dev.setXp_twn (x : Nat) (v : Xp) : (d.setXp x v).twn = d.twn := rfl
@[simp] theorem Dev.setXp_sys (x : Nat) (v : Xp) : (d.setXp x v).sys = d.sys := rfl
@[simp] theorem Dev.setXp_lmp (x : Nat) (v : Xp) : (d.setXp x v).lmp = d.lmp := rfl
@[simp] theorem Dev.setXp_resp (x : Nat) (v : Xp) : (d.setXp x v).resp = d.resp := rfl
@[simp] theorem Dev.setXp_out (x : Nat) (v : Xp) : (d.setXp x v).out = d.out := rfl
@[simp] theorem Dev.setXp_sdBy (x : Nat) (v : Xp) : (d.setXp x v).sdBy = d.sdBy := rfl
@[simp] theorem Dev.setXp_tap (x : Nat) (v : Xp) : (d.setXp x v).tap = d.tap := rfl

/-! ### setAsrc -/

@[simp] theorem Dev.setAsrc_regs (c : Nat) (a : Asrc) : (d.setAsrc c a).regs = d.regs := rfl
@[simp] theorem Dev.setAsrc_est (c : Nat) (a : Asrc) : (d.setAsrc c a).est = d.est := rfl
@[simp] theorem Dev.setAsrc_latch (c : Nat) (a : Asrc) : (d.setAsrc c a).latch = d.latch := rfl
@[simp] theorem Dev.setAsrc_pendW (c : Nat) (a : Asrc) : (d.setAsrc c a).pendW = d.pendW := rfl
@[simp] theorem Dev.setAsrc_tabW (c : Nat) (a : Asrc) : (d.setAsrc c a).tabW = d.tabW := rfl
@[simp] theorem Dev.setAsrc_tabE (c : Nat) (a : Asrc) : (d.setAsrc c a).tabE = d.tabE := rfl
@[simp] theorem Dev.setAsrc_samp (c : Nat) (a : Asrc) : (d.setAsrc c a).samp = d.samp := rfl
@[simp] theorem Dev.setAsrc_sdram (c : Nat) (a : Asrc) : (d.setAsrc c a).sdram = d.sdram := rfl
@[simp] theorem Dev.setAsrc_sram (c : Nat) (a : Asrc) : (d.setAsrc c a).sram = d.sram := rfl
@[simp] theorem Dev.setAsrc_clk (c : Nat) (a : Asrc) : (d.setAsrc c a).clk = d.clk := rfl
@[simp] theorem Dev.setAsrc_pipe (c : Nat) (a : Asrc) : (d.setAsrc c a).pipe = d.pipe := rfl
@[simp] theorem Dev.setAsrc_evt (c : Nat) (a : Asrc) : (d.setAsrc c a).evt = d.evt := rfl
@[simp] theorem Dev.setAsrc_icx (c : Nat) (a : Asrc) : (d.setAsrc c a).icx = d.icx := rfl
@[simp] theorem Dev.setAsrc_obj (c : Nat) (a : Asrc) : (d.setAsrc c a).obj = d.obj := rfl
@[simp] theorem Dev.setAsrc_div (c : Nat) (a : Asrc) : (d.setAsrc c a).div = d.div := rfl
@[simp] theorem Dev.setAsrc_geo (c : Nat) (a : Asrc) : (d.setAsrc c a).geo = d.geo := rfl
@[simp] theorem Dev.setAsrc_conv (c : Nat) (a : Asrc) : (d.setAsrc c a).conv = d.conv := rfl
@[simp] theorem Dev.setAsrc_cond (c : Nat) (a : Asrc) : (d.setAsrc c a).cond = d.cond := rfl
@[simp] theorem Dev.setAsrc_net (c : Nat) (a : Asrc) : (d.setAsrc c a).net = d.net := rfl
@[simp] theorem Dev.setAsrc_ptp (c : Nat) (a : Asrc) : (d.setAsrc c a).ptp = d.ptp := rfl
@[simp] theorem Dev.setAsrc_lpo (c : Nat) (a : Asrc) : (d.setAsrc c a).lpo = d.lpo := rfl
@[simp] theorem Dev.setAsrc_drv (c : Nat) (a : Asrc) : (d.setAsrc c a).drv = d.drv := rfl
@[simp] theorem Dev.setAsrc_straps (c : Nat) (a : Asrc) : (d.setAsrc c a).straps = d.straps := rfl
@[simp] theorem Dev.setAsrc_poison (c : Nat) (a : Asrc) : (d.setAsrc c a).poison = d.poison := rfl
@[simp] theorem Dev.setAsrc_dmc (c : Nat) (a : Asrc) : (d.setAsrc c a).dmc = d.dmc := rfl
@[simp] theorem Dev.setAsrc_freed (c : Nat) (a : Asrc) : (d.setAsrc c a).freed = d.freed := rfl
@[simp] theorem Dev.setAsrc_twn (c : Nat) (a : Asrc) : (d.setAsrc c a).twn = d.twn := rfl
@[simp] theorem Dev.setAsrc_sys (c : Nat) (a : Asrc) : (d.setAsrc c a).sys = d.sys := rfl
@[simp] theorem Dev.setAsrc_lmp (c : Nat) (a : Asrc) : (d.setAsrc c a).lmp = d.lmp := rfl
@[simp] theorem Dev.setAsrc_resp (c : Nat) (a : Asrc) : (d.setAsrc c a).resp = d.resp := rfl
@[simp] theorem Dev.setAsrc_out (c : Nat) (a : Asrc) : (d.setAsrc c a).out = d.out := rfl
@[simp] theorem Dev.setAsrc_sdBy (c : Nat) (a : Asrc) : (d.setAsrc c a).sdBy = d.sdBy := rfl
@[simp] theorem Dev.setAsrc_tap (c : Nat) (a : Asrc) : (d.setAsrc c a).tap = d.tap := rfl

/-! ### setStreet -/

@[simp] theorem Dev.setStreet_regs (i : Nat) (x : Str) : (d.setStreet i x).regs = d.regs := rfl
@[simp] theorem Dev.setStreet_est (i : Nat) (x : Str) : (d.setStreet i x).est = d.est := rfl
@[simp] theorem Dev.setStreet_latch (i : Nat) (x : Str) : (d.setStreet i x).latch = d.latch := rfl
@[simp] theorem Dev.setStreet_pendW (i : Nat) (x : Str) : (d.setStreet i x).pendW = d.pendW := rfl
@[simp] theorem Dev.setStreet_tabW (i : Nat) (x : Str) : (d.setStreet i x).tabW = d.tabW := rfl
@[simp] theorem Dev.setStreet_tabE (i : Nat) (x : Str) : (d.setStreet i x).tabE = d.tabE := rfl
@[simp] theorem Dev.setStreet_samp (i : Nat) (x : Str) : (d.setStreet i x).samp = d.samp := rfl
@[simp] theorem Dev.setStreet_sdram (i : Nat) (x : Str) : (d.setStreet i x).sdram = d.sdram := rfl
@[simp] theorem Dev.setStreet_sram (i : Nat) (x : Str) : (d.setStreet i x).sram = d.sram := rfl
@[simp] theorem Dev.setStreet_clk (i : Nat) (x : Str) : (d.setStreet i x).clk = d.clk := rfl
@[simp] theorem Dev.setStreet_pipe (i : Nat) (x : Str) : (d.setStreet i x).pipe = d.pipe := rfl
@[simp] theorem Dev.setStreet_evt (i : Nat) (x : Str) : (d.setStreet i x).evt = d.evt := rfl
@[simp] theorem Dev.setStreet_icx (i : Nat) (x : Str) : (d.setStreet i x).icx = d.icx := rfl
@[simp] theorem Dev.setStreet_obj (i : Nat) (x : Str) : (d.setStreet i x).obj = d.obj := rfl
@[simp] theorem Dev.setStreet_div (i : Nat) (x : Str) : (d.setStreet i x).div = d.div := rfl
@[simp] theorem Dev.setStreet_rbt (i : Nat) (x : Str) : (d.setStreet i x).rbt = d.rbt := rfl
@[simp] theorem Dev.setStreet_conv (i : Nat) (x : Str) : (d.setStreet i x).conv = d.conv := rfl
@[simp] theorem Dev.setStreet_cond (i : Nat) (x : Str) : (d.setStreet i x).cond = d.cond := rfl
@[simp] theorem Dev.setStreet_net (i : Nat) (x : Str) : (d.setStreet i x).net = d.net := rfl
@[simp] theorem Dev.setStreet_ptp (i : Nat) (x : Str) : (d.setStreet i x).ptp = d.ptp := rfl
@[simp] theorem Dev.setStreet_lpo (i : Nat) (x : Str) : (d.setStreet i x).lpo = d.lpo := rfl
@[simp] theorem Dev.setStreet_drv (i : Nat) (x : Str) : (d.setStreet i x).drv = d.drv := rfl
@[simp] theorem Dev.setStreet_straps (i : Nat) (x : Str) : (d.setStreet i x).straps = d.straps := rfl
@[simp] theorem Dev.setStreet_poison (i : Nat) (x : Str) : (d.setStreet i x).poison = d.poison := rfl
@[simp] theorem Dev.setStreet_dmc (i : Nat) (x : Str) : (d.setStreet i x).dmc = d.dmc := rfl
@[simp] theorem Dev.setStreet_freed (i : Nat) (x : Str) : (d.setStreet i x).freed = d.freed := rfl
@[simp] theorem Dev.setStreet_twn (i : Nat) (x : Str) : (d.setStreet i x).twn = d.twn := rfl
@[simp] theorem Dev.setStreet_sys (i : Nat) (x : Str) : (d.setStreet i x).sys = d.sys := rfl
@[simp] theorem Dev.setStreet_lmp (i : Nat) (x : Str) : (d.setStreet i x).lmp = d.lmp := rfl
@[simp] theorem Dev.setStreet_resp (i : Nat) (x : Str) : (d.setStreet i x).resp = d.resp := rfl
@[simp] theorem Dev.setStreet_out (i : Nat) (x : Str) : (d.setStreet i x).out = d.out := rfl
@[simp] theorem Dev.setStreet_sdBy (i : Nat) (x : Str) : (d.setStreet i x).sdBy = d.sdBy := rfl
@[simp] theorem Dev.setStreet_tap (i : Nat) (x : Str) : (d.setStreet i x).tap = d.tap := rfl

/-! ### setPair -/

@[simp] theorem Dev.setPair_regs (o l : Nat) (p : GeoPair) : (d.setPair o l p).regs = d.regs := rfl
@[simp] theorem Dev.setPair_est (o l : Nat) (p : GeoPair) : (d.setPair o l p).est = d.est := rfl
@[simp] theorem Dev.setPair_latch (o l : Nat) (p : GeoPair) : (d.setPair o l p).latch = d.latch := rfl
@[simp] theorem Dev.setPair_pendW (o l : Nat) (p : GeoPair) : (d.setPair o l p).pendW = d.pendW := rfl
@[simp] theorem Dev.setPair_tabW (o l : Nat) (p : GeoPair) : (d.setPair o l p).tabW = d.tabW := rfl
@[simp] theorem Dev.setPair_tabE (o l : Nat) (p : GeoPair) : (d.setPair o l p).tabE = d.tabE := rfl
@[simp] theorem Dev.setPair_samp (o l : Nat) (p : GeoPair) : (d.setPair o l p).samp = d.samp := rfl
@[simp] theorem Dev.setPair_sdram (o l : Nat) (p : GeoPair) : (d.setPair o l p).sdram = d.sdram := rfl
@[simp] theorem Dev.setPair_sram (o l : Nat) (p : GeoPair) : (d.setPair o l p).sram = d.sram := rfl
@[simp] theorem Dev.setPair_clk (o l : Nat) (p : GeoPair) : (d.setPair o l p).clk = d.clk := rfl
@[simp] theorem Dev.setPair_pipe (o l : Nat) (p : GeoPair) : (d.setPair o l p).pipe = d.pipe := rfl
@[simp] theorem Dev.setPair_evt (o l : Nat) (p : GeoPair) : (d.setPair o l p).evt = d.evt := rfl
@[simp] theorem Dev.setPair_icx (o l : Nat) (p : GeoPair) : (d.setPair o l p).icx = d.icx := rfl
@[simp] theorem Dev.setPair_obj (o l : Nat) (p : GeoPair) : (d.setPair o l p).obj = d.obj := rfl
@[simp] theorem Dev.setPair_div (o l : Nat) (p : GeoPair) : (d.setPair o l p).div = d.div := rfl
@[simp] theorem Dev.setPair_rbt (o l : Nat) (p : GeoPair) : (d.setPair o l p).rbt = d.rbt := rfl
@[simp] theorem Dev.setPair_conv (o l : Nat) (p : GeoPair) : (d.setPair o l p).conv = d.conv := rfl
@[simp] theorem Dev.setPair_cond (o l : Nat) (p : GeoPair) : (d.setPair o l p).cond = d.cond := rfl
@[simp] theorem Dev.setPair_net (o l : Nat) (p : GeoPair) : (d.setPair o l p).net = d.net := rfl
@[simp] theorem Dev.setPair_ptp (o l : Nat) (p : GeoPair) : (d.setPair o l p).ptp = d.ptp := rfl
@[simp] theorem Dev.setPair_lpo (o l : Nat) (p : GeoPair) : (d.setPair o l p).lpo = d.lpo := rfl
@[simp] theorem Dev.setPair_drv (o l : Nat) (p : GeoPair) : (d.setPair o l p).drv = d.drv := rfl
@[simp] theorem Dev.setPair_straps (o l : Nat) (p : GeoPair) : (d.setPair o l p).straps = d.straps := rfl
@[simp] theorem Dev.setPair_poison (o l : Nat) (p : GeoPair) : (d.setPair o l p).poison = d.poison := rfl
@[simp] theorem Dev.setPair_dmc (o l : Nat) (p : GeoPair) : (d.setPair o l p).dmc = d.dmc := rfl
@[simp] theorem Dev.setPair_freed (o l : Nat) (p : GeoPair) : (d.setPair o l p).freed = d.freed := rfl
@[simp] theorem Dev.setPair_twn (o l : Nat) (p : GeoPair) : (d.setPair o l p).twn = d.twn := rfl
@[simp] theorem Dev.setPair_sys (o l : Nat) (p : GeoPair) : (d.setPair o l p).sys = d.sys := rfl
@[simp] theorem Dev.setPair_lmp (o l : Nat) (p : GeoPair) : (d.setPair o l p).lmp = d.lmp := rfl
@[simp] theorem Dev.setPair_resp (o l : Nat) (p : GeoPair) : (d.setPair o l p).resp = d.resp := rfl
@[simp] theorem Dev.setPair_out (o l : Nat) (p : GeoPair) : (d.setPair o l p).out = d.out := rfl
@[simp] theorem Dev.setPair_sdBy (o l : Nat) (p : GeoPair) : (d.setPair o l p).sdBy = d.sdBy := rfl
@[simp] theorem Dev.setPair_tap (o l : Nat) (p : GeoPair) : (d.setPair o l p).tap = d.tap := rfl

/-! ### setOutSt -/

@[simp] theorem Dev.setOutSt_regs (f : Nat) (x : OutSt) : (d.setOutSt f x).regs = d.regs := rfl
@[simp] theorem Dev.setOutSt_est (f : Nat) (x : OutSt) : (d.setOutSt f x).est = d.est := rfl
@[simp] theorem Dev.setOutSt_latch (f : Nat) (x : OutSt) : (d.setOutSt f x).latch = d.latch := rfl
@[simp] theorem Dev.setOutSt_pendW (f : Nat) (x : OutSt) : (d.setOutSt f x).pendW = d.pendW := rfl
@[simp] theorem Dev.setOutSt_tabW (f : Nat) (x : OutSt) : (d.setOutSt f x).tabW = d.tabW := rfl
@[simp] theorem Dev.setOutSt_tabE (f : Nat) (x : OutSt) : (d.setOutSt f x).tabE = d.tabE := rfl
@[simp] theorem Dev.setOutSt_samp (f : Nat) (x : OutSt) : (d.setOutSt f x).samp = d.samp := rfl
@[simp] theorem Dev.setOutSt_sdram (f : Nat) (x : OutSt) : (d.setOutSt f x).sdram = d.sdram := rfl
@[simp] theorem Dev.setOutSt_sram (f : Nat) (x : OutSt) : (d.setOutSt f x).sram = d.sram := rfl
@[simp] theorem Dev.setOutSt_clk (f : Nat) (x : OutSt) : (d.setOutSt f x).clk = d.clk := rfl
@[simp] theorem Dev.setOutSt_pipe (f : Nat) (x : OutSt) : (d.setOutSt f x).pipe = d.pipe := rfl
@[simp] theorem Dev.setOutSt_evt (f : Nat) (x : OutSt) : (d.setOutSt f x).evt = d.evt := rfl
@[simp] theorem Dev.setOutSt_icx (f : Nat) (x : OutSt) : (d.setOutSt f x).icx = d.icx := rfl
@[simp] theorem Dev.setOutSt_obj (f : Nat) (x : OutSt) : (d.setOutSt f x).obj = d.obj := rfl
@[simp] theorem Dev.setOutSt_div (f : Nat) (x : OutSt) : (d.setOutSt f x).div = d.div := rfl
@[simp] theorem Dev.setOutSt_rbt (f : Nat) (x : OutSt) : (d.setOutSt f x).rbt = d.rbt := rfl
@[simp] theorem Dev.setOutSt_geo (f : Nat) (x : OutSt) : (d.setOutSt f x).geo = d.geo := rfl
@[simp] theorem Dev.setOutSt_conv (f : Nat) (x : OutSt) : (d.setOutSt f x).conv = d.conv := rfl
@[simp] theorem Dev.setOutSt_net (f : Nat) (x : OutSt) : (d.setOutSt f x).net = d.net := rfl
@[simp] theorem Dev.setOutSt_ptp (f : Nat) (x : OutSt) : (d.setOutSt f x).ptp = d.ptp := rfl
@[simp] theorem Dev.setOutSt_lpo (f : Nat) (x : OutSt) : (d.setOutSt f x).lpo = d.lpo := rfl
@[simp] theorem Dev.setOutSt_drv (f : Nat) (x : OutSt) : (d.setOutSt f x).drv = d.drv := rfl
@[simp] theorem Dev.setOutSt_straps (f : Nat) (x : OutSt) : (d.setOutSt f x).straps = d.straps := rfl
@[simp] theorem Dev.setOutSt_poison (f : Nat) (x : OutSt) : (d.setOutSt f x).poison = d.poison := rfl
@[simp] theorem Dev.setOutSt_dmc (f : Nat) (x : OutSt) : (d.setOutSt f x).dmc = d.dmc := rfl
@[simp] theorem Dev.setOutSt_freed (f : Nat) (x : OutSt) : (d.setOutSt f x).freed = d.freed := rfl
@[simp] theorem Dev.setOutSt_twn (f : Nat) (x : OutSt) : (d.setOutSt f x).twn = d.twn := rfl
@[simp] theorem Dev.setOutSt_sys (f : Nat) (x : OutSt) : (d.setOutSt f x).sys = d.sys := rfl
@[simp] theorem Dev.setOutSt_lmp (f : Nat) (x : OutSt) : (d.setOutSt f x).lmp = d.lmp := rfl
@[simp] theorem Dev.setOutSt_resp (f : Nat) (x : OutSt) : (d.setOutSt f x).resp = d.resp := rfl
@[simp] theorem Dev.setOutSt_out (f : Nat) (x : OutSt) : (d.setOutSt f x).out = d.out := rfl
@[simp] theorem Dev.setOutSt_sdBy (f : Nat) (x : OutSt) : (d.setOutSt f x).sdBy = d.sdBy := rfl
@[simp] theorem Dev.setOutSt_tap (f : Nat) (x : OutSt) : (d.setOutSt f x).tap = d.tap := rfl

/-! ### setPort -/

@[simp] theorem Dev.setPort_regs (p : Nat) (x : Port) : (d.setPort p x).regs = d.regs := rfl
@[simp] theorem Dev.setPort_est (p : Nat) (x : Port) : (d.setPort p x).est = d.est := rfl
@[simp] theorem Dev.setPort_latch (p : Nat) (x : Port) : (d.setPort p x).latch = d.latch := rfl
@[simp] theorem Dev.setPort_pendW (p : Nat) (x : Port) : (d.setPort p x).pendW = d.pendW := rfl
@[simp] theorem Dev.setPort_tabW (p : Nat) (x : Port) : (d.setPort p x).tabW = d.tabW := rfl
@[simp] theorem Dev.setPort_tabE (p : Nat) (x : Port) : (d.setPort p x).tabE = d.tabE := rfl
@[simp] theorem Dev.setPort_samp (p : Nat) (x : Port) : (d.setPort p x).samp = d.samp := rfl
@[simp] theorem Dev.setPort_sdram (p : Nat) (x : Port) : (d.setPort p x).sdram = d.sdram := rfl
@[simp] theorem Dev.setPort_sram (p : Nat) (x : Port) : (d.setPort p x).sram = d.sram := rfl
@[simp] theorem Dev.setPort_clk (p : Nat) (x : Port) : (d.setPort p x).clk = d.clk := rfl
@[simp] theorem Dev.setPort_pipe (p : Nat) (x : Port) : (d.setPort p x).pipe = d.pipe := rfl
@[simp] theorem Dev.setPort_evt (p : Nat) (x : Port) : (d.setPort p x).evt = d.evt := rfl
@[simp] theorem Dev.setPort_icx (p : Nat) (x : Port) : (d.setPort p x).icx = d.icx := rfl
@[simp] theorem Dev.setPort_obj (p : Nat) (x : Port) : (d.setPort p x).obj = d.obj := rfl
@[simp] theorem Dev.setPort_div (p : Nat) (x : Port) : (d.setPort p x).div = d.div := rfl
@[simp] theorem Dev.setPort_rbt (p : Nat) (x : Port) : (d.setPort p x).rbt = d.rbt := rfl
@[simp] theorem Dev.setPort_geo (p : Nat) (x : Port) : (d.setPort p x).geo = d.geo := rfl
@[simp] theorem Dev.setPort_conv (p : Nat) (x : Port) : (d.setPort p x).conv = d.conv := rfl
@[simp] theorem Dev.setPort_cond (p : Nat) (x : Port) : (d.setPort p x).cond = d.cond := rfl
@[simp] theorem Dev.setPort_ptp (p : Nat) (x : Port) : (d.setPort p x).ptp = d.ptp := rfl
@[simp] theorem Dev.setPort_lpo (p : Nat) (x : Port) : (d.setPort p x).lpo = d.lpo := rfl
@[simp] theorem Dev.setPort_drv (p : Nat) (x : Port) : (d.setPort p x).drv = d.drv := rfl
@[simp] theorem Dev.setPort_straps (p : Nat) (x : Port) : (d.setPort p x).straps = d.straps := rfl
@[simp] theorem Dev.setPort_poison (p : Nat) (x : Port) : (d.setPort p x).poison = d.poison := rfl
@[simp] theorem Dev.setPort_dmc (p : Nat) (x : Port) : (d.setPort p x).dmc = d.dmc := rfl
@[simp] theorem Dev.setPort_freed (p : Nat) (x : Port) : (d.setPort p x).freed = d.freed := rfl
@[simp] theorem Dev.setPort_twn (p : Nat) (x : Port) : (d.setPort p x).twn = d.twn := rfl
@[simp] theorem Dev.setPort_sys (p : Nat) (x : Port) : (d.setPort p x).sys = d.sys := rfl
@[simp] theorem Dev.setPort_lmp (p : Nat) (x : Port) : (d.setPort p x).lmp = d.lmp := rfl
@[simp] theorem Dev.setPort_resp (p : Nat) (x : Port) : (d.setPort p x).resp = d.resp := rfl
@[simp] theorem Dev.setPort_out (p : Nat) (x : Port) : (d.setPort p x).out = d.out := rfl
@[simp] theorem Dev.setPort_sdBy (p : Nat) (x : Port) : (d.setPort p x).sdBy = d.sdBy := rfl
@[simp] theorem Dev.setPort_tap (p : Nat) (x : Port) : (d.setPort p x).tap = d.tap := rfl

/-! ### setInMem -/

@[simp] theorem Dev.setInMem_regs (m : Nat) (x : InMem) : (d.setInMem m x).regs = d.regs := rfl
@[simp] theorem Dev.setInMem_est (m : Nat) (x : InMem) : (d.setInMem m x).est = d.est := rfl
@[simp] theorem Dev.setInMem_latch (m : Nat) (x : InMem) : (d.setInMem m x).latch = d.latch := rfl
@[simp] theorem Dev.setInMem_pendW (m : Nat) (x : InMem) : (d.setInMem m x).pendW = d.pendW := rfl
@[simp] theorem Dev.setInMem_tabW (m : Nat) (x : InMem) : (d.setInMem m x).tabW = d.tabW := rfl
@[simp] theorem Dev.setInMem_tabE (m : Nat) (x : InMem) : (d.setInMem m x).tabE = d.tabE := rfl
@[simp] theorem Dev.setInMem_samp (m : Nat) (x : InMem) : (d.setInMem m x).samp = d.samp := rfl
@[simp] theorem Dev.setInMem_sdram (m : Nat) (x : InMem) : (d.setInMem m x).sdram = d.sdram := rfl
@[simp] theorem Dev.setInMem_sram (m : Nat) (x : InMem) : (d.setInMem m x).sram = d.sram := rfl
@[simp] theorem Dev.setInMem_clk (m : Nat) (x : InMem) : (d.setInMem m x).clk = d.clk := rfl
@[simp] theorem Dev.setInMem_pipe (m : Nat) (x : InMem) : (d.setInMem m x).pipe = d.pipe := rfl
@[simp] theorem Dev.setInMem_evt (m : Nat) (x : InMem) : (d.setInMem m x).evt = d.evt := rfl
@[simp] theorem Dev.setInMem_icx (m : Nat) (x : InMem) : (d.setInMem m x).icx = d.icx := rfl
@[simp] theorem Dev.setInMem_obj (m : Nat) (x : InMem) : (d.setInMem m x).obj = d.obj := rfl
@[simp] theorem Dev.setInMem_div (m : Nat) (x : InMem) : (d.setInMem m x).div = d.div := rfl
@[simp] theorem Dev.setInMem_rbt (m : Nat) (x : InMem) : (d.setInMem m x).rbt = d.rbt := rfl
@[simp] theorem Dev.setInMem_geo (m : Nat) (x : InMem) : (d.setInMem m x).geo = d.geo := rfl
@[simp] theorem Dev.setInMem_conv (m : Nat) (x : InMem) : (d.setInMem m x).conv = d.conv := rfl
@[simp] theorem Dev.setInMem_cond (m : Nat) (x : InMem) : (d.setInMem m x).cond = d.cond := rfl
@[simp] theorem Dev.setInMem_ptp (m : Nat) (x : InMem) : (d.setInMem m x).ptp = d.ptp := rfl
@[simp] theorem Dev.setInMem_lpo (m : Nat) (x : InMem) : (d.setInMem m x).lpo = d.lpo := rfl
@[simp] theorem Dev.setInMem_drv (m : Nat) (x : InMem) : (d.setInMem m x).drv = d.drv := rfl
@[simp] theorem Dev.setInMem_straps (m : Nat) (x : InMem) : (d.setInMem m x).straps = d.straps := rfl
@[simp] theorem Dev.setInMem_poison (m : Nat) (x : InMem) : (d.setInMem m x).poison = d.poison := rfl
@[simp] theorem Dev.setInMem_dmc (m : Nat) (x : InMem) : (d.setInMem m x).dmc = d.dmc := rfl
@[simp] theorem Dev.setInMem_freed (m : Nat) (x : InMem) : (d.setInMem m x).freed = d.freed := rfl
@[simp] theorem Dev.setInMem_twn (m : Nat) (x : InMem) : (d.setInMem m x).twn = d.twn := rfl
@[simp] theorem Dev.setInMem_sys (m : Nat) (x : InMem) : (d.setInMem m x).sys = d.sys := rfl
@[simp] theorem Dev.setInMem_lmp (m : Nat) (x : InMem) : (d.setInMem m x).lmp = d.lmp := rfl
@[simp] theorem Dev.setInMem_resp (m : Nat) (x : InMem) : (d.setInMem m x).resp = d.resp := rfl
@[simp] theorem Dev.setInMem_out (m : Nat) (x : InMem) : (d.setInMem m x).out = d.out := rfl
@[simp] theorem Dev.setInMem_sdBy (m : Nat) (x : InMem) : (d.setInMem m x).sdBy = d.sdBy := rfl
@[simp] theorem Dev.setInMem_tap (m : Nat) (x : InMem) : (d.setInMem m x).tap = d.tap := rfl

/-! ### setAesRx -/

@[simp] theorem Dev.setAesRx_regs (r : Nat) (x : AesRx) : (d.setAesRx r x).regs = d.regs := rfl
@[simp] theorem Dev.setAesRx_est (r : Nat) (x : AesRx) : (d.setAesRx r x).est = d.est := rfl
@[simp] theorem Dev.setAesRx_latch (r : Nat) (x : AesRx) : (d.setAesRx r x).latch = d.latch := rfl
@[simp] theorem Dev.setAesRx_pendW (r : Nat) (x : AesRx) : (d.setAesRx r x).pendW = d.pendW := rfl
@[simp] theorem Dev.setAesRx_tabW (r : Nat) (x : AesRx) : (d.setAesRx r x).tabW = d.tabW := rfl
@[simp] theorem Dev.setAesRx_tabE (r : Nat) (x : AesRx) : (d.setAesRx r x).tabE = d.tabE := rfl
@[simp] theorem Dev.setAesRx_samp (r : Nat) (x : AesRx) : (d.setAesRx r x).samp = d.samp := rfl
@[simp] theorem Dev.setAesRx_sdram (r : Nat) (x : AesRx) : (d.setAesRx r x).sdram = d.sdram := rfl
@[simp] theorem Dev.setAesRx_sram (r : Nat) (x : AesRx) : (d.setAesRx r x).sram = d.sram := rfl
@[simp] theorem Dev.setAesRx_clk (r : Nat) (x : AesRx) : (d.setAesRx r x).clk = d.clk := rfl
@[simp] theorem Dev.setAesRx_pipe (r : Nat) (x : AesRx) : (d.setAesRx r x).pipe = d.pipe := rfl
@[simp] theorem Dev.setAesRx_evt (r : Nat) (x : AesRx) : (d.setAesRx r x).evt = d.evt := rfl
@[simp] theorem Dev.setAesRx_icx (r : Nat) (x : AesRx) : (d.setAesRx r x).icx = d.icx := rfl
@[simp] theorem Dev.setAesRx_obj (r : Nat) (x : AesRx) : (d.setAesRx r x).obj = d.obj := rfl
@[simp] theorem Dev.setAesRx_div (r : Nat) (x : AesRx) : (d.setAesRx r x).div = d.div := rfl
@[simp] theorem Dev.setAesRx_rbt (r : Nat) (x : AesRx) : (d.setAesRx r x).rbt = d.rbt := rfl
@[simp] theorem Dev.setAesRx_geo (r : Nat) (x : AesRx) : (d.setAesRx r x).geo = d.geo := rfl
@[simp] theorem Dev.setAesRx_conv (r : Nat) (x : AesRx) : (d.setAesRx r x).conv = d.conv := rfl
@[simp] theorem Dev.setAesRx_cond (r : Nat) (x : AesRx) : (d.setAesRx r x).cond = d.cond := rfl
@[simp] theorem Dev.setAesRx_ptp (r : Nat) (x : AesRx) : (d.setAesRx r x).ptp = d.ptp := rfl
@[simp] theorem Dev.setAesRx_lpo (r : Nat) (x : AesRx) : (d.setAesRx r x).lpo = d.lpo := rfl
@[simp] theorem Dev.setAesRx_drv (r : Nat) (x : AesRx) : (d.setAesRx r x).drv = d.drv := rfl
@[simp] theorem Dev.setAesRx_straps (r : Nat) (x : AesRx) : (d.setAesRx r x).straps = d.straps := rfl
@[simp] theorem Dev.setAesRx_poison (r : Nat) (x : AesRx) : (d.setAesRx r x).poison = d.poison := rfl
@[simp] theorem Dev.setAesRx_dmc (r : Nat) (x : AesRx) : (d.setAesRx r x).dmc = d.dmc := rfl
@[simp] theorem Dev.setAesRx_freed (r : Nat) (x : AesRx) : (d.setAesRx r x).freed = d.freed := rfl
@[simp] theorem Dev.setAesRx_twn (r : Nat) (x : AesRx) : (d.setAesRx r x).twn = d.twn := rfl
@[simp] theorem Dev.setAesRx_sys (r : Nat) (x : AesRx) : (d.setAesRx r x).sys = d.sys := rfl
@[simp] theorem Dev.setAesRx_lmp (r : Nat) (x : AesRx) : (d.setAesRx r x).lmp = d.lmp := rfl
@[simp] theorem Dev.setAesRx_resp (r : Nat) (x : AesRx) : (d.setAesRx r x).resp = d.resp := rfl
@[simp] theorem Dev.setAesRx_out (r : Nat) (x : AesRx) : (d.setAesRx r x).out = d.out := rfl
@[simp] theorem Dev.setAesRx_sdBy (r : Nat) (x : AesRx) : (d.setAesRx r x).sdBy = d.sdBy := rfl
@[simp] theorem Dev.setAesRx_tap (r : Nat) (x : AesRx) : (d.setAesRx r x).tap = d.tap := rfl

/-! ### setAesTx -/

@[simp] theorem Dev.setAesTx_regs (t : Nat) (x : AesTx) : (d.setAesTx t x).regs = d.regs := rfl
@[simp] theorem Dev.setAesTx_est (t : Nat) (x : AesTx) : (d.setAesTx t x).est = d.est := rfl
@[simp] theorem Dev.setAesTx_latch (t : Nat) (x : AesTx) : (d.setAesTx t x).latch = d.latch := rfl
@[simp] theorem Dev.setAesTx_pendW (t : Nat) (x : AesTx) : (d.setAesTx t x).pendW = d.pendW := rfl
@[simp] theorem Dev.setAesTx_tabW (t : Nat) (x : AesTx) : (d.setAesTx t x).tabW = d.tabW := rfl
@[simp] theorem Dev.setAesTx_tabE (t : Nat) (x : AesTx) : (d.setAesTx t x).tabE = d.tabE := rfl
@[simp] theorem Dev.setAesTx_samp (t : Nat) (x : AesTx) : (d.setAesTx t x).samp = d.samp := rfl
@[simp] theorem Dev.setAesTx_sdram (t : Nat) (x : AesTx) : (d.setAesTx t x).sdram = d.sdram := rfl
@[simp] theorem Dev.setAesTx_sram (t : Nat) (x : AesTx) : (d.setAesTx t x).sram = d.sram := rfl
@[simp] theorem Dev.setAesTx_clk (t : Nat) (x : AesTx) : (d.setAesTx t x).clk = d.clk := rfl
@[simp] theorem Dev.setAesTx_pipe (t : Nat) (x : AesTx) : (d.setAesTx t x).pipe = d.pipe := rfl
@[simp] theorem Dev.setAesTx_evt (t : Nat) (x : AesTx) : (d.setAesTx t x).evt = d.evt := rfl
@[simp] theorem Dev.setAesTx_icx (t : Nat) (x : AesTx) : (d.setAesTx t x).icx = d.icx := rfl
@[simp] theorem Dev.setAesTx_obj (t : Nat) (x : AesTx) : (d.setAesTx t x).obj = d.obj := rfl
@[simp] theorem Dev.setAesTx_div (t : Nat) (x : AesTx) : (d.setAesTx t x).div = d.div := rfl
@[simp] theorem Dev.setAesTx_rbt (t : Nat) (x : AesTx) : (d.setAesTx t x).rbt = d.rbt := rfl
@[simp] theorem Dev.setAesTx_geo (t : Nat) (x : AesTx) : (d.setAesTx t x).geo = d.geo := rfl
@[simp] theorem Dev.setAesTx_conv (t : Nat) (x : AesTx) : (d.setAesTx t x).conv = d.conv := rfl
@[simp] theorem Dev.setAesTx_cond (t : Nat) (x : AesTx) : (d.setAesTx t x).cond = d.cond := rfl
@[simp] theorem Dev.setAesTx_ptp (t : Nat) (x : AesTx) : (d.setAesTx t x).ptp = d.ptp := rfl
@[simp] theorem Dev.setAesTx_lpo (t : Nat) (x : AesTx) : (d.setAesTx t x).lpo = d.lpo := rfl
@[simp] theorem Dev.setAesTx_drv (t : Nat) (x : AesTx) : (d.setAesTx t x).drv = d.drv := rfl
@[simp] theorem Dev.setAesTx_straps (t : Nat) (x : AesTx) : (d.setAesTx t x).straps = d.straps := rfl
@[simp] theorem Dev.setAesTx_poison (t : Nat) (x : AesTx) : (d.setAesTx t x).poison = d.poison := rfl
@[simp] theorem Dev.setAesTx_dmc (t : Nat) (x : AesTx) : (d.setAesTx t x).dmc = d.dmc := rfl
@[simp] theorem Dev.setAesTx_freed (t : Nat) (x : AesTx) : (d.setAesTx t x).freed = d.freed := rfl
@[simp] theorem Dev.setAesTx_twn (t : Nat) (x : AesTx) : (d.setAesTx t x).twn = d.twn := rfl
@[simp] theorem Dev.setAesTx_sys (t : Nat) (x : AesTx) : (d.setAesTx t x).sys = d.sys := rfl
@[simp] theorem Dev.setAesTx_lmp (t : Nat) (x : AesTx) : (d.setAesTx t x).lmp = d.lmp := rfl
@[simp] theorem Dev.setAesTx_resp (t : Nat) (x : AesTx) : (d.setAesTx t x).resp = d.resp := rfl
@[simp] theorem Dev.setAesTx_out (t : Nat) (x : AesTx) : (d.setAesTx t x).out = d.out := rfl
@[simp] theorem Dev.setAesTx_sdBy (t : Nat) (x : AesTx) : (d.setAesTx t x).sdBy = d.sdBy := rfl
@[simp] theorem Dev.setAesTx_tap (t : Nat) (x : AesTx) : (d.setAesTx t x).tap = d.tap := rfl

/-! ### setRxStream -/

@[simp] theorem Dev.setRxStream_regs (s : Nat) (x : RxStream) : (d.setRxStream s x).regs = d.regs := rfl
@[simp] theorem Dev.setRxStream_est (s : Nat) (x : RxStream) : (d.setRxStream s x).est = d.est := rfl
@[simp] theorem Dev.setRxStream_latch (s : Nat) (x : RxStream) : (d.setRxStream s x).latch = d.latch := rfl
@[simp] theorem Dev.setRxStream_pendW (s : Nat) (x : RxStream) : (d.setRxStream s x).pendW = d.pendW := rfl
@[simp] theorem Dev.setRxStream_tabW (s : Nat) (x : RxStream) : (d.setRxStream s x).tabW = d.tabW := rfl
@[simp] theorem Dev.setRxStream_tabE (s : Nat) (x : RxStream) : (d.setRxStream s x).tabE = d.tabE := rfl
@[simp] theorem Dev.setRxStream_samp (s : Nat) (x : RxStream) : (d.setRxStream s x).samp = d.samp := rfl
@[simp] theorem Dev.setRxStream_sdram (s : Nat) (x : RxStream) : (d.setRxStream s x).sdram = d.sdram := rfl
@[simp] theorem Dev.setRxStream_sram (s : Nat) (x : RxStream) : (d.setRxStream s x).sram = d.sram := rfl
@[simp] theorem Dev.setRxStream_clk (s : Nat) (x : RxStream) : (d.setRxStream s x).clk = d.clk := rfl
@[simp] theorem Dev.setRxStream_pipe (s : Nat) (x : RxStream) : (d.setRxStream s x).pipe = d.pipe := rfl
@[simp] theorem Dev.setRxStream_evt (s : Nat) (x : RxStream) : (d.setRxStream s x).evt = d.evt := rfl
@[simp] theorem Dev.setRxStream_icx (s : Nat) (x : RxStream) : (d.setRxStream s x).icx = d.icx := rfl
@[simp] theorem Dev.setRxStream_obj (s : Nat) (x : RxStream) : (d.setRxStream s x).obj = d.obj := rfl
@[simp] theorem Dev.setRxStream_div (s : Nat) (x : RxStream) : (d.setRxStream s x).div = d.div := rfl
@[simp] theorem Dev.setRxStream_rbt (s : Nat) (x : RxStream) : (d.setRxStream s x).rbt = d.rbt := rfl
@[simp] theorem Dev.setRxStream_geo (s : Nat) (x : RxStream) : (d.setRxStream s x).geo = d.geo := rfl
@[simp] theorem Dev.setRxStream_conv (s : Nat) (x : RxStream) : (d.setRxStream s x).conv = d.conv := rfl
@[simp] theorem Dev.setRxStream_cond (s : Nat) (x : RxStream) : (d.setRxStream s x).cond = d.cond := rfl
@[simp] theorem Dev.setRxStream_ptp (s : Nat) (x : RxStream) : (d.setRxStream s x).ptp = d.ptp := rfl
@[simp] theorem Dev.setRxStream_lpo (s : Nat) (x : RxStream) : (d.setRxStream s x).lpo = d.lpo := rfl
@[simp] theorem Dev.setRxStream_drv (s : Nat) (x : RxStream) : (d.setRxStream s x).drv = d.drv := rfl
@[simp] theorem Dev.setRxStream_straps (s : Nat) (x : RxStream) : (d.setRxStream s x).straps = d.straps := rfl
@[simp] theorem Dev.setRxStream_poison (s : Nat) (x : RxStream) : (d.setRxStream s x).poison = d.poison := rfl
@[simp] theorem Dev.setRxStream_dmc (s : Nat) (x : RxStream) : (d.setRxStream s x).dmc = d.dmc := rfl
@[simp] theorem Dev.setRxStream_freed (s : Nat) (x : RxStream) : (d.setRxStream s x).freed = d.freed := rfl
@[simp] theorem Dev.setRxStream_twn (s : Nat) (x : RxStream) : (d.setRxStream s x).twn = d.twn := rfl
@[simp] theorem Dev.setRxStream_sys (s : Nat) (x : RxStream) : (d.setRxStream s x).sys = d.sys := rfl
@[simp] theorem Dev.setRxStream_lmp (s : Nat) (x : RxStream) : (d.setRxStream s x).lmp = d.lmp := rfl
@[simp] theorem Dev.setRxStream_resp (s : Nat) (x : RxStream) : (d.setRxStream s x).resp = d.resp := rfl
@[simp] theorem Dev.setRxStream_out (s : Nat) (x : RxStream) : (d.setRxStream s x).out = d.out := rfl
@[simp] theorem Dev.setRxStream_sdBy (s : Nat) (x : RxStream) : (d.setRxStream s x).sdBy = d.sdBy := rfl
@[simp] theorem Dev.setRxStream_tap (s : Nat) (x : RxStream) : (d.setRxStream s x).tap = d.tap := rfl

/-! ### setDom -/

@[simp] theorem Dev.setDom_regs (i : Nat) (x : Dom) : (d.setDom i x).regs = d.regs := rfl
@[simp] theorem Dev.setDom_est (i : Nat) (x : Dom) : (d.setDom i x).est = d.est := rfl
@[simp] theorem Dev.setDom_latch (i : Nat) (x : Dom) : (d.setDom i x).latch = d.latch := rfl
@[simp] theorem Dev.setDom_pendW (i : Nat) (x : Dom) : (d.setDom i x).pendW = d.pendW := rfl
@[simp] theorem Dev.setDom_tabW (i : Nat) (x : Dom) : (d.setDom i x).tabW = d.tabW := rfl
@[simp] theorem Dev.setDom_tabE (i : Nat) (x : Dom) : (d.setDom i x).tabE = d.tabE := rfl
@[simp] theorem Dev.setDom_samp (i : Nat) (x : Dom) : (d.setDom i x).samp = d.samp := rfl
@[simp] theorem Dev.setDom_sdram (i : Nat) (x : Dom) : (d.setDom i x).sdram = d.sdram := rfl
@[simp] theorem Dev.setDom_sram (i : Nat) (x : Dom) : (d.setDom i x).sram = d.sram := rfl
@[simp] theorem Dev.setDom_clk (i : Nat) (x : Dom) : (d.setDom i x).clk = d.clk := rfl
@[simp] theorem Dev.setDom_pipe (i : Nat) (x : Dom) : (d.setDom i x).pipe = d.pipe := rfl
@[simp] theorem Dev.setDom_evt (i : Nat) (x : Dom) : (d.setDom i x).evt = d.evt := rfl
@[simp] theorem Dev.setDom_icx (i : Nat) (x : Dom) : (d.setDom i x).icx = d.icx := rfl
@[simp] theorem Dev.setDom_obj (i : Nat) (x : Dom) : (d.setDom i x).obj = d.obj := rfl
@[simp] theorem Dev.setDom_div (i : Nat) (x : Dom) : (d.setDom i x).div = d.div := rfl
@[simp] theorem Dev.setDom_rbt (i : Nat) (x : Dom) : (d.setDom i x).rbt = d.rbt := rfl
@[simp] theorem Dev.setDom_geo (i : Nat) (x : Dom) : (d.setDom i x).geo = d.geo := rfl
@[simp] theorem Dev.setDom_conv (i : Nat) (x : Dom) : (d.setDom i x).conv = d.conv := rfl
@[simp] theorem Dev.setDom_cond (i : Nat) (x : Dom) : (d.setDom i x).cond = d.cond := rfl
@[simp] theorem Dev.setDom_net (i : Nat) (x : Dom) : (d.setDom i x).net = d.net := rfl
@[simp] theorem Dev.setDom_lpo (i : Nat) (x : Dom) : (d.setDom i x).lpo = d.lpo := rfl
@[simp] theorem Dev.setDom_drv (i : Nat) (x : Dom) : (d.setDom i x).drv = d.drv := rfl
@[simp] theorem Dev.setDom_straps (i : Nat) (x : Dom) : (d.setDom i x).straps = d.straps := rfl
@[simp] theorem Dev.setDom_poison (i : Nat) (x : Dom) : (d.setDom i x).poison = d.poison := rfl
@[simp] theorem Dev.setDom_dmc (i : Nat) (x : Dom) : (d.setDom i x).dmc = d.dmc := rfl
@[simp] theorem Dev.setDom_freed (i : Nat) (x : Dom) : (d.setDom i x).freed = d.freed := rfl
@[simp] theorem Dev.setDom_twn (i : Nat) (x : Dom) : (d.setDom i x).twn = d.twn := rfl
@[simp] theorem Dev.setDom_sys (i : Nat) (x : Dom) : (d.setDom i x).sys = d.sys := rfl
@[simp] theorem Dev.setDom_lmp (i : Nat) (x : Dom) : (d.setDom i x).lmp = d.lmp := rfl
@[simp] theorem Dev.setDom_resp (i : Nat) (x : Dom) : (d.setDom i x).resp = d.resp := rfl
@[simp] theorem Dev.setDom_out (i : Nat) (x : Dom) : (d.setDom i x).out = d.out := rfl
@[simp] theorem Dev.setDom_sdBy (i : Nat) (x : Dom) : (d.setDom i x).sdBy = d.sdBy := rfl
@[simp] theorem Dev.setDom_tap (i : Nat) (x : Dom) : (d.setDom i x).tap = d.tap := rfl

/-! ### setLpCh -/

@[simp] theorem Dev.setLpCh_regs (c : Nat) (x : LpCh) : (d.setLpCh c x).regs = d.regs := rfl
@[simp] theorem Dev.setLpCh_est (c : Nat) (x : LpCh) : (d.setLpCh c x).est = d.est := rfl
@[simp] theorem Dev.setLpCh_latch (c : Nat) (x : LpCh) : (d.setLpCh c x).latch = d.latch := rfl
@[simp] theorem Dev.setLpCh_pendW (c : Nat) (x : LpCh) : (d.setLpCh c x).pendW = d.pendW := rfl
@[simp] theorem Dev.setLpCh_tabW (c : Nat) (x : LpCh) : (d.setLpCh c x).tabW = d.tabW := rfl
@[simp] theorem Dev.setLpCh_tabE (c : Nat) (x : LpCh) : (d.setLpCh c x).tabE = d.tabE := rfl
@[simp] theorem Dev.setLpCh_samp (c : Nat) (x : LpCh) : (d.setLpCh c x).samp = d.samp := rfl
@[simp] theorem Dev.setLpCh_sdram (c : Nat) (x : LpCh) : (d.setLpCh c x).sdram = d.sdram := rfl
@[simp] theorem Dev.setLpCh_sram (c : Nat) (x : LpCh) : (d.setLpCh c x).sram = d.sram := rfl
@[simp] theorem Dev.setLpCh_clk (c : Nat) (x : LpCh) : (d.setLpCh c x).clk = d.clk := rfl
@[simp] theorem Dev.setLpCh_pipe (c : Nat) (x : LpCh) : (d.setLpCh c x).pipe = d.pipe := rfl
@[simp] theorem Dev.setLpCh_evt (c : Nat) (x : LpCh) : (d.setLpCh c x).evt = d.evt := rfl
@[simp] theorem Dev.setLpCh_icx (c : Nat) (x : LpCh) : (d.setLpCh c x).icx = d.icx := rfl
@[simp] theorem Dev.setLpCh_obj (c : Nat) (x : LpCh) : (d.setLpCh c x).obj = d.obj := rfl
@[simp] theorem Dev.setLpCh_div (c : Nat) (x : LpCh) : (d.setLpCh c x).div = d.div := rfl
@[simp] theorem Dev.setLpCh_rbt (c : Nat) (x : LpCh) : (d.setLpCh c x).rbt = d.rbt := rfl
@[simp] theorem Dev.setLpCh_geo (c : Nat) (x : LpCh) : (d.setLpCh c x).geo = d.geo := rfl
@[simp] theorem Dev.setLpCh_conv (c : Nat) (x : LpCh) : (d.setLpCh c x).conv = d.conv := rfl
@[simp] theorem Dev.setLpCh_cond (c : Nat) (x : LpCh) : (d.setLpCh c x).cond = d.cond := rfl
@[simp] theorem Dev.setLpCh_net (c : Nat) (x : LpCh) : (d.setLpCh c x).net = d.net := rfl
@[simp] theorem Dev.setLpCh_ptp (c : Nat) (x : LpCh) : (d.setLpCh c x).ptp = d.ptp := rfl
@[simp] theorem Dev.setLpCh_drv (c : Nat) (x : LpCh) : (d.setLpCh c x).drv = d.drv := rfl
@[simp] theorem Dev.setLpCh_straps (c : Nat) (x : LpCh) : (d.setLpCh c x).straps = d.straps := rfl
@[simp] theorem Dev.setLpCh_poison (c : Nat) (x : LpCh) : (d.setLpCh c x).poison = d.poison := rfl
@[simp] theorem Dev.setLpCh_dmc (c : Nat) (x : LpCh) : (d.setLpCh c x).dmc = d.dmc := rfl
@[simp] theorem Dev.setLpCh_freed (c : Nat) (x : LpCh) : (d.setLpCh c x).freed = d.freed := rfl
@[simp] theorem Dev.setLpCh_twn (c : Nat) (x : LpCh) : (d.setLpCh c x).twn = d.twn := rfl
@[simp] theorem Dev.setLpCh_sys (c : Nat) (x : LpCh) : (d.setLpCh c x).sys = d.sys := rfl
@[simp] theorem Dev.setLpCh_lmp (c : Nat) (x : LpCh) : (d.setLpCh c x).lmp = d.lmp := rfl
@[simp] theorem Dev.setLpCh_resp (c : Nat) (x : LpCh) : (d.setLpCh c x).resp = d.resp := rfl
@[simp] theorem Dev.setLpCh_out (c : Nat) (x : LpCh) : (d.setLpCh c x).out = d.out := rfl
@[simp] theorem Dev.setLpCh_sdBy (c : Nat) (x : LpCh) : (d.setLpCh c x).sdBy = d.sdBy := rfl
@[simp] theorem Dev.setLpCh_tap (c : Nat) (x : LpCh) : (d.setLpCh c x).tap = d.tap := rfl

/-! ### setDrvCh -/

@[simp] theorem Dev.setDrvCh_regs (c : Nat) (x : DrvCh) : (d.setDrvCh c x).regs = d.regs := rfl
@[simp] theorem Dev.setDrvCh_est (c : Nat) (x : DrvCh) : (d.setDrvCh c x).est = d.est := rfl
@[simp] theorem Dev.setDrvCh_latch (c : Nat) (x : DrvCh) : (d.setDrvCh c x).latch = d.latch := rfl
@[simp] theorem Dev.setDrvCh_pendW (c : Nat) (x : DrvCh) : (d.setDrvCh c x).pendW = d.pendW := rfl
@[simp] theorem Dev.setDrvCh_tabW (c : Nat) (x : DrvCh) : (d.setDrvCh c x).tabW = d.tabW := rfl
@[simp] theorem Dev.setDrvCh_tabE (c : Nat) (x : DrvCh) : (d.setDrvCh c x).tabE = d.tabE := rfl
@[simp] theorem Dev.setDrvCh_samp (c : Nat) (x : DrvCh) : (d.setDrvCh c x).samp = d.samp := rfl
@[simp] theorem Dev.setDrvCh_sdram (c : Nat) (x : DrvCh) : (d.setDrvCh c x).sdram = d.sdram := rfl
@[simp] theorem Dev.setDrvCh_sram (c : Nat) (x : DrvCh) : (d.setDrvCh c x).sram = d.sram := rfl
@[simp] theorem Dev.setDrvCh_clk (c : Nat) (x : DrvCh) : (d.setDrvCh c x).clk = d.clk := rfl
@[simp] theorem Dev.setDrvCh_pipe (c : Nat) (x : DrvCh) : (d.setDrvCh c x).pipe = d.pipe := rfl
@[simp] theorem Dev.setDrvCh_evt (c : Nat) (x : DrvCh) : (d.setDrvCh c x).evt = d.evt := rfl
@[simp] theorem Dev.setDrvCh_icx (c : Nat) (x : DrvCh) : (d.setDrvCh c x).icx = d.icx := rfl
@[simp] theorem Dev.setDrvCh_obj (c : Nat) (x : DrvCh) : (d.setDrvCh c x).obj = d.obj := rfl
@[simp] theorem Dev.setDrvCh_div (c : Nat) (x : DrvCh) : (d.setDrvCh c x).div = d.div := rfl
@[simp] theorem Dev.setDrvCh_rbt (c : Nat) (x : DrvCh) : (d.setDrvCh c x).rbt = d.rbt := rfl
@[simp] theorem Dev.setDrvCh_geo (c : Nat) (x : DrvCh) : (d.setDrvCh c x).geo = d.geo := rfl
@[simp] theorem Dev.setDrvCh_conv (c : Nat) (x : DrvCh) : (d.setDrvCh c x).conv = d.conv := rfl
@[simp] theorem Dev.setDrvCh_cond (c : Nat) (x : DrvCh) : (d.setDrvCh c x).cond = d.cond := rfl
@[simp] theorem Dev.setDrvCh_net (c : Nat) (x : DrvCh) : (d.setDrvCh c x).net = d.net := rfl
@[simp] theorem Dev.setDrvCh_ptp (c : Nat) (x : DrvCh) : (d.setDrvCh c x).ptp = d.ptp := rfl
@[simp] theorem Dev.setDrvCh_lpo (c : Nat) (x : DrvCh) : (d.setDrvCh c x).lpo = d.lpo := rfl
@[simp] theorem Dev.setDrvCh_straps (c : Nat) (x : DrvCh) : (d.setDrvCh c x).straps = d.straps := rfl
@[simp] theorem Dev.setDrvCh_poison (c : Nat) (x : DrvCh) : (d.setDrvCh c x).poison = d.poison := rfl
@[simp] theorem Dev.setDrvCh_dmc (c : Nat) (x : DrvCh) : (d.setDrvCh c x).dmc = d.dmc := rfl
@[simp] theorem Dev.setDrvCh_freed (c : Nat) (x : DrvCh) : (d.setDrvCh c x).freed = d.freed := rfl
@[simp] theorem Dev.setDrvCh_twn (c : Nat) (x : DrvCh) : (d.setDrvCh c x).twn = d.twn := rfl
@[simp] theorem Dev.setDrvCh_sys (c : Nat) (x : DrvCh) : (d.setDrvCh c x).sys = d.sys := rfl
@[simp] theorem Dev.setDrvCh_lmp (c : Nat) (x : DrvCh) : (d.setDrvCh c x).lmp = d.lmp := rfl
@[simp] theorem Dev.setDrvCh_resp (c : Nat) (x : DrvCh) : (d.setDrvCh c x).resp = d.resp := rfl
@[simp] theorem Dev.setDrvCh_out (c : Nat) (x : DrvCh) : (d.setDrvCh c x).out = d.out := rfl
@[simp] theorem Dev.setDrvCh_sdBy (c : Nat) (x : DrvCh) : (d.setDrvCh c x).sdBy = d.sdBy := rfl
@[simp] theorem Dev.setDrvCh_tap (c : Nat) (x : DrvCh) : (d.setDrvCh c x).tap = d.tap := rfl

/-! ### setPortSt -/

@[simp] theorem Dev.setPortSt_est (p s : Nat) : (d.setPortSt p s).est = d.est := rfl
@[simp] theorem Dev.setPortSt_latch (p s : Nat) : (d.setPortSt p s).latch = d.latch := rfl
@[simp] theorem Dev.setPortSt_pendW (p s : Nat) : (d.setPortSt p s).pendW = d.pendW := rfl
@[simp] theorem Dev.setPortSt_tabW (p s : Nat) : (d.setPortSt p s).tabW = d.tabW := rfl
@[simp] theorem Dev.setPortSt_tabE (p s : Nat) : (d.setPortSt p s).tabE = d.tabE := rfl
@[simp] theorem Dev.setPortSt_samp (p s : Nat) : (d.setPortSt p s).samp = d.samp := rfl
@[simp] theorem Dev.setPortSt_sdram (p s : Nat) : (d.setPortSt p s).sdram = d.sdram := rfl
@[simp] theorem Dev.setPortSt_sram (p s : Nat) : (d.setPortSt p s).sram = d.sram := rfl
@[simp] theorem Dev.setPortSt_clk (p s : Nat) : (d.setPortSt p s).clk = d.clk := rfl
@[simp] theorem Dev.setPortSt_pipe (p s : Nat) : (d.setPortSt p s).pipe = d.pipe := rfl
@[simp] theorem Dev.setPortSt_evt (p s : Nat) : (d.setPortSt p s).evt = d.evt := rfl
@[simp] theorem Dev.setPortSt_icx (p s : Nat) : (d.setPortSt p s).icx = d.icx := rfl
@[simp] theorem Dev.setPortSt_obj (p s : Nat) : (d.setPortSt p s).obj = d.obj := rfl
@[simp] theorem Dev.setPortSt_div (p s : Nat) : (d.setPortSt p s).div = d.div := rfl
@[simp] theorem Dev.setPortSt_rbt (p s : Nat) : (d.setPortSt p s).rbt = d.rbt := rfl
@[simp] theorem Dev.setPortSt_geo (p s : Nat) : (d.setPortSt p s).geo = d.geo := rfl
@[simp] theorem Dev.setPortSt_conv (p s : Nat) : (d.setPortSt p s).conv = d.conv := rfl
@[simp] theorem Dev.setPortSt_cond (p s : Nat) : (d.setPortSt p s).cond = d.cond := rfl
@[simp] theorem Dev.setPortSt_net (p s : Nat) : (d.setPortSt p s).net = d.net := rfl
@[simp] theorem Dev.setPortSt_ptp (p s : Nat) : (d.setPortSt p s).ptp = d.ptp := rfl
@[simp] theorem Dev.setPortSt_lpo (p s : Nat) : (d.setPortSt p s).lpo = d.lpo := rfl
@[simp] theorem Dev.setPortSt_drv (p s : Nat) : (d.setPortSt p s).drv = d.drv := rfl
@[simp] theorem Dev.setPortSt_straps (p s : Nat) : (d.setPortSt p s).straps = d.straps := rfl
@[simp] theorem Dev.setPortSt_poison (p s : Nat) : (d.setPortSt p s).poison = d.poison := rfl
@[simp] theorem Dev.setPortSt_dmc (p s : Nat) : (d.setPortSt p s).dmc = d.dmc := rfl
@[simp] theorem Dev.setPortSt_freed (p s : Nat) : (d.setPortSt p s).freed = d.freed := rfl
@[simp] theorem Dev.setPortSt_twn (p s : Nat) : (d.setPortSt p s).twn = d.twn := rfl
@[simp] theorem Dev.setPortSt_sys (p s : Nat) : (d.setPortSt p s).sys = d.sys := rfl
@[simp] theorem Dev.setPortSt_lmp (p s : Nat) : (d.setPortSt p s).lmp = d.lmp := rfl
@[simp] theorem Dev.setPortSt_resp (p s : Nat) : (d.setPortSt p s).resp = d.resp := rfl
@[simp] theorem Dev.setPortSt_out (p s : Nat) : (d.setPortSt p s).out = d.out := rfl
@[simp] theorem Dev.setPortSt_sdBy (p s : Nat) : (d.setPortSt p s).sdBy = d.sdBy := rfl
@[simp] theorem Dev.setPortSt_tap (p s : Nat) : (d.setPortSt p s).tap = d.tap := rfl

/-! ### setPlanValid -/

@[simp] theorem Dev.setPlanValid_est (v : Bool) : (d.setPlanValid v).est = d.est := rfl
@[simp] theorem Dev.setPlanValid_latch (v : Bool) : (d.setPlanValid v).latch = d.latch := rfl
@[simp] theorem Dev.setPlanValid_pendW (v : Bool) : (d.setPlanValid v).pendW = d.pendW := rfl
@[simp] theorem Dev.setPlanValid_tabW (v : Bool) : (d.setPlanValid v).tabW = d.tabW := rfl
@[simp] theorem Dev.setPlanValid_tabE (v : Bool) : (d.setPlanValid v).tabE = d.tabE := rfl
@[simp] theorem Dev.setPlanValid_samp (v : Bool) : (d.setPlanValid v).samp = d.samp := rfl
@[simp] theorem Dev.setPlanValid_sdram (v : Bool) : (d.setPlanValid v).sdram = d.sdram := rfl
@[simp] theorem Dev.setPlanValid_sram (v : Bool) : (d.setPlanValid v).sram = d.sram := rfl
@[simp] theorem Dev.setPlanValid_clk (v : Bool) : (d.setPlanValid v).clk = d.clk := rfl
@[simp] theorem Dev.setPlanValid_pipe (v : Bool) : (d.setPlanValid v).pipe = d.pipe := rfl
@[simp] theorem Dev.setPlanValid_evt (v : Bool) : (d.setPlanValid v).evt = d.evt := rfl
@[simp] theorem Dev.setPlanValid_icx (v : Bool) : (d.setPlanValid v).icx = d.icx := rfl
@[simp] theorem Dev.setPlanValid_obj (v : Bool) : (d.setPlanValid v).obj = d.obj := rfl
@[simp] theorem Dev.setPlanValid_div (v : Bool) : (d.setPlanValid v).div = d.div := rfl
@[simp] theorem Dev.setPlanValid_rbt (v : Bool) : (d.setPlanValid v).rbt = d.rbt := rfl
@[simp] theorem Dev.setPlanValid_geo (v : Bool) : (d.setPlanValid v).geo = d.geo := rfl
@[simp] theorem Dev.setPlanValid_conv (v : Bool) : (d.setPlanValid v).conv = d.conv := rfl
@[simp] theorem Dev.setPlanValid_cond (v : Bool) : (d.setPlanValid v).cond = d.cond := rfl
@[simp] theorem Dev.setPlanValid_net (v : Bool) : (d.setPlanValid v).net = d.net := rfl
@[simp] theorem Dev.setPlanValid_ptp (v : Bool) : (d.setPlanValid v).ptp = d.ptp := rfl
@[simp] theorem Dev.setPlanValid_lpo (v : Bool) : (d.setPlanValid v).lpo = d.lpo := rfl
@[simp] theorem Dev.setPlanValid_drv (v : Bool) : (d.setPlanValid v).drv = d.drv := rfl
@[simp] theorem Dev.setPlanValid_straps (v : Bool) : (d.setPlanValid v).straps = d.straps := rfl
@[simp] theorem Dev.setPlanValid_poison (v : Bool) : (d.setPlanValid v).poison = d.poison := rfl
@[simp] theorem Dev.setPlanValid_dmc (v : Bool) : (d.setPlanValid v).dmc = d.dmc := rfl
@[simp] theorem Dev.setPlanValid_freed (v : Bool) : (d.setPlanValid v).freed = d.freed := rfl
@[simp] theorem Dev.setPlanValid_twn (v : Bool) : (d.setPlanValid v).twn = d.twn := rfl
@[simp] theorem Dev.setPlanValid_sys (v : Bool) : (d.setPlanValid v).sys = d.sys := rfl
@[simp] theorem Dev.setPlanValid_lmp (v : Bool) : (d.setPlanValid v).lmp = d.lmp := rfl
@[simp] theorem Dev.setPlanValid_resp (v : Bool) : (d.setPlanValid v).resp = d.resp := rfl
@[simp] theorem Dev.setPlanValid_out (v : Bool) : (d.setPlanValid v).out = d.out := rfl
@[simp] theorem Dev.setPlanValid_sdBy (v : Bool) : (d.setPlanValid v).sdBy = d.sdBy := rfl
@[simp] theorem Dev.setPlanValid_tap (v : Bool) : (d.setPlanValid v).tap = d.tap := rfl

/-! ### setPlanId -/

@[simp] theorem Dev.setPlanId_est (i : Nat) : (d.setPlanId i).est = d.est := rfl
@[simp] theorem Dev.setPlanId_latch (i : Nat) : (d.setPlanId i).latch = d.latch := rfl
@[simp] theorem Dev.setPlanId_pendW (i : Nat) : (d.setPlanId i).pendW = d.pendW := rfl
@[simp] theorem Dev.setPlanId_tabW (i : Nat) : (d.setPlanId i).tabW = d.tabW := rfl
@[simp] theorem Dev.setPlanId_tabE (i : Nat) : (d.setPlanId i).tabE = d.tabE := rfl
@[simp] theorem Dev.setPlanId_samp (i : Nat) : (d.setPlanId i).samp = d.samp := rfl
@[simp] theorem Dev.setPlanId_sdram (i : Nat) : (d.setPlanId i).sdram = d.sdram := rfl
@[simp] theorem Dev.setPlanId_sram (i : Nat) : (d.setPlanId i).sram = d.sram := rfl
@[simp] theorem Dev.setPlanId_clk (i : Nat) : (d.setPlanId i).clk = d.clk := rfl
@[simp] theorem Dev.setPlanId_pipe (i : Nat) : (d.setPlanId i).pipe = d.pipe := rfl
@[simp] theorem Dev.setPlanId_evt (i : Nat) : (d.setPlanId i).evt = d.evt := rfl
@[simp] theorem Dev.setPlanId_icx (i : Nat) : (d.setPlanId i).icx = d.icx := rfl
@[simp] theorem Dev.setPlanId_obj (i : Nat) : (d.setPlanId i).obj = d.obj := rfl
@[simp] theorem Dev.setPlanId_div (i : Nat) : (d.setPlanId i).div = d.div := rfl
@[simp] theorem Dev.setPlanId_rbt (i : Nat) : (d.setPlanId i).rbt = d.rbt := rfl
@[simp] theorem Dev.setPlanId_geo (i : Nat) : (d.setPlanId i).geo = d.geo := rfl
@[simp] theorem Dev.setPlanId_conv (i : Nat) : (d.setPlanId i).conv = d.conv := rfl
@[simp] theorem Dev.setPlanId_cond (i : Nat) : (d.setPlanId i).cond = d.cond := rfl
@[simp] theorem Dev.setPlanId_net (i : Nat) : (d.setPlanId i).net = d.net := rfl
@[simp] theorem Dev.setPlanId_ptp (i : Nat) : (d.setPlanId i).ptp = d.ptp := rfl
@[simp] theorem Dev.setPlanId_lpo (i : Nat) : (d.setPlanId i).lpo = d.lpo := rfl
@[simp] theorem Dev.setPlanId_drv (i : Nat) : (d.setPlanId i).drv = d.drv := rfl
@[simp] theorem Dev.setPlanId_straps (i : Nat) : (d.setPlanId i).straps = d.straps := rfl
@[simp] theorem Dev.setPlanId_poison (i : Nat) : (d.setPlanId i).poison = d.poison := rfl
@[simp] theorem Dev.setPlanId_dmc (i : Nat) : (d.setPlanId i).dmc = d.dmc := rfl
@[simp] theorem Dev.setPlanId_freed (i : Nat) : (d.setPlanId i).freed = d.freed := rfl
@[simp] theorem Dev.setPlanId_twn (i : Nat) : (d.setPlanId i).twn = d.twn := rfl
@[simp] theorem Dev.setPlanId_sys (i : Nat) : (d.setPlanId i).sys = d.sys := rfl
@[simp] theorem Dev.setPlanId_lmp (i : Nat) : (d.setPlanId i).lmp = d.lmp := rfl
@[simp] theorem Dev.setPlanId_resp (i : Nat) : (d.setPlanId i).resp = d.resp := rfl
@[simp] theorem Dev.setPlanId_out (i : Nat) : (d.setPlanId i).out = d.out := rfl
@[simp] theorem Dev.setPlanId_sdBy (i : Nat) : (d.setPlanId i).sdBy = d.sdBy := rfl
@[simp] theorem Dev.setPlanId_tap (i : Nat) : (d.setPlanId i).tap = d.tap := rfl

/-! ### setLedgerSeq -/

@[simp] theorem Dev.setLedgerSeq_est (v : Nat) : (d.setLedgerSeq v).est = d.est := rfl
@[simp] theorem Dev.setLedgerSeq_latch (v : Nat) : (d.setLedgerSeq v).latch = d.latch := rfl
@[simp] theorem Dev.setLedgerSeq_pendW (v : Nat) : (d.setLedgerSeq v).pendW = d.pendW := rfl
@[simp] theorem Dev.setLedgerSeq_tabW (v : Nat) : (d.setLedgerSeq v).tabW = d.tabW := rfl
@[simp] theorem Dev.setLedgerSeq_tabE (v : Nat) : (d.setLedgerSeq v).tabE = d.tabE := rfl
@[simp] theorem Dev.setLedgerSeq_samp (v : Nat) : (d.setLedgerSeq v).samp = d.samp := rfl
@[simp] theorem Dev.setLedgerSeq_sdram (v : Nat) : (d.setLedgerSeq v).sdram = d.sdram := rfl
@[simp] theorem Dev.setLedgerSeq_sram (v : Nat) : (d.setLedgerSeq v).sram = d.sram := rfl
@[simp] theorem Dev.setLedgerSeq_clk (v : Nat) : (d.setLedgerSeq v).clk = d.clk := rfl
@[simp] theorem Dev.setLedgerSeq_pipe (v : Nat) : (d.setLedgerSeq v).pipe = d.pipe := rfl
@[simp] theorem Dev.setLedgerSeq_evt (v : Nat) : (d.setLedgerSeq v).evt = d.evt := rfl
@[simp] theorem Dev.setLedgerSeq_icx (v : Nat) : (d.setLedgerSeq v).icx = d.icx := rfl
@[simp] theorem Dev.setLedgerSeq_obj (v : Nat) : (d.setLedgerSeq v).obj = d.obj := rfl
@[simp] theorem Dev.setLedgerSeq_div (v : Nat) : (d.setLedgerSeq v).div = d.div := rfl
@[simp] theorem Dev.setLedgerSeq_rbt (v : Nat) : (d.setLedgerSeq v).rbt = d.rbt := rfl
@[simp] theorem Dev.setLedgerSeq_geo (v : Nat) : (d.setLedgerSeq v).geo = d.geo := rfl
@[simp] theorem Dev.setLedgerSeq_conv (v : Nat) : (d.setLedgerSeq v).conv = d.conv := rfl
@[simp] theorem Dev.setLedgerSeq_cond (v : Nat) : (d.setLedgerSeq v).cond = d.cond := rfl
@[simp] theorem Dev.setLedgerSeq_net (v : Nat) : (d.setLedgerSeq v).net = d.net := rfl
@[simp] theorem Dev.setLedgerSeq_ptp (v : Nat) : (d.setLedgerSeq v).ptp = d.ptp := rfl
@[simp] theorem Dev.setLedgerSeq_lpo (v : Nat) : (d.setLedgerSeq v).lpo = d.lpo := rfl
@[simp] theorem Dev.setLedgerSeq_drv (v : Nat) : (d.setLedgerSeq v).drv = d.drv := rfl
@[simp] theorem Dev.setLedgerSeq_straps (v : Nat) : (d.setLedgerSeq v).straps = d.straps := rfl
@[simp] theorem Dev.setLedgerSeq_poison (v : Nat) : (d.setLedgerSeq v).poison = d.poison := rfl
@[simp] theorem Dev.setLedgerSeq_dmc (v : Nat) : (d.setLedgerSeq v).dmc = d.dmc := rfl
@[simp] theorem Dev.setLedgerSeq_freed (v : Nat) : (d.setLedgerSeq v).freed = d.freed := rfl
@[simp] theorem Dev.setLedgerSeq_twn (v : Nat) : (d.setLedgerSeq v).twn = d.twn := rfl
@[simp] theorem Dev.setLedgerSeq_sys (v : Nat) : (d.setLedgerSeq v).sys = d.sys := rfl
@[simp] theorem Dev.setLedgerSeq_lmp (v : Nat) : (d.setLedgerSeq v).lmp = d.lmp := rfl
@[simp] theorem Dev.setLedgerSeq_resp (v : Nat) : (d.setLedgerSeq v).resp = d.resp := rfl
@[simp] theorem Dev.setLedgerSeq_out (v : Nat) : (d.setLedgerSeq v).out = d.out := rfl
@[simp] theorem Dev.setLedgerSeq_sdBy (v : Nat) : (d.setLedgerSeq v).sdBy = d.sdBy := rfl
@[simp] theorem Dev.setLedgerSeq_tap (v : Nat) : (d.setLedgerSeq v).tap = d.tap := rfl

/-! ### wrBoth -/

@[simp] theorem Dev.wrBoth_latch (off : Nat) (v : Word) : (d.wrBoth off v).latch = d.latch := rfl
@[simp] theorem Dev.wrBoth_pendW (off : Nat) (v : Word) : (d.wrBoth off v).pendW = d.pendW := rfl
@[simp] theorem Dev.wrBoth_tabW (off : Nat) (v : Word) : (d.wrBoth off v).tabW = d.tabW := rfl
@[simp] theorem Dev.wrBoth_tabE (off : Nat) (v : Word) : (d.wrBoth off v).tabE = d.tabE := rfl
@[simp] theorem Dev.wrBoth_samp (off : Nat) (v : Word) : (d.wrBoth off v).samp = d.samp := rfl
@[simp] theorem Dev.wrBoth_sdram (off : Nat) (v : Word) : (d.wrBoth off v).sdram = d.sdram := rfl
@[simp] theorem Dev.wrBoth_sram (off : Nat) (v : Word) : (d.wrBoth off v).sram = d.sram := rfl
@[simp] theorem Dev.wrBoth_clk (off : Nat) (v : Word) : (d.wrBoth off v).clk = d.clk := rfl
@[simp] theorem Dev.wrBoth_pipe (off : Nat) (v : Word) : (d.wrBoth off v).pipe = d.pipe := rfl
@[simp] theorem Dev.wrBoth_evt (off : Nat) (v : Word) : (d.wrBoth off v).evt = d.evt := rfl
@[simp] theorem Dev.wrBoth_icx (off : Nat) (v : Word) : (d.wrBoth off v).icx = d.icx := rfl
@[simp] theorem Dev.wrBoth_obj (off : Nat) (v : Word) : (d.wrBoth off v).obj = d.obj := rfl
@[simp] theorem Dev.wrBoth_div (off : Nat) (v : Word) : (d.wrBoth off v).div = d.div := rfl
@[simp] theorem Dev.wrBoth_rbt (off : Nat) (v : Word) : (d.wrBoth off v).rbt = d.rbt := rfl
@[simp] theorem Dev.wrBoth_geo (off : Nat) (v : Word) : (d.wrBoth off v).geo = d.geo := rfl
@[simp] theorem Dev.wrBoth_conv (off : Nat) (v : Word) : (d.wrBoth off v).conv = d.conv := rfl
@[simp] theorem Dev.wrBoth_cond (off : Nat) (v : Word) : (d.wrBoth off v).cond = d.cond := rfl
@[simp] theorem Dev.wrBoth_net (off : Nat) (v : Word) : (d.wrBoth off v).net = d.net := rfl
@[simp] theorem Dev.wrBoth_ptp (off : Nat) (v : Word) : (d.wrBoth off v).ptp = d.ptp := rfl
@[simp] theorem Dev.wrBoth_lpo (off : Nat) (v : Word) : (d.wrBoth off v).lpo = d.lpo := rfl
@[simp] theorem Dev.wrBoth_drv (off : Nat) (v : Word) : (d.wrBoth off v).drv = d.drv := rfl
@[simp] theorem Dev.wrBoth_straps (off : Nat) (v : Word) : (d.wrBoth off v).straps = d.straps := rfl
@[simp] theorem Dev.wrBoth_poison (off : Nat) (v : Word) : (d.wrBoth off v).poison = d.poison := rfl
@[simp] theorem Dev.wrBoth_dmc (off : Nat) (v : Word) : (d.wrBoth off v).dmc = d.dmc := rfl
@[simp] theorem Dev.wrBoth_freed (off : Nat) (v : Word) : (d.wrBoth off v).freed = d.freed := rfl
@[simp] theorem Dev.wrBoth_twn (off : Nat) (v : Word) : (d.wrBoth off v).twn = d.twn := rfl
@[simp] theorem Dev.wrBoth_sys (off : Nat) (v : Word) : (d.wrBoth off v).sys = d.sys := rfl
@[simp] theorem Dev.wrBoth_lmp (off : Nat) (v : Word) : (d.wrBoth off v).lmp = d.lmp := rfl
@[simp] theorem Dev.wrBoth_resp (off : Nat) (v : Word) : (d.wrBoth off v).resp = d.resp := rfl
@[simp] theorem Dev.wrBoth_out (off : Nat) (v : Word) : (d.wrBoth off v).out = d.out := rfl
@[simp] theorem Dev.wrBoth_sdBy (off : Nat) (v : Word) : (d.wrBoth off v).sdBy = d.sdBy := rfl
@[simp] theorem Dev.wrBoth_tap (off : Nat) (v : Word) : (d.wrBoth off v).tap = d.tap := rfl

/-! ### setFldBoth -/

@[simp] theorem Dev.setFldBoth_latch (off hi lo v : Nat) : (d.setFldBoth off hi lo v).latch = d.latch := rfl
@[simp] theorem Dev.setFldBoth_pendW (off hi lo v : Nat) : (d.setFldBoth off hi lo v).pendW = d.pendW := rfl
@[simp] theorem Dev.setFldBoth_tabW (off hi lo v : Nat) : (d.setFldBoth off hi lo v).tabW = d.tabW := rfl
@[simp] theorem Dev.setFldBoth_tabE (off hi lo v : Nat) : (d.setFldBoth off hi lo v).tabE = d.tabE := rfl
@[simp] theorem Dev.setFldBoth_samp (off hi lo v : Nat) : (d.setFldBoth off hi lo v).samp = d.samp := rfl
@[simp] theorem Dev.setFldBoth_sdram (off hi lo v : Nat) : (d.setFldBoth off hi lo v).sdram = d.sdram := rfl
@[simp] theorem Dev.setFldBoth_sram (off hi lo v : Nat) : (d.setFldBoth off hi lo v).sram = d.sram := rfl
@[simp] theorem Dev.setFldBoth_clk (off hi lo v : Nat) : (d.setFldBoth off hi lo v).clk = d.clk := rfl
@[simp] theorem Dev.setFldBoth_pipe (off hi lo v : Nat) : (d.setFldBoth off hi lo v).pipe = d.pipe := rfl
@[simp] theorem Dev.setFldBoth_evt (off hi lo v : Nat) : (d.setFldBoth off hi lo v).evt = d.evt := rfl
@[simp] theorem Dev.setFldBoth_icx (off hi lo v : Nat) : (d.setFldBoth off hi lo v).icx = d.icx := rfl
@[simp] theorem Dev.setFldBoth_obj (off hi lo v : Nat) : (d.setFldBoth off hi lo v).obj = d.obj := rfl
@[simp] theorem Dev.setFldBoth_div (off hi lo v : Nat) : (d.setFldBoth off hi lo v).div = d.div := rfl
@[simp] theorem Dev.setFldBoth_rbt (off hi lo v : Nat) : (d.setFldBoth off hi lo v).rbt = d.rbt := rfl
@[simp] theorem Dev.setFldBoth_geo (off hi lo v : Nat) : (d.setFldBoth off hi lo v).geo = d.geo := rfl
@[simp] theorem Dev.setFldBoth_conv (off hi lo v : Nat) : (d.setFldBoth off hi lo v).conv = d.conv := rfl
@[simp] theorem Dev.setFldBoth_cond (off hi lo v : Nat) : (d.setFldBoth off hi lo v).cond = d.cond := rfl
@[simp] theorem Dev.setFldBoth_net (off hi lo v : Nat) : (d.setFldBoth off hi lo v).net = d.net := rfl
@[simp] theorem Dev.setFldBoth_ptp (off hi lo v : Nat) : (d.setFldBoth off hi lo v).ptp = d.ptp := rfl
@[simp] theorem Dev.setFldBoth_lpo (off hi lo v : Nat) : (d.setFldBoth off hi lo v).lpo = d.lpo := rfl
@[simp] theorem Dev.setFldBoth_drv (off hi lo v : Nat) : (d.setFldBoth off hi lo v).drv = d.drv := rfl
@[simp] theorem Dev.setFldBoth_straps (off hi lo v : Nat) : (d.setFldBoth off hi lo v).straps = d.straps := rfl
@[simp] theorem Dev.setFldBoth_poison (off hi lo v : Nat) : (d.setFldBoth off hi lo v).poison = d.poison := rfl
@[simp] theorem Dev.setFldBoth_dmc (off hi lo v : Nat) : (d.setFldBoth off hi lo v).dmc = d.dmc := rfl
@[simp] theorem Dev.setFldBoth_freed (off hi lo v : Nat) : (d.setFldBoth off hi lo v).freed = d.freed := rfl
@[simp] theorem Dev.setFldBoth_twn (off hi lo v : Nat) : (d.setFldBoth off hi lo v).twn = d.twn := rfl
@[simp] theorem Dev.setFldBoth_sys (off hi lo v : Nat) : (d.setFldBoth off hi lo v).sys = d.sys := rfl
@[simp] theorem Dev.setFldBoth_lmp (off hi lo v : Nat) : (d.setFldBoth off hi lo v).lmp = d.lmp := rfl
@[simp] theorem Dev.setFldBoth_resp (off hi lo v : Nat) : (d.setFldBoth off hi lo v).resp = d.resp := rfl
@[simp] theorem Dev.setFldBoth_out (off hi lo v : Nat) : (d.setFldBoth off hi lo v).out = d.out := rfl
@[simp] theorem Dev.setFldBoth_sdBy (off hi lo v : Nat) : (d.setFldBoth off hi lo v).sdBy = d.sdBy := rfl
@[simp] theorem Dev.setFldBoth_tap (off hi lo v : Nat) : (d.setFldBoth off hi lo v).tap = d.tap := rfl

/-! ### setTab -/

@[simp] theorem Dev.setTab_regs (off : Nat) (bs : List Byte) : (d.setTab off bs).regs = d.regs := rfl
@[simp] theorem Dev.setTab_est (off : Nat) (bs : List Byte) : (d.setTab off bs).est = d.est := rfl
@[simp] theorem Dev.setTab_latch (off : Nat) (bs : List Byte) : (d.setTab off bs).latch = d.latch := rfl
@[simp] theorem Dev.setTab_pendW (off : Nat) (bs : List Byte) : (d.setTab off bs).pendW = d.pendW := rfl
@[simp] theorem Dev.setTab_samp (off : Nat) (bs : List Byte) : (d.setTab off bs).samp = d.samp := rfl
@[simp] theorem Dev.setTab_sdram (off : Nat) (bs : List Byte) : (d.setTab off bs).sdram = d.sdram := rfl
@[simp] theorem Dev.setTab_sram (off : Nat) (bs : List Byte) : (d.setTab off bs).sram = d.sram := rfl
@[simp] theorem Dev.setTab_clk (off : Nat) (bs : List Byte) : (d.setTab off bs).clk = d.clk := rfl
@[simp] theorem Dev.setTab_pipe (off : Nat) (bs : List Byte) : (d.setTab off bs).pipe = d.pipe := rfl
@[simp] theorem Dev.setTab_evt (off : Nat) (bs : List Byte) : (d.setTab off bs).evt = d.evt := rfl
@[simp] theorem Dev.setTab_icx (off : Nat) (bs : List Byte) : (d.setTab off bs).icx = d.icx := rfl
@[simp] theorem Dev.setTab_obj (off : Nat) (bs : List Byte) : (d.setTab off bs).obj = d.obj := rfl
@[simp] theorem Dev.setTab_div (off : Nat) (bs : List Byte) : (d.setTab off bs).div = d.div := rfl
@[simp] theorem Dev.setTab_rbt (off : Nat) (bs : List Byte) : (d.setTab off bs).rbt = d.rbt := rfl
@[simp] theorem Dev.setTab_geo (off : Nat) (bs : List Byte) : (d.setTab off bs).geo = d.geo := rfl
@[simp] theorem Dev.setTab_conv (off : Nat) (bs : List Byte) : (d.setTab off bs).conv = d.conv := rfl
@[simp] theorem Dev.setTab_cond (off : Nat) (bs : List Byte) : (d.setTab off bs).cond = d.cond := rfl
@[simp] theorem Dev.setTab_net (off : Nat) (bs : List Byte) : (d.setTab off bs).net = d.net := rfl
@[simp] theorem Dev.setTab_ptp (off : Nat) (bs : List Byte) : (d.setTab off bs).ptp = d.ptp := rfl
@[simp] theorem Dev.setTab_lpo (off : Nat) (bs : List Byte) : (d.setTab off bs).lpo = d.lpo := rfl
@[simp] theorem Dev.setTab_drv (off : Nat) (bs : List Byte) : (d.setTab off bs).drv = d.drv := rfl
@[simp] theorem Dev.setTab_straps (off : Nat) (bs : List Byte) : (d.setTab off bs).straps = d.straps := rfl
@[simp] theorem Dev.setTab_poison (off : Nat) (bs : List Byte) : (d.setTab off bs).poison = d.poison := rfl
@[simp] theorem Dev.setTab_dmc (off : Nat) (bs : List Byte) : (d.setTab off bs).dmc = d.dmc := rfl
@[simp] theorem Dev.setTab_freed (off : Nat) (bs : List Byte) : (d.setTab off bs).freed = d.freed := rfl
@[simp] theorem Dev.setTab_twn (off : Nat) (bs : List Byte) : (d.setTab off bs).twn = d.twn := rfl
@[simp] theorem Dev.setTab_sys (off : Nat) (bs : List Byte) : (d.setTab off bs).sys = d.sys := rfl
@[simp] theorem Dev.setTab_lmp (off : Nat) (bs : List Byte) : (d.setTab off bs).lmp = d.lmp := rfl
@[simp] theorem Dev.setTab_resp (off : Nat) (bs : List Byte) : (d.setTab off bs).resp = d.resp := rfl
@[simp] theorem Dev.setTab_out (off : Nat) (bs : List Byte) : (d.setTab off bs).out = d.out := rfl
@[simp] theorem Dev.setTab_sdBy (off : Nat) (bs : List Byte) : (d.setTab off bs).sdBy = d.sdBy := rfl
@[simp] theorem Dev.setTab_tap (off : Nat) (bs : List Byte) : (d.setTab off bs).tap = d.tap := rfl

@[simp] theorem Dev.wr_regs (off : Nat) (v : Word) : (d.wr off v).regs = mset regReset d.regs off v := rfl
@[simp] theorem Dev.we_est (off : Nat) (v : Word) : (d.we off v).est = mset regReset d.est off v := rfl
@[simp] theorem Dev.emit_out (o : Out) : (d.emit o).out = d.out ++ [o] := rfl
@[simp] theorem Dev.later_pendW (p : Pend) : (d.later p).pendW = d.pendW ++ [p] := rfl
@[simp] theorem Dev.setTwn_twn (x : Twn) : (d.setTwn x).twn = x := rfl
@[simp] theorem Dev.raise_fresh (c i p : Nat) :
    (d.raise c i p).evt.fresh = d.evt.fresh ++ [⟨c, i, evBlock c, p % 2 ^ 32, d.clk.tick⟩] := rfl
@[simp] theorem Dev.raise_raised (c i p : Nat) : (d.raise c i p).evt.raised = d.evt.raised := rfl
@[simp] theorem Dev.settle_fresh : d.settle.evt.fresh = [] := rfl
@[simp] theorem Dev.settle_raised : d.settle.evt.raised = d.evt.raised ++ evSort d.evt.fresh := rfl

/-! ### free -/

/-- Enabling a ball changes nothing but which balls are free. -/
theorem Dev.free_eq (b : OutBall) : d.free b = { d with freed := (d.free b).freed } := by
  simp only [Dev.free]
  split <;> rfl
@[simp] theorem Dev.free_regs (b : OutBall) : (d.free b).regs = d.regs := by rw [Dev.free_eq]
@[simp] theorem Dev.free_est (b : OutBall) : (d.free b).est = d.est := by rw [Dev.free_eq]
@[simp] theorem Dev.free_latch (b : OutBall) : (d.free b).latch = d.latch := by rw [Dev.free_eq]
@[simp] theorem Dev.free_pendW (b : OutBall) : (d.free b).pendW = d.pendW := by rw [Dev.free_eq]
@[simp] theorem Dev.free_tabW (b : OutBall) : (d.free b).tabW = d.tabW := by rw [Dev.free_eq]
@[simp] theorem Dev.free_tabE (b : OutBall) : (d.free b).tabE = d.tabE := by rw [Dev.free_eq]
@[simp] theorem Dev.free_samp (b : OutBall) : (d.free b).samp = d.samp := by rw [Dev.free_eq]
@[simp] theorem Dev.free_sdram (b : OutBall) : (d.free b).sdram = d.sdram := by rw [Dev.free_eq]
@[simp] theorem Dev.free_sram (b : OutBall) : (d.free b).sram = d.sram := by rw [Dev.free_eq]
@[simp] theorem Dev.free_clk (b : OutBall) : (d.free b).clk = d.clk := by rw [Dev.free_eq]
@[simp] theorem Dev.free_pipe (b : OutBall) : (d.free b).pipe = d.pipe := by rw [Dev.free_eq]
@[simp] theorem Dev.free_evt (b : OutBall) : (d.free b).evt = d.evt := by rw [Dev.free_eq]
@[simp] theorem Dev.free_icx (b : OutBall) : (d.free b).icx = d.icx := by rw [Dev.free_eq]
@[simp] theorem Dev.free_obj (b : OutBall) : (d.free b).obj = d.obj := by rw [Dev.free_eq]
@[simp] theorem Dev.free_div (b : OutBall) : (d.free b).div = d.div := by rw [Dev.free_eq]
@[simp] theorem Dev.free_rbt (b : OutBall) : (d.free b).rbt = d.rbt := by rw [Dev.free_eq]
@[simp] theorem Dev.free_geo (b : OutBall) : (d.free b).geo = d.geo := by rw [Dev.free_eq]
@[simp] theorem Dev.free_conv (b : OutBall) : (d.free b).conv = d.conv := by rw [Dev.free_eq]
@[simp] theorem Dev.free_cond (b : OutBall) : (d.free b).cond = d.cond := by rw [Dev.free_eq]
@[simp] theorem Dev.free_net (b : OutBall) : (d.free b).net = d.net := by rw [Dev.free_eq]
@[simp] theorem Dev.free_ptp (b : OutBall) : (d.free b).ptp = d.ptp := by rw [Dev.free_eq]
@[simp] theorem Dev.free_lpo (b : OutBall) : (d.free b).lpo = d.lpo := by rw [Dev.free_eq]
@[simp] theorem Dev.free_drv (b : OutBall) : (d.free b).drv = d.drv := by rw [Dev.free_eq]
@[simp] theorem Dev.free_straps (b : OutBall) : (d.free b).straps = d.straps := by rw [Dev.free_eq]
@[simp] theorem Dev.free_poison (b : OutBall) : (d.free b).poison = d.poison := by rw [Dev.free_eq]
@[simp] theorem Dev.free_dmc (b : OutBall) : (d.free b).dmc = d.dmc := by rw [Dev.free_eq]
@[simp] theorem Dev.free_twn (b : OutBall) : (d.free b).twn = d.twn := by rw [Dev.free_eq]
@[simp] theorem Dev.free_sys (b : OutBall) : (d.free b).sys = d.sys := by rw [Dev.free_eq]
@[simp] theorem Dev.free_lmp (b : OutBall) : (d.free b).lmp = d.lmp := by rw [Dev.free_eq]
@[simp] theorem Dev.free_resp (b : OutBall) : (d.free b).resp = d.resp := by rw [Dev.free_eq]
@[simp] theorem Dev.free_out (b : OutBall) : (d.free b).out = d.out := by rw [Dev.free_eq]
@[simp] theorem Dev.free_sdBy (b : OutBall) : (d.free b).sdBy = d.sdBy := by rw [Dev.free_eq]
@[simp] theorem Dev.free_tap (b : OutBall) : (d.free b).tap = d.tap := by rw [Dev.free_eq]
theorem Dev.mem_free (b : OutBall) : b ∈ (d.free b).freed := by
  simp only [Dev.free]
  split
  · next h => exact List.contains_iff_mem.1 h
  · exact List.mem_append_right _ (List.mem_singleton.2 rfl)

@[simp] theorem Dev.setJobs_jobs (js : List Job) : (d.setJobs js).icx.jobs = js := rfl
@[simp] theorem Dev.setDom_dom_zero (x : Dom) : (d.setDom 0 x).ptp.domA = x := rfl

end Sys2Proof.Machine
end

