-- ==== Sys2Proof/Laws/Regs.lean ====
section
/-! SUPPORT. Laws of the register file: a word, field or bit read after it was written, and what a write leaves alone. -/

namespace Sys2Proof.Machine

/-! ### Fields of a word -/

theorem getLsbD_putBits (w : Word) (hi lo v i : Nat) (hi32 : hi < 32) (hlo : lo ≤ hi) (h : i < 32) :
    (putBits w hi lo v).getLsbD i = if lo ≤ i ∧ i ≤ hi then v.testBit (i - lo) else w.getLsbD i := by
  have hm : (2 ^ (hi + 1) - 2 ^ lo).testBit i = decide (lo ≤ i ∧ i ≤ hi) := by
    have e : 2 ^ (hi + 1) - 2 ^ lo = 2 ^ lo * (2 ^ (hi + 1 - lo) - 1) := by
      rw [Nat.mul_sub, ← Nat.pow_add, show lo + (hi + 1 - lo) = hi + 1 by omega, Nat.mul_one]
    rw [e, Nat.testBit_two_pow_mul, Nat.testBit_two_pow_sub_one]
    by_cases h1 : lo ≤ i <;> by_cases h2 : i ≤ hi <;> simp [h1, h2] <;> omega
  have hv : (v * 2 ^ lo).testBit i = (decide (lo ≤ i) && v.testBit (i - lo)) := by
    rw [Nat.mul_comm, Nat.testBit_two_pow_mul]
  simp only [putBits, BitVec.getLsbD_or, BitVec.getLsbD_and, BitVec.getLsbD_not, BitVec.getLsbD_ofNat, h, decide_true,
    Bool.true_and, hm, hv]
  by_cases h1 : lo ≤ i <;> by_cases h2 : i ≤ hi <;> simp [h1, h2]

theorem testBit_getBits (w : Word) (hi lo i : Nat) :
    (getBits w hi lo).testBit i = (decide (i < hi + 1 - lo) && w.getLsbD (lo + i)) := by
  simp only [getBits, bitsOf, Nat.testBit_mod_two_pow, Nat.testBit_div_two_pow, BitVec.getLsbD]
  rw [Nat.add_comm i lo]

/-- A field just placed is read back, modulo its width. -/
@[simp] theorem getBits_putBits_self (w : Word) (hi lo v : Nat) (hi32 : hi < 32) (hlo : lo ≤ hi) :
    getBits (putBits w hi lo v) hi lo = v % 2 ^ (hi + 1 - lo) := by
  apply Nat.eq_of_testBit_eq
  intro i
  rw [testBit_getBits, Nat.testBit_mod_two_pow]
  by_cases h : i < hi + 1 - lo
  · rw [getLsbD_putBits _ _ _ _ _ hi32 hlo (by omega), if_pos (by omega)]
    simp [h]
  · simp [h]

/-- A field outside the one placed is as before. -/
theorem getBits_putBits_ne (w : Word) (hi lo v hi' lo' : Nat) (hi32 : hi < 32) (hlo : lo ≤ hi) (h32 : hi' < 32)
    (h : hi' < lo ∨ hi < lo') : getBits (putBits w hi lo v) hi' lo' = getBits w hi' lo' := by
  apply Nat.eq_of_testBit_eq
  intro i
  rw [testBit_getBits, testBit_getBits]
  by_cases hi' : i < hi' + 1 - lo'
  · rw [getLsbD_putBits _ _ _ _ _ hi32 hlo (by omega), if_neg (by omega)]
  · simp [hi']

theorem getLsbD_putBits_ne (w : Word) (hi lo v i : Nat) (hi32 : hi < 32) (hlo : lo ≤ hi) (h : i < lo ∨ hi < i) :
    (putBits w hi lo v).getLsbD i = w.getLsbD i := by
  by_cases h' : i < 32
  · rw [getLsbD_putBits _ _ _ _ _ hi32 hlo h', if_neg (by omega)]
  · rw [BitVec.getLsbD_of_ge _ i (by omega), BitVec.getLsbD_of_ge _ i (by omega)]

theorem getLsbD_putBits_bit (w : Word) (i : Nat) (b : Bool) (h : i < 32) :
    (putBits w i i (if b then 1 else 0)).getLsbD i = b := by
  rw [getLsbD_putBits _ _ _ _ _ h (by omega) h, if_pos (by omega)]
  cases b <;> simp

/-! ### Words of the register file -/

/-- The registers as written are in canonical form. -/
def Dev.regsWf (d : Dev) : Prop := mwf regReset d.regs = true

theorem Dev.regsWf_wr (d : Dev) (off : Nat) (v : Word) (h : d.regsWf) : (d.wr off v).regsWf := mwf_mset _ _ _ _ h
theorem Dev.regsWf_wrN (d : Dev) (off v : Nat) (h : d.regsWf) : (d.wrN off v).regsWf := mwf_mset _ _ _ _ h
theorem Dev.regsWf_setFld (d : Dev) (off hi lo v : Nat) (h : d.regsWf) : (d.setFld off hi lo v).regsWf := mwf_mset _ _ _ _ h
theorem Dev.regsWf_setBit (d : Dev) (off i : Nat) (b : Bool) (h : d.regsWf) : (d.setBit off i b).regsWf := mwf_mset _ _ _ _ h
theorem Dev.regsWf_bumpN (d : Dev) (off n : Nat) (h : d.regsWf) : (d.bumpN off n).regsWf := mwf_mset _ _ _ _ h
theorem Dev.regsWf_bump (d : Dev) (off : Nat) (h : d.regsWf) : (d.bump off).regsWf := mwf_mset _ _ _ _ h

theorem Dev.rd_congr (d e : Dev) (off : Nat) (h : d.regs = e.regs) : d.rd off = e.rd off := by simp [Dev.rd, h]

theorem Dev.rd_wr_self (d : Dev) (off : Nat) (v : Word) (h : d.regsWf) : (d.wr off v).rd off = v :=
  mget_mset_self _ _ _ _ h
theorem Dev.rd_wr_ne (d : Dev) (off o : Nat) (v : Word) (h : d.regsWf) (hne : o ≠ off) : (d.wr off v).rd o = d.rd o :=
  mget_mset_ne _ _ _ _ _ h hne
theorem Dev.rd_wrN_self (d : Dev) (off v : Nat) (h : d.regsWf) : (d.wrN off v).rd off = BitVec.ofNat 32 v :=
  mget_mset_self _ _ _ _ h
theorem Dev.rd_wrN_ne (d : Dev) (off o v : Nat) (h : d.regsWf) (hne : o ≠ off) : (d.wrN off v).rd o = d.rd o :=
  mget_mset_ne _ _ _ _ _ h hne
theorem Dev.rd_setFld_self (d : Dev) (off hi lo v : Nat) (h : d.regsWf) : (d.setFld off hi lo v).rd off = putBits (d.rd off) hi lo v :=
  mget_mset_self _ _ _ _ h
theorem Dev.rd_setFld_ne (d : Dev) (off o hi lo v : Nat) (h : d.regsWf) (hne : o ≠ off) : (d.setFld off hi lo v).rd o = d.rd o :=
  mget_mset_ne _ _ _ _ _ h hne
theorem Dev.rd_setBit_self (d : Dev) (off i : Nat) (b : Bool) (h : d.regsWf) :
    (d.setBit off i b).rd off = putBits (d.rd off) i i (if b then 1 else 0) := mget_mset_self _ _ _ _ h
theorem Dev.rd_setBit_ne (d : Dev) (off o i : Nat) (b : Bool) (h : d.regsWf) (hne : o ≠ off) : (d.setBit off i b).rd o = d.rd o :=
  mget_mset_ne _ _ _ _ _ h hne

theorem Dev.fld_setFld_self (d : Dev) (off hi lo v : Nat) (h : d.regsWf) (hi32 : hi < 32) (hlo : lo ≤ hi) :
    (d.setFld off hi lo v).fld off hi lo = v % 2 ^ (hi + 1 - lo) := by
  rw [Dev.fld, Dev.rd_setFld_self _ _ _ _ _ h, getBits_putBits_self _ _ _ _ hi32 hlo]
theorem Dev.fld_setFld_ne (d : Dev) (off o hi lo v hi' lo' : Nat) (h : d.regsWf) (hne : o ≠ off) :
    (d.setFld off hi lo v).fld o hi' lo' = d.fld o hi' lo' := by
  rw [Dev.fld, Dev.rd_setFld_ne _ _ _ _ _ _ h hne, Dev.fld]
theorem Dev.fld_setFld_other (d : Dev) (off hi lo v hi' lo' : Nat) (h : d.regsWf) (hi32 : hi < 32) (hlo : lo ≤ hi) (h32 : hi' < 32)
    (hd : hi' < lo ∨ hi < lo') : (d.setFld off hi lo v).fld off hi' lo' = d.fld off hi' lo' := by
  rw [Dev.fld, Dev.rd_setFld_self _ _ _ _ _ h, getBits_putBits_ne _ _ _ _ _ _ hi32 hlo h32 hd, Dev.fld]
theorem Dev.bit_setBit_self (d : Dev) (off i : Nat) (b : Bool) (h : d.regsWf) (hi : i < 32) : (d.setBit off i b).bit off i = b := by
  rw [Dev.bit, Dev.rd_setBit_self _ _ _ _ h, getLsbD_putBits_bit _ _ _ hi]
theorem Dev.bit_setBit_ne (d : Dev) (off o i j : Nat) (b : Bool) (h : d.regsWf) (hne : o ≠ off) :
    (d.setBit off i b).bit o j = d.bit o j := by
  rw [Dev.bit, Dev.rd_setBit_ne _ _ _ _ _ h hne, Dev.bit]
theorem Dev.bit_setBit_other (d : Dev) (off i j : Nat) (b : Bool) (h : d.regsWf) (hi : i < 32) (hne : j ≠ i) :
    (d.setBit off i b).bit off j = d.bit off j := by
  rw [Dev.bit, Dev.rd_setBit_self _ _ _ _ h, getLsbD_putBits_ne _ _ _ _ _ hi (by omega) (by omega), Dev.bit]

end Sys2Proof.Machine
end

