-- ==== Sys2Proof/Laws/Access.lean ====
section
/-! SUPPORT. Laws of the shapes every command's meaning has, and of a register write by a master. -/

namespace Sys2Proof.Machine

@[simp] theorem State.ofUnit_lt (i n : Nat) (r : Result) (h : i < n) : State.ofUnit i n r = r := by simp [State.ofUnit, h]
theorem State.ofUnit_ge (i n : Nat) (r : Result) (h : n ≤ i) : State.ofUnit i n r = .fault .noSuchUnit := by
  simp [State.ofUnit, Nat.not_lt.mpr h]

/-- An effect on the device alone, of a device that is up. -/
theorem State.onDev_up (s : State) (f : Dev → Dev) (h : s.dev.isUp = true) :
    s.onDev f = .next { s with dev := (f s.dev).settle } := by simp [State.onDev, State.whenUp, State.always, State.done, h]
/-- The same of a device that is not up: nothing but the queueing of its events. -/
theorem State.onDev_down (s : State) (f : Dev → Dev) (h : s.dev.isUp = false) :
    s.onDev f = .next { s with dev := s.dev.settle } := by simp [State.onDev, State.whenUp, State.always, State.done, h]
theorem State.whenUp_up (s : State) (f : State → State) (h : s.dev.isUp = true) : s.whenUp f = (f s).done := by
  simp [State.whenUp, State.always, h]
theorem State.whenUp_down (s : State) (f : State → State) (h : s.dev.isUp = false) : s.whenUp f = s.done := by
  simp [State.whenUp, State.always, h]
theorem State.onLamp_eq (s : State) (f : Dev → Dev) : s.onLamp f = .next { s with dev := (f s.dev).settle } := rfl
theorem State.write_up (s : State) (m : Master) (off : Nat) (v : Word) (h : s.dev.isUp = true) :
    s.write m off v = (s.put m off v).done := State.whenUp_up s _ h

/-- Four little-endian bytes give the word back. -/
theorem ofNat_leNat_leBytes (v : Word) : BitVec.ofNat 32 (leNat (leBytes 4 v.toNat)) = v := by
  apply BitVec.eq_of_toNat_eq
  have h := v.isLt
  simp [leBytes, leNat]
  omega

theorem leBytes_length (n v : Nat) : (leBytes n v).length = n := by
  induction n generalizing v with
  | zero => rfl
  | succ n ih => simp [leBytes, ih]

/-- A port that no burst holds is free already. -/
@[simp] theorem State.portFree_free (s : State) (target : Nat) (h : s.PortFree target) : s.portFree target = s := by
  have : s.dev.sys.held.find? (fun b => b.1 == target) = none := by
    simpa [List.find?_eq_none, State.PortFree] using h
  simp [State.portFree, this]

/-- What a write of one register word by a master that reaches it comes to. -/
theorem State.access_write (s : State) (m : Master) (race : Bool) (src : Option (List Byte)) (off : Nat) (v : Word)
    (h : s.Trusts m off) (hal : off % 4 = 0) (hw : off < 0x1000000) (hm : inMailbox off = false) :
    s.access m race src off 4 (some (leBytes 4 v.toNat)) =
      { (s.regWrite true race src off v).1 with
        dev := { (s.regWrite true race src off v).1.dev with resp := ⟨(s.regWrite true race src off v).2, []⟩ } } := by
  have h1 : ¬ 0x4000000 < off + 4 := by omega
  have hin : inWindow off = false := by simp [inWindow]; omega
  simp [State.access, State.portFree_free s 2 h.opens.free, State.csrAccess, h1, h.opens.reaches, h.secure, hal, State.csrOne,
    State.csrWrite, hin, hm, leBytes_length, ofNat_leNat_leBytes, deniedAt, State.noteDenied]

theorem State.put_eq (s : State) (m : Master) (off : Nat) (v : Word) (h : s.Trusts m off) (hal : off % 4 = 0)
    (hw : off < 0x1000000) (hm : inMailbox off = false) :
    s.put m off v = { (s.regWrite true false none off v).1 with
        dev := { (s.regWrite true false none off v).1.dev with resp := ⟨(s.regWrite true false none off v).2, []⟩ } } :=
  State.access_write s m false none off v h hal hw hm

/-- A command that acts on a device that is up completes with the effect on the device, its events queued. -/
theorem Completes.onDev {c : Instr} {s : State} {P : State → Prop} (f : Dev → Dev) (he : exec c s = s.onDev f)
    (hu : s.dev.isUp = true) (hp : P { s with dev := (f s.dev).settle }) : Completes c s P :=
  ⟨_, he.trans (State.onDev_up s f hu), hp⟩
/-- The same of an effect on the whole state. -/
theorem Completes.whenUp {c : Instr} {s : State} {P : State → Prop} (f : State → State) (he : exec c s = s.whenUp f)
    (hu : s.dev.isUp = true) (hp : P { f s with dev := (f s).dev.settle }) : Completes c s P :=
  ⟨_, he.trans (State.whenUp_up s f hu), hp⟩
/-- The same of a write of one register word. -/
theorem Completes.write {c : Instr} {s : State} {P : State → Prop} (m : Master) (off : Nat) (v : Word)
    (he : exec c s = s.write m off v) (hu : s.dev.isUp = true)
    (hp : P { s.put m off v with dev := (s.put m off v).dev.settle }) : Completes c s P :=
  ⟨_, he.trans (State.write_up s m off v hu), hp⟩

/-- The registers whose writes reach beyond the write of the word itself. -/
def specialWrites : List Nat :=
  [Off.ICX_CANCEL, Off.ICX_FENCE, Off.SYS_ABORT_CMD, Off.SEC_REVOKE_R, Off.SEC_PROG_CMD, Off.DBG_CMD, Off.DIV_IMG_CMD]

/-- A write of a register that is none of those, by a secure master that reaches it. -/
theorem State.put_dev (s : State) (m : Master) (off : Nat) (v : Word) (h : s.Trusts m off) (hal : off % 4 = 0)
    (hw : off < 0x1000000) (hm : inMailbox off = false) (hsp : off ∉ specialWrites) :
    s.put m off v = { s with dev := { ((s.dev.goodParity true off).writeReg (s.dev.howOf true false) off v).1 with
      resp := ⟨((s.dev.goodParity true off).writeReg (s.dev.howOf true false) off v).2, []⟩ } } := by
  simp only [specialWrites, List.mem_cons, List.not_mem_nil, or_false, not_or] at hsp
  obtain ⟨h1, h2, h3, h4, h5, h6, h7⟩ := hsp
  have hs : (s.dev.howOf true false).secure = true := rfl
  rw [State.put_eq s m off v h hal hw hm]
  simp [State.regWrite, State.putReg, h1, h2, h3, h4, h5, h6, h7, hs]

section
variable (d : Dev) (b : Bool) (off : Nat)

/-- The parity of a word written changes nothing but the list of bad words. -/
theorem Dev.goodParity_eq : ∃ l, d.goodParity b off = { d with sys := { d.sys with badWords := l } } := by
  unfold Dev.goodParity
  split
  · exact ⟨d.sys.badWords, rfl⟩
  · split
    · exact ⟨_, rfl⟩
    · exact ⟨d.sys.badWords, rfl⟩

@[simp] theorem Dev.goodParity_regs : (d.goodParity b off).regs = d.regs := by
  obtain ⟨l, h⟩ := d.goodParity_eq b off; rw [h]
@[simp] theorem Dev.goodParity_rd (o : Nat) : (d.goodParity b off).rd o = d.rd o := by simp [Dev.rd]
@[simp] theorem Dev.goodParity_bit (o i : Nat) : (d.goodParity b off).bit o i = d.bit o i := by simp [Dev.bit]
@[simp] theorem Dev.goodParity_fld (o hi lo : Nat) : (d.goodParity b off).fld o hi lo = d.fld o hi lo := by simp [Dev.fld]

end

end Sys2Proof.Machine
end

