-- ==== Sys2Proof/Laws/Dmc.lean ====
section
/-! SUPPORT. What an access of SDRAM made whole can do to the device beside its own bytes. -/

namespace Sys2Proof.Machine

/-- e differs from d in the SDRAM channels, the registers and the events alone. -/
def Dev.ChannelStep (d e : Dev) : Prop := ∃ x r v, e = { d with dmc := x, regs := r, evt := v }

namespace Dev.ChannelStep

theorem refl (d : Dev) : Dev.ChannelStep d d := ⟨_, _, _, rfl⟩
theorem trans {a b c : Dev} : Dev.ChannelStep a b → Dev.ChannelStep b c → Dev.ChannelStep a c := by
  rintro ⟨_, _, _, rfl⟩ ⟨_, _, _, rfl⟩; exact ⟨_, _, _, rfl⟩

end Dev.ChannelStep

theorem Dev.dmcStat_step (d : Dev) (c : Nat) : d.ChannelStep (d.dmcStat c) := ⟨_, _, _, rfl⟩

theorem Dev.dmcWindowEnd_step (d : Dev) (c : Nat) : d.ChannelStep (d.dmcWindowEnd c) := by
  unfold Dev.dmcWindowEnd
  dsimp only
  split
  · exact .refl d
  · exact ⟨_, _, _, rfl⟩

theorem Dev.dmcActivate_step (d : Dev) (c : Nat) (r : DmcReq) : d.ChannelStep (d.dmcActivate c r) := by
  unfold Dev.dmcActivate
  extract_lets bank row k z x d1 x1 d2 th ends d3 x3 t d4 y
  split
  · exact ⟨_, _, _, rfl⟩
  · have h3 : d.ChannelStep d3 := by
      show d.ChannelStep (if th = 0 then d2 else d2.dmcWindowEnd c)
      split
      · exact ⟨_, _, _, rfl⟩
      · exact .trans ⟨_, _, _, rfl⟩ (Dev.dmcWindowEnd_step d2 c)
    clear_value d3
    split
    · exact h3
    · split <;> exact h3.trans ⟨_, _, _, rfl⟩

theorem Dev.eccFatal_step (d : Dev) (c g n : Nat) : d.ChannelStep (d.eccFatal c g n false) := by
  unfold Dev.eccFatal
  split
  · exact .refl d
  · simp only [Bool.false_eq_true, if_false]
    split <;> exact ⟨_, _, _, rfl⟩

theorem Dev.dmcTouch_step (d : Dev) (g bad : Nat) : d.ChannelStep (d.dmcTouch g bad) := by
  unfold Dev.dmcTouch
  dsimp only
  split
  · exact .trans (.trans (.trans ⟨_, _, _, rfl⟩ (Dev.dmcActivate_step _ _ _)) (Dev.eccFatal_step _ _ _ _)) (Dev.dmcStat_step _ _)
  · exact .refl d

theorem Dev.dmcPut_step (d : Dev) (g a n : Nat) : d.ChannelStep (d.dmcPut g a n) := by
  unfold Dev.dmcPut
  dsimp only
  split
  · exact .trans ⟨_, _, _, rfl⟩ (Dev.dmcTouch_step _ _ _)
  · exact .refl d

theorem Dev.forL_step {α : Type} (f : α → Dev → Dev) (hf : ∀ x d, Dev.ChannelStep d (f x d)) : ∀ (l : List α) (d : Dev), d.ChannelStep (forL l f d)
  | [], d => .refl d
  | x :: l, d => (hf x d).trans (Dev.forL_step f hf l (f x d))

theorem Dev.sdSeen_step (d : Dev) (gs : List Nat) : d.ChannelStep (d.sdSeen gs) :=
  Dev.forL_step _ (fun g d => d.dmcTouch_step g _) gs d

/-- A write of SDRAM stores its bytes, makes good the beats it covers whole, and leaves the rest to the channels. -/
theorem Dev.sdWrite_eq (d : Dev) (a : Nat) (bs : List Byte) : ∃ x r v, d.sdWrite a bs = { d with
    dmc := x
    regs := r
    evt := v
    sdram := setBytes d.sdram a bs
    poison := d.poison.filter (fun b => !(decide (a ≤ 8 * b) && decide (8 * b + 8 ≤ a + bs.length))) } := by
  obtain ⟨x, r, v, h⟩ := Dev.forL_step (fun g (d : Dev) => d.dmcPut g a bs.length) (fun g d => d.dmcPut_step g _ _) (granulesOf a bs.length) d
  exact ⟨x, r, v, by simp [Dev.sdWrite, h]⟩

@[simp] theorem Dev.sdWrite_sdram (d : Dev) (a : Nat) (bs : List Byte) : (d.sdWrite a bs).sdram = setBytes d.sdram a bs := by
  obtain ⟨x, r, v, h⟩ := d.sdWrite_eq a bs; rw [h]

end Sys2Proof.Machine
end

