-- ==== Sys2Proof/Laws/Bytes.lean ====
section
/-! SUPPORT. What the memory operations do, once each: what every address reads afterwards, and that the canonical form is kept. -/

namespace Sys2Proof.Machine

variable {α : Type}

theorem keysAbove_mkeep (p : Nat → Bool) (k : Nat) (m : NMap α) (h : keysAbove k m = true) : keysAbove k (mkeep p m) = true := by
  simp only [keysAbove, mkeep, List.all_eq_true, List.mem_filter] at *
  exact fun x hx => h x hx.1

theorem mwf_mkeep [DecidableEq α] (d : Nat → α) (p : Nat → Bool) : ∀ m : NMap α, mwf d m = true → mwf d (mkeep p m) = true
  | [], _ => rfl
  | (k, v) :: m, h => by
    have hc := (mwf_cons d k v m).mp h
    have ih := mwf_mkeep d p m hc.2.2
    simp only [mkeep, List.filter_cons]
    split
    · exact (mwf_cons d k v _).mpr ⟨keysAbove_mkeep p k m hc.1, hc.2.1, ih⟩
    · exact ih

theorem mget_mkeep [DecidableEq α] (d : Nat → α) (p : Nat → Bool) (l : Nat) : ∀ m : NMap α, mwf d m = true →
    mget d (mkeep p m) l = if p l then mget d m l else d l
  | [], _ => by simp [mkeep, mget]
  | (k, v) :: m, h => by
    have hc := (mwf_cons d k v m).mp h
    have ih := mget_mkeep d p l m hc.2.2
    have above : l ≤ k → mget d m l = d l := fun hl => mget_of_keysAbove d m l (keysAbove_mono m hl hc.1)
    simp only [mkeep, List.filter_cons] at *
    by_cases hk : l = k
    · subst hk
      cases hp : p l <;> simp [hp, mget, ih]
    · cases hp : p k <;> simp only [mget, hk, if_false, if_true, Bool.false_eq_true]
      · rw [ih]
        split <;> rename_i hq
        · split
          · rename_i hlt; exact above (Nat.le_of_lt hlt)
          · rfl
        · rfl
      · rw [ih]
        split <;> split <;> rfl

/-- Bytes stored at an offset: those bytes read there, every other byte as before. -/
theorem bget_setBytes (m : NMap Byte) (off : Nat) (bs : List Byte) (a : Nat) (h : mwf (fun _ => 0) m = true) :
    bget (setBytes m off bs) a = if off ≤ a ∧ a < off + bs.length then bs.getD (a - off) 0 else bget m a := by
  unfold bget setBytes
  by_cases ha : off ≤ a ∧ a < off + bs.length
  · have hi : a - off < bs.length := by omega
    have := mget_msetList_inside (fun _ => (0 : Byte)) bs m off (a - off) h hi
    rw [show off + (a - off) = a by omega] at this
    rw [if_pos ha, this]
    simp [hi]
  · rw [if_neg ha, mget_msetList_outside _ bs m off a h (by omega)]

theorem setBytes_wf (m : NMap Byte) (off : Nat) (bs : List Byte) (h : mwf (fun _ => 0) m = true) :
    mwf (fun _ => 0) (setBytes m off bs) = true := mwf_msetList _ bs m off h

theorem Dev.sdWrite_wf (d : Dev) (a : Nat) (bs : List Byte) (h : mwf (fun _ => 0) d.sdram = true) :
    mwf (fun _ => 0) (d.sdWrite a bs).sdram = true := by
  rw [Dev.sdWrite_sdram]; exact setBytes_wf _ _ _ h

theorem Dev.sdRing_wf (base size : Nat) : ∀ (vs : List F32) (d : Dev) (n0 : Nat), mwf (fun _ => 0) d.sdram = true →
    mwf (fun _ => 0) (Dev.sdRing d base size n0 vs).sdram = true
  | [], _, _, h => h
  | [_], d, _, h => d.sdWrite_wf _ _ h
  | _ :: _ :: vs, d, _, h => Dev.sdRing_wf base size vs _ _ (d.sdWrite_wf _ _ h)

/-- A strobed write of SDRAM: each byte strobed reads what was written, every other byte as before. -/
theorem storeStrobed_wf : ∀ (bs : List (Option Byte)) (m : NMap Byte) (a : Nat), mwf (fun _ => 0) m = true →
    mwf (fun _ => 0) (storeStrobed m a bs) = true
  | [], _, _, h => h
  | some b :: bs, m, a, h => storeStrobed_wf bs _ _ (mwf_mset _ m a b h)
  | none :: bs, m, a, h => storeStrobed_wf bs m (a + 1) h

theorem bget_storeStrobed : ∀ (bs : List (Option Byte)) (m : NMap Byte) (a k : Nat), mwf (fun _ => 0) m = true →
    bget (storeStrobed m a bs) k = if a ≤ k ∧ k < a + bs.length then (bs.getD (k - a) none).getD (bget m k) else bget m k
  | [], m, a, k, _ => by simp [storeStrobed]
  | b :: bs, m, a, k, h => by
    have key : ∀ m', mwf (fun _ => 0) m' = true → (∀ j, j ≠ a → bget m' j = bget m j) → bget m' a = b.getD (bget m a) →
        bget (storeStrobed m' (a + 1) bs) k =
          if a ≤ k ∧ k < a + (b :: bs).length then ((b :: bs).getD (k - a) none).getD (bget m k) else bget m k := by
      intro m' h' other self
      rw [bget_storeStrobed bs m' (a + 1) k h']
      by_cases hk : k = a
      · subst hk; rw [if_neg (by omega), if_pos (by simp only [List.length_cons]; omega), self]; simp
      · rw [other k hk]
        by_cases hin : a + 1 ≤ k ∧ k < a + 1 + bs.length
        · rw [if_pos hin, if_pos (by simp only [List.length_cons]; omega), show k - a = (k - (a + 1)) + 1 by omega]; rfl
        · rw [if_neg hin, if_neg (by simp only [List.length_cons]; omega)]
    cases b with
    | none => exact key m h (fun _ _ => rfl) rfl
    | some v => exact key _ (mwf_mset _ m a v h) (fun j hj => mget_mset_ne _ m a j v h hj) (mget_mset_self _ m a v h)

@[simp] theorem getBytes_length (m : NMap Byte) (off n : Nat) : (getBytes m off n).length = n := by simp [getBytes, mgetList]

/-- What every turn of a loop keeps, the loop keeps. -/
theorem forL_keeps {σ β : Type} (P : σ → Prop) (f : β → σ → σ) (l : List β) (s : σ) (h : ∀ a ∈ l, ∀ s, P s → P (f a s)) (hs : P s) :
    P (forL l f s) := by
  induction l generalizing s with
  | nil => exact hs
  | cons a l ih => exact ih _ (fun b hb => h b (List.mem_cons_of_mem a hb)) (h a List.mem_cons_self s hs)

theorem forN_keeps {σ : Type} (P : σ → Prop) (f : Nat → σ → σ) (n : Nat) (s : σ) (h : ∀ i < n, ∀ s, P s → P (f i s)) (hs : P s) :
    P (forN n f s) := forL_keeps P f (List.range n) s (fun i hi => h i (List.mem_range.1 hi)) hs

/-- Every memory of the reset state is in canonical form. -/
theorem State.reset_mem_wf : mwf (fun _ => 0) State.reset.dev.sram = true ∧ mwf (fun _ => 0) State.reset.dev.sdram = true ∧
    mwf (fun _ => 0) State.reset.dev.tabW = true ∧ mwf (fun _ => 0) State.reset.dev.tabE = true ∧
    mwf (fun _ => 0) State.reset.dev.obj.mbox = true := ⟨rfl, rfl, rfl, rfl, rfl⟩

end Sys2Proof.Machine
end

