-- ==== Sys2Proof/Machine/Balls.lean ====
section
/-! DEFINITION. Balls and signals (file 22): where every ball lies, its direction, bank and reset state, and what an input's pull,
an output's pull-down and an output's driver are in a state of the device. -/

namespace Sys2Proof.Machine

/-! ### The signal balls (R364 to R372) -/

/-- The 465 signal balls. `n`: the N or complement ball of a pair. -/
inductive Ball where
  | lane (k : Nat) (rx n : Bool)          -- pairs 0–3 PCIe, 4–5 Twin, 6–9 Ethernet
  | pcieRefclk (n : Bool) | serdesRefclk (n : Bool)
  | dq (c i : Nat) | dqs (c i : Nat) (n : Bool) | dm (c i : Nat) | ca (c i : Nat) | cs (c k : Nat) | ck (c k : Nat) (n : Bool)
  | ddrReset (c : Nat) | ddrAlert (c : Nat)
  | bclk (p : Nat) | ws (p : Nat) | sdi (p : Nat) | sdo (p : Nat)
  | aesRx (r : Nat) | aesTx (t : Nat) | pdmDat (d : Nat) | pdmClk | decSync | fclk
  | ospiDq (i : Nat) | ospiSck | ospiDqs | ospiCs | ospiReset
  | spiSck | spiCs | spiMosi | spiMiso
  | tck | tms | tdi | trst | tdo
  | irqN (i : Nat) | bootSel (i : Nat) | twinId | perst
  | mclkOut | wclkOut | ppsOut | wclkIn | refclk
  | bell (rx n : Bool) | resetN | wake | lxtal (out : Bool)
  | drvOut (c : Nat) (n second : Bool)
  deriving DecidableEq, Repr

/-- The banks of R361. -/
inductive Bank where
  | a | b | c | d | ka | lv | hs | ddr | drv
  deriving DecidableEq, Repr

/-- The reset-state column (R362). -/
inductive BallReset where
  | zPd | inPd | inPu | inp | idle | off10k | oscillating
  deriving DecidableEq, Repr

def flags (f : Bool → Ball) : List Ball := [f false, f true]
def times (n : Nat) (f : Nat → Ball) : List Ball := (List.range n).map f

/-- The signals of one SDRAM channel (R365). -/
def ddrBalls (c : Nat) : List Ball :=
  times 72 (.dq c) ++ times 9 (fun i => .dqs c i false) ++ times 9 (fun i => .dqs c i true) ++ times 9 (.dm c) ++ times 14 (.ca c) ++
    times 2 (.cs c) ++ times 2 (fun k => .ck c k false) ++ times 2 (fun k => .ck c k true) ++ [.ddrReset c, .ddrAlert c]
/-- The SerDes balls (R364). -/
def serdesBalls : List Ball :=
  (List.range 10).flatMap (fun k => flags (.lane k false) ++ flags (.lane k true)) ++ flags .pcieRefclk ++ flags .serdesRefclk
/-- Local audio (R369). -/
def audioBalls : List Ball :=
  times 16 .bclk ++ times 16 .ws ++ times 16 .sdi ++ times 16 .sdo ++ times 8 .aesRx ++ times 8 .aesTx ++ times 8 .pdmDat ++
    [.pdmClk, .decSync, .fclk]
/-- Control and clocks (R370). -/
def controlBalls : List Ball :=
  times 8 .ospiDq ++ [.ospiSck, .ospiDqs, .ospiCs, .ospiReset, .spiSck, .spiCs, .spiMosi, .spiMiso, .tck, .tms, .tdi, .trst, .tdo] ++
    times 2 .irqN ++ times 2 .bootSel ++ [.twinId, .perst, .mclkOut, .wclkOut, .ppsOut, .wclkIn, .refclk] ++ flags (.bell false) ++
    flags (.bell true) ++ [.resetN, .wake, .lxtal false, .lxtal true]
/-- The Drive's outputs, two balls to a terminal (R372). -/
def driveBalls : List Ball :=
  (List.range 12).flatMap (fun c => flags (.drvOut c false) ++ flags (.drvOut c true))
def signalBalls : List Ball := serdesBalls ++ ddrBalls 0 ++ ddrBalls 1 ++ audioBalls ++ controlBalls ++ driveBalls

/-! ### The grid (R360) -/

/-- Row names in order; the index of R360 is one more than the place. -/
def rowNames : List String :=
  ["A", "B", "C", "D", "E", "F", "G", "H", "J", "K", "L", "M", "N", "P", "T", "U", "V", "W", "Y", "AA", "AB", "AC", "AD", "AE", "AF",
    "AG", "AH", "AJ", "AK", "AL", "AM", "AN", "AP", "AT"]

/-- Rows of the byte lanes: a, and b below it (R365). -/
def laneRow (i : Nat) : Nat := [5, 7, 9, 11, 18, 20, 22, 24, 26].getD i 0
/-- A ball of channel 0, mirrored for channel 1 (R367). -/
def ddrAt (c row col : Nat) : Nat × Nat := (row, if c = 0 then col else 35 - col)

/-- Row index and column of a signal ball. -/
def Ball.at : Ball → Nat × Nat
  | .lane k rx n => (if rx then 3 else 1, 3 * k + 2 + n.toNat)
  | .pcieRefclk n => (1, 32 + n.toNat)
  | .serdesRefclk n => (3, 32 + n.toNat)
  | .dq c i =>
    let j := i % 8
    ddrAt c (laneRow (i / 8) + j % 2) ([1, 2, 4, 5].getD (j / 2) 0)
  | .dqs c i n => ddrAt c (laneRow i + n.toNat) 3
  | .dm c i => ddrAt c (laneRow i + 1) 6
  | .ca c i => if i < 5 then ddrAt c 13 (i + 1) else if i < 10 then ddrAt c 14 (i - 4) else ddrAt c 16 (i - 9)
  | .cs c k => if k = 0 then ddrAt c 16 5 else ddrAt c 17 1
  | .ck c k n => ddrAt c 15 (3 * k + 1 + n.toNat)
  | .ddrReset c => ddrAt c 17 2
  | .ddrAlert c => ddrAt c 17 3
  | .bclk p => if p < 12 then (5, 9 + p) else (10, p - 3)
  | .ws p => if p < 12 then (6, 9 + p) else (11, p - 3)
  | .sdi p => if p < 12 then (7, 9 + p) else (12, p - 3)
  | .sdo p => if p < 12 then (8, 9 + p) else (13, p - 3)
  | .aesRx r => (10, 13 + r)
  | .aesTx t => (11, 13 + t)
  | .pdmDat d => (12, 13 + d)
  | .pdmClk => (13, 13)
  | .decSync => (13, 14)
  | .fclk => (13, 15)
  | .ospiDq i => if i < 4 then (5, 21 + i) else (6, 17 + i)
  | .ospiSck => (5, 25)
  | .ospiDqs => (6, 25)
  | .ospiCs => (7, 21)
  | .ospiReset => (7, 22)
  | .spiSck => (7, 24)
  | .spiCs => (7, 25)
  | .spiMosi => (8, 21)
  | .spiMiso => (8, 22)
  | .tck => (8, 24)
  | .tms => (8, 25)
  | .tdi => (9, 21)
  | .tdo => (9, 22)
  | .trst => (9, 23)
  | .irqN i => (9, 25 + i)
  | .bootSel i => (10, 21 + i)
  | .twinId => (10, 23)
  | .perst => (10, 24)
  | .mclkOut => (11, 21)
  | .wclkOut => (11, 22)
  | .ppsOut => (11, 23)
  | .wclkIn => (11, 24)
  | .refclk => (11, 26)
  | .bell rx n => (12, (if rx then 24 else 21) + n.toNat)
  | .resetN => (13, 21)
  | .wake => (13, 22)
  | .lxtal out => (13, 24 + out.toNat)
  | .drvOut c n second => ((if n then 32 else 29) + second.toNat, (if c < 6 then 21 else 22) + c)

/-! ### Power and ground (R373) -/

inductive Rail where
  | vin | pgnd | vcore | vsram | vddq | vpp | vio18 | vio33 | vioa | viob | vioc | viod | vss
  deriving DecidableEq, Repr

/-- The rail of a ball of rows A to D; none: a signal. -/
def topRail (r c : Nat) : Option Rail := if r = 2 ∨ r = 4 ∨ c % 3 = 1 then some .vss else none

/-- The rail of a ball of an SDRAM edge, by its column on channel 0. -/
def edgeRail (r c : Nat) : Option Rail :=
  let laneA := decide (r ∈ [5, 7, 9, 11, 18, 20, 22, 24, 26])
  if 13 ≤ r ∧ r ≤ 17 then
    (let vddq := (List.lookup r [(13, [7]), (14, [8]), (15, [7]), (16, [8]), (17, [7])]).getD []
     let vss := (List.lookup r [(13, [6, 8]), (14, [6, 7]), (15, [3, 6, 8]), (16, [6, 7]), (17, [4, 6, 8])]).getD []
     if c ∈ vddq then some .vddq else if c ∈ vss then some .vss else if r = 17 ∧ c = 5 then some .vpp else none)
  else if laneA then (if c = 7 then some .vddq else if c = 6 ∨ c = 8 then some .vss else none)
  else (if c = 8 then some .vddq else if c = 7 then some .vss else none)

/-- The rail of a ball of the bottom edge and the Drive corner. -/
def bottomRail (r c : Nat) : Option Rail :=
  let vinRow := decide (r ∈ [28, 30, 32, 34])
  if c ≤ 18 then some (if vinRow then .vin else .pgnd)
  else if c ∈ [19, 20, 27, 34] ∨ r = 31 then some .pgnd
  else if r = 28 ∨ r = 34 then some .vin
  else none

/-- The rail of a ball of the two upper interior regions. -/
def upperRail (r c : Nat) : Option Rail :=
  if (r, c) ∈ [(9, 9), (9, 11), (9, 13)] then some .vioa
  else if (r, c) ∈ [(9, 15), (9, 17), (9, 19), (14, 10), (14, 12)] then some .viob
  else if (r, c) ∈ [(13, 17), (13, 19), (14, 14), (14, 16)] then some .vioc
  else if (r, c) ∈ [(7, 26), (9, 24), (10, 26)] then some .viod
  else if (r, c) ∈ [(14, 21), (14, 22)] then some .vio18
  else if (r, c) ∈ [(14, 24), (14, 25)] then some .vio33
  else if (r, c) ∈ [(9, 10), (9, 12), (9, 14), (9, 16), (9, 18), (9, 20), (13, 16), (13, 18), (13, 20), (14, 9), (14, 11), (14, 13), (14, 15),
      (14, 17), (14, 18), (14, 19), (14, 20), (5, 26), (6, 26), (7, 23), (8, 23), (8, 26), (10, 25), (11, 25), (12, 23), (12, 26), (13, 23),
      (13, 26), (14, 23), (14, 26)] then some .vss
  else none

/-- The rail of the ball in a row and column; none: a signal ball. -/
def railAt (r c : Nat) : Option Rail :=
  if r ≤ 4 then topRail r c
  else if r ≤ 27 then
    if c ≤ 8 then edgeRail r c
    else if 27 ≤ c then edgeRail r (35 - c)
    else if r ≤ 14 then upperRail r c
    else some (if (r + c) % 2 = 0 then .vss else if r ≤ 22 then .vcore else .vsram)
  else bottomRail r c

/-! ### Banks, reset states and enables (R361, R362, R368 to R370) -/

def portBank (p : Nat) : Bank := if p < 8 then .a else .b
def Ball.bank : Ball → Bank
  | .lane .. | .pcieRefclk _ | .serdesRefclk _ => .hs
  | .dq .. | .dqs .. | .dm .. | .ca .. | .cs .. | .ck .. | .ddrReset _ | .ddrAlert _ => .ddr
  | .bclk p | .ws p | .sdi p | .sdo p => portBank p
  | .aesRx _ | .aesTx _ | .pdmDat _ | .pdmClk | .decSync | .fclk => .c
  | .bell .. => .lv
  | .resetN | .wake | .lxtal _ => .ka
  | .drvOut .. => .drv
  | _ => .d

def Ball.reset : Ball → BallReset
  | .lane _ rx _ | .bell rx _ => if rx then .inp else .idle
  | .pcieRefclk _ | .serdesRefclk _ | .refclk | .wake => .inp
  | .dq .. | .dqs .. | .dm .. | .ca .. | .cs .. | .ck .. | .ddrReset _ => .zPd
  | .ddrAlert _ | .spiCs | .tms | .tdi | .resetN => .inPu
  | .bclk _ | .ws _ | .sdi _ | .aesRx _ | .pdmDat _ | .fclk | .ospiDqs | .spiSck | .spiMosi | .tck | .trst | .bootSel _ | .twinId | .perst
  | .wclkIn => .inPd
  | .sdo _ | .aesTx _ | .pdmClk | .decSync | .ospiDq _ | .ospiSck | .ospiCs | .ospiReset | .spiMiso | .tdo | .irqN _ | .mclkOut | .wclkOut
  | .ppsOut => .zPd
  | .lxtal _ => .oscillating
  | .drvOut .. => .off10k

/-- The balls of the boundary-scan register, in its order: every signal ball of banks A to D (R371). -/
def scanBalls : List Ball := signalBalls.filter (fun b => decide (b.bank ∈ [.a, .b, .c, .d]))

/-- What an output or bidirectional ball is enabled with. -/
def Ball.group : Ball → Option OutBall
  | .sdo p => some (.sdo p)
  | .aesTx t => some (.aesTx t)
  | .pdmClk => some .pdmClk
  | .decSync => some .decSync
  | .ospiDq _ | .ospiSck | .ospiCs | .ospiReset => some .ospi
  | .spiMiso => some .spiMiso
  | .tdo => some .tdo
  | .irqN i => some (.irqN i)
  | .mclkOut => some .mclkOut
  | .wclkOut => some .wclkOut
  | .ppsOut => some .ppsOut
  | .dq c _ | .dqs c _ _ | .dm c _ | .ca c _ | .cs c _ | .ck c _ _ | .ddrReset c => some (.ddr c)
  | _ => none

/-! ### A ball in a state of the device (R335, R345, R349, R362, R363) -/

/-- The pull at a ball. -/
inductive Pull where
  | none | down | up
  deriving DecidableEq, Repr

/-- Is a bank powered: the keep-alive bank while VIN is present, the others in IDLE and RUN and on the way there (R325, R329)? -/
def Dev.bankPowered (d : Dev) (bank : Bank) : Bool :=
  match bank, d.lmp.pwr with
  | _, .off => false
  | .ka, _ => true
  | _, .nap _ => false
  | _, .hibernate => false
  | _, _ => true

/-- An output's pull-down stands until the ball is first enabled after a reset, and an input's pull whenever its bank is powered. -/
def Dev.pullAt (d : Dev) (x : Ball) : Pull :=
  match x.reset with
  | .zPd =>
    (match x.group with
     | some g => if d.isUp && d.freed.contains g then .none else .down
     | none => .down)
  | .inPd => if d.bankPowered x.bank then .down else .none
  | .inPu => if d.bankPowered x.bank then .up else .none
  | _ => .none

/-- What the device drives at a ball. -/
inductive Driver where
  /-- nothing: an input, or high-impedance -/
  | z
  | low | high
  /-- driven by the interface the ball belongs to -/
  | active
  /-- SerDes electrical idle, an idle LVDS pair -/
  | idle
  /-- the Drive's off state (R245) -/
  | off10k
  deriving DecidableEq, Repr

/-- A transmit lane carries signals: the lanes of the PCIe link while it is up, from lane 0 on, Ethernet once the device is up, and a Twin
lane while its engine runs (R312, R335, R364). -/
def Dev.laneOn (d : Dev) (k : Nat) : Bool :=
  d.isUp && (if k < 4 then d.sys.pcieUp && decide (k < 2 ^ Config.pcieWidth.val) else
    decide (6 ≤ k) || d.ebit Off.TWN_CTL 31 || d.sys.waitTwin)

/-- The driver of an enabled output. An SDO is low in STOPPED and ARMED, and at a Foreign port (R174, R183). -/
def Dev.drives (d : Dev) : OutBall → Driver
  | .sdo p => if 2 ≤ d.portSt p ∧ cfgForeign (d.re (Off.PRT_CFG p)) = false then .active else .low
  | .pdmClk => if d.pdmClkRuns then .active else .low
  | .mclkOut => if d.clockRuns 31 then .active else .low
  | .wclkOut => if d.wclkOut then .high else .low
  | .ppsOut => if d.ppsOut then .high else .low
  | .irqN i => if (if i = 0 then d.irq0 else d.irq1) = 0 then .low else .z
  | .aesTx t => if d.bit (Off.AES_TX_CFG t) 31 then .active else .low
  | .ddr c => if d.dmcEn c then .active else .z
  | .decSync | .spiMiso | .tdo => .z
  | .ospi => .active

/-- The driver of a ball now; an SDO is driven from reset release on (R369). An open-drain or shared line that no command is just driving is released. -/
def Dev.driverAt (d : Dev) (b : Ball) : Driver :=
  match b with
  | .lane k false _ => if d.laneOn k then .active else .idle
  | .bell false _ => if d.isUp && d.ebit Off.TWN_CTL 31 then .active else .idle
  | .drvOut c _ _ => if d.isUp && (d.drvCh c).ph != 0 then .active else .off10k
  | .sdo p => if d.isUp then d.drives (.sdo p) else .z
  | b => match b.group with
    | some g => if d.isUp && d.freed.contains g then d.drives g else .z
    | none => .z

end Sys2Proof.Machine
end

