-- ==== Sys2Proof/Tests/Slice0.lean ====
section
/-! SUPPORT. Tests: small states, ill-formed terms that WellFormed refuses, single steps with results worked out from the
spec, and for every statement a state and operands that meet its hypotheses. -/

open Sys2Proof Sys2Proof.Machine

namespace Sys2Proof.Tests

set_option Elab.async false

/-! ### States -/

/-- The device once its firmware runs. -/
def up : Dev := { State.reset.dev with sys := { State.reset.dev.sys with phase := 2, waitHost := false } }
def mk (d : Dev) : State := { State.reset with dev := d }
/-- A word written, and a word written and established. -/
def w (off v : Nat) (d : Dev) : Dev := d.wrN off v
def we (off v : Nat) (d : Dev) : Dev := (d.wrN off v).we off (BitVec.ofNat 32 v)
/-- Local time is valid in tick n. -/
def at_ (n : Nat) (d : Dev) : Dev := { d with clk := { d.clk with valid := true, started := true, tick := n, time := (boundaryTime n : Nat) } }
/-- n boundaries since reset. -/
def bnd (n : Nat) (d : Dev) : Dev := { d with clk := { d.clk with bounds := n } }
/-- The provisioning state has ended: a slot was programmed at the last reset (R321). -/
def keyed (d : Dev) : Dev := { d with sys := { d.sys with provisioning := false } }
def rend (d : Dev) : Dev := { (w Off.SYS_CTL 2 d) with pipe := { d.pipe with from_ := some 3 } }

def stTick1 : State := mk (at_ 5 up)
def egress (n : Nat) (d : Dev) : Dev := { (w (Off.NET_TX_CTL 0) 0x80000800 d) with net := { d.net with downRun := if n = 0 then [] else [(0, n), (1, n), (2, n), (3, n)] } }
def stEgress : State := mk (egress 3 (at_ 5 up))
def stDetour : State := mk (rend { (w Off.DIV_DETOUR_CFG 1 (egress 4 (at_ 5 up))) with div := { up.div with queue := [⟨3, 7, false⟩, ⟨15, 9, false⟩] } })
def stBack : State := mk { at_ 5 up with net := { up.net with egressLost := true, upRun := [(2, 3000)] } }
def stRend : State := mk (rend (w Off.DIV_IMG_STAT 1 (at_ 5 up)))
def stDebug : State := mk { up with sys := { up.sys with dbgLevel := 2 } }
def stScan : State := mk (w Off.SYS_PARITY_STAT 0x40000003 { up with sys := { up.sys with scanDue := true } })
def stOtp (o : Otp) : State := { mk { up with sys := { up.sys with provisioning := false } } with otp := o }
def hash0 : List Byte := List.replicate 48 0x11
def stKeys : State := stOtp { Otp.init with keys := [(0, hash0), (2, hash0)] }
def stOneKey : State := stOtp { Otp.init with keys := [(1, hash0)], revoked := 1 }

/-- A DIVERSION image for index 3 of one END record, signed under the private key 1. -/
def divImage : List Byte := beBytes 280 0x434c535001000203180100000100000012950100000000000000000000000000efcdab8967452301480000000000000000000000000000000000000000000000ff00000008000000434c53470001000004aa87ca22be8b05378eb1c71ef320ad746e1d3b628ba79b9859f741e082542a385502f25dbf55296c3a545e3872760ab73617de4a96262c6f5d9e98bf9292dc29f8f41dbd289a147ce9da3113b5f0b8c00a60b1ce1d7e819d7a431d7c90ea0e5f00000000000000283c1d7365ce4788f29f8ebf234edffead6fe997fbea5ffa2d58cc9dfa7b1c508b05526f55b9ebb2040f05b48fb6d0e19904cc9c9f2fda82b0bdf6384e5a343b674736a29055ca6acb5226005de9c356aba5952b880e2bf38916753be9aa2d1b
def keyHash : List Byte := beBytes 48 0x8c4f262412b7f9ed867606705a130de5212fd048fbaf8c3842f4a240f4b45ba0c90f82194ccdda3ed89c96b0afe1d51d
/-- A response to the challenge of level 1 with nonce 5, under the same key. -/
def dbgAnswer : List Byte := beBytes 196 0x04aa87ca22be8b05378eb1c71ef320ad746e1d3b628ba79b9859f741e082542a385502f25dbf55296c3a545e3872760ab73617de4a96262c6f5d9e98bf9292dc29f8f41dbd289a147ce9da3113b5f0b8c00a60b1ce1d7e819d7a431d7c90ea0e5f0000008f0a39a4049bcb3ef1bf29b8b025b78f2216f7291e6fd3bac6cb1ee285fb6e21c388528bfee2b9535c55e4461079118b2676d8a7989f56469e44143f55c2599ee6259c70662937418ad19f8fd8f1bbf92a680ce1ae11ffc61cf90f826633a90f
def setWords (off : Nat) (bs : List Byte) (d : Dev) : Dev := forN (bs.length / 4) (fun i d => d.wr (off + 4 * i) (leWord bs i)) d
def stAnswer : State := { stOtp { Otp.init with keys := [(4, keyHash)] } with
  dev := setWords (Off.DBG_RESP 0) dbgAnswer { up with sys := { up.sys with provisioning := false, nonce := some 5 } } }
def planImage : List Byte := [0x43, 0x4C, 0x53, 0x50, 1, 0, 1, 0]
def stLoadRend : State := mk (rend (w Off.DIV_IMG_LEN 8 up))
def sdramUp (d : Dev) : Dev := w (Off.DMC_CTL 0) 0xC0000000 (w (Off.DMC_CTL 1) 0xC0000000 (w (Off.DMC_SIZE 0) 4096 d))
def stLoadDiv : State := { mk (w Off.DIV_IMG_LEN 280 (w Off.DIV_IMG_STAT 1 (w Off.DIV_PLAN_ID_LO 0x89ABCDEF (w Off.DIV_PLAN_ID_HI 0x01234567 (sdramUp (keyed up)))))) with
  otp := { Otp.init with keys := [(0, keyHash)] } }
def stLoaded : State := mk { (w Off.DIV_IMG_STAT 0x10000000 up) with div := { up.div with loading := some ⟨2, 0, 1, 2⟩ } }
def divs (q : List Act) (d : Dev) : Dev := { (w Off.DIV_DETOUR_CFG 1 d) with div := { d.div with resident := [(0, [1]), (2, [1, 2]), (15, [3])], queue := q } }
def stDivs : State := mk (divs [] (at_ 5 up))
def stDivs2 : State := mk (w Off.DIV_APPLY_TICK_LO 6 (divs [⟨2, 7, false⟩, ⟨1, 9, false⟩] (at_ 5 up)))
def stDivs3 : State := mk (w Off.DIV_APPLY_TICK_LO 7 (divs [⟨2, 7, false⟩, ⟨0, 12, false⟩] (at_ 5 up)))
def stDivs4 : State := mk (w Off.DIV_APPLY_TICK_LO 40 (divs ((List.range 8).map (fun i => ⟨i % 3, 20 + i, false⟩)) (at_ 5 up)))

/-- A Kazeo frame of one object record, without its CRC, and with it. -/
def kzBody (magic src seq apply kind : Nat) : List Byte :=
  leBytes 4 magic ++ leBytes 2 1 ++ leBytes 2 0 ++ leBytes 2 src ++ leBytes 2 1 ++ leBytes 4 seq ++ leBytes 8 apply ++ leBytes 8 kind ++
    leBytes 2 3 ++ List.replicate 46 0
def kz (src seq apply : Nat) : List Byte := let b := kzBody 0x464F4C43 src seq apply 1; b ++ leBytes 4 (crc32c b)
def kzBadCrc : List Byte := kzBody 0x464F4C43 9 1 8 1 ++ leBytes 4 0
def kzBadMagic : List Byte := kzBody 0x464F4C44 9 1 8 1 ++ leBytes 4 0
def kzShort : List Byte := (kz 9 1 8).take 40
def udpUp (d : Dev) : Dev := w Off.OBJ_CTL 3 (w Off.OBJ_UDP_CFG 0x000F1388 (w (Off.NET_PORT_STAT 1) 0x80000000 (w (Off.NET_PORT_IP 1) 0x0A000001 d)))
def stUdp : State := mk (udpUp (at_ 7 up))
def stUdpDup : State := mk { udpUp (at_ 7 up) with obj := { up.obj with accepted := [(9, 1, 6)] } }
def pendRec : PRec := ⟨8, 8, 9, 1, 0, 1, List.replicate 48 0, 0⟩
def stUdpFull : State := mk { udpUp (at_ 7 up) with obj := { up.obj with pending := List.replicate 16384 pendRec } }
def mboxWith (slot : Nat) (f : List Byte) (d : Dev) : Dev := { d with obj := { d.obj with mbox := setBytes [] (0x070000 + 0x2000 * slot) f } }
def stBox : State := mk (mboxWith 1 (kz 9 1 8) (w Off.OBJ_CTL 2 (at_ 7 up)))
def stBoxDup : State := mk { mboxWith 1 (kz 9 1 8) (w Off.OBJ_CTL 2 (at_ 7 up)) with obj := { (mboxWith 1 (kz 9 1 8) up).obj with accepted := [(9, 1, 6)] } }
def stBoxLong : State := mk (mboxWith 1 ((kz 9 1 8).set 10 255) (w Off.OBJ_CTL 2 (at_ 7 up)))
def wdn (x : Warden) (d : Dev) : Dev := w Off.WDN_STAT 4 { d with obj := { d.obj with wardens := [(2, x)] } }
def stWarden : State := mk (w Off.OBJ_CTL 4 (wdn ⟨[(4, 1)], [(5, 2)], kz 0xFFFA 1 3, [9], 0, none, 0, 7, 0⟩ (at_ 7 up)))
def stWarden2 : State := mk (wdn ⟨[], [], [1], [9], 1, none, 0, 7, 0⟩ (at_ 7 up))
def stWdnMem : State := mk (w Off.WDN_MEM_ADDR 0x4000FFFD (wdn ⟨[(4, 1), (0xFFFC, 9)], [(0, 2)], [], [], 0, none, 0, 7, 0⟩ up))
def stWdnMemRun : State := mk (w Off.WDN_CTL 4 (w Off.WDN_MEM_ADDR 0x50000004 (wdn ⟨[(4, 1)], [(5, 2)], [], [], 0, none, 0, 7, 0⟩ up)))

/-! The Interchange -/

def jb (flow tick sub first : Nat) (st : JState) : Job :=
  ⟨⟨flow, tick, sub, first⟩, 7, 1, 2, false, false, 0, 0, 4, [], [], 0, st, 2, none, false, false, 5, false⟩
def icx (js : List Job) (ready : NMap (List JobKey)) (sqs : NMap Square) (d : Dev) : Dev :=
  { d with icx := { d.icx with jobs := js, ready := ready, squares := sqs } }
def sq0 : Square := Square.init
def ka : JobKey := ⟨3, 7, 0, 0⟩
def kb : JobKey := ⟨3, 7, 1, 0⟩
def stKerbBusy : State := mk (icx [jb 3 7 0 0 .ready, jb 3 7 1 0 .running] [(2, [ka])] [(1, { sq0 with run := some kb })] (at_ 7 up))
def stKerbIdle : State := mk (icx [jb 3 7 0 0 .ready, jb 3 7 1 0 .ready] [(2, [ka, kb])] [] (at_ 7 up))
def stKerbSplit : State := mk (icx [{ jb 3 7 0 0 .ready with split := true }, jb 3 7 1 0 .running] [(2, [ka])] [(1,
    { sq0 with run := some kb })] (at_ 7 up))
def stRun : State := mk (icx [jb 3 7 0 0 .running] [] [(1, { sq0 with run := some ka })] (at_ 7 up))
def stRunBlocked : State := mk (icx [jb 3 7 0 0 .running] [] [(1, { sq0 with run := some ka, fenced := true, blocked := true })] (at_ 7 up))
def stGranted : State := mk (icx [{ jb 3 7 0 0 .writing with grant := some 2, everGranted := true }] [] [(1, { sq0 with run := some ka })] (at_ 7 up))
def stWriting : State := mk (icx [{ jb 3 7 0 0 .writing with grant := some 2, everGranted := true }] [] [] (at_ 7 up))
def stWriting2 : State := mk (icx [jb 3 7 0 0 .running, { jb 3 7 1 0 .writing with grant := some 2, everGranted := true }] [] [] (at_ 7 up))
def stWatch : State := mk (w (Off.SQ_WDOG 1) 2 (icx [jb 3 7 0 0 .running] [] [(1, { sq0 with run := some ka, crossed := 2 })] (at_ 7 up)))
def stSpare : State := mk (icx [] [] [(3, { sq0 with spare := true }), (9, { sq0 with spare := true }), (12,
    { sq0 with spare := true, inPlace := some 1 })] (at_ 7 up))
def stFenced : State := mk (w Off.ICX_FENCED 0x20000702 (icx [] [] [(1, { sq0 with fenced := true, fenceAge := 2 }), (8,
    { sq0 with fenced := true }), (9, { sq0 with fenced := true }), (10, { sq0 with fenced := true })] (at_ 7 up)))

def stSwap : State := mk (w (Off.RCF_F_CTL 1) 0x60000000 { at_ 7 up with conv := { up.conv with fade := [(1, (3, 3))] } })
def stSwapAcc : State := mk { at_ 7 up with pendW := [.reg 8 1, .swap 1 0x80000000] }
def stMove : State := mk (w Off.RBT_MOVE_CMD 0x10000000 up)
def stXp : State := mk { at_ 7 up with rbt := { up.rbt with xp := [(2, { Xp.init with cur := fone, target := fhalf, pending := true, cand := 9600 })] } }
def stAsrc : State := mk (w (Off.AES_RX_STAT 1) 0x80000000 (we (Off.RBT_ASRC_CFG 1) 0x82000003 (at_ 7 up)))
def stAsrcOn : State := mk (we (Off.RBT_ASRC_CFG 1) 0x82000003 (w (Off.RBT_ASRC_STAT 1) 0x80000000
    { at_ 7 up with rbt := { up.rbt with asrc := [(1, ⟨true, [⟨16, none, 0x4000000, 16⟩]⟩)] } }))

def port (p : Port) (d : Dev) : Dev := { d with net := { d.net with ports := [(1, p)] } }
def stArmed : State := mk (w (Off.PRT_STAT 1) 0x20000000 (we (Off.PRT_CFG 1) 0x80000000 (port { Port.init with good := 64, mask := 1 } (at_ 7 up))))
def stArmed2 : State := mk (w (Off.PRT_STAT 1) 0x20000000 (we (Off.PRT_CFG 1) 0x80000000 (port { Port.init with next := some 112, mask := 1 } (at_ 7
    up))))
def stRunPort : State := mk (w (Off.PRT_STAT 1) 0x7C000000 (we (Off.PRT_CFG 1) 0xA0000000
  (port { Port.init with bad := 2, mask := 1, ins := [(0, ⟨false, 0, 256, none⟩)], outs := [(1, ⟨false, 0, 255, none⟩)], commit := some 3 } (at_ 7
    up))))
def stFclk : State := mk (w Off.PRT_FCLK_CTL 1 (w Off.PRT_FCLK_STAT 0x40000000 up))
def stMask : State := mk (w (Off.PRT_SMASK_COMMIT 1) 0x40000000 (w (Off.PRT_SMASK_PEND 1) 5 (w (Off.PRT_STAT 1) 0x20000000
  (port { Port.init with commit := some 3, ltRun := 256 } (at_ 7 up)))))
def stLinkFail : State := mk (port { Port.init with ltFail := true } (at_ 7 up))
def aes (x : AesRx) (t : AesTx) (d : Dev) : Dev := w (Off.AES_RX_CFG 1) 0x80000000
    { d with net := { d.net with aesRx := [(1, x)], aesTx := [(1, t)] } }
def bits192 (b : Bool) : List Bool := b :: (List.range 191).map (fun i => i % 3 == 0)
def stAes : State := mk (w (Off.AES_TX_CFG 1) 0x80000000 <| aes { AesRx.init with frames := 5, sinceZ := 192, clean := true }
    { AesTx.init with staged := true } (at_ 7 up))
def stAesReady : State := mk (aes { AesRx.init with ready := true, doneA := some (bits192 true, bits192 false) } { AesTx.init with from_ := some 9 }
    (at_ 7 up))
def stAesOn : State := mk (w (Off.AES_RX_STAT 1) 0x8000FFFF (aes { AesRx.init with ready := true, doneA := some (bits192 false, bits192 false) }
    { AesTx.init with from_ := some 9 } (at_ 7 up)))

def rx1 (d : Dev) : Dev := w (Off.NET_PORT_STAT 0) 0x80000000 (w (Off.NET_RX_CTL 1) 0x80000800 (w (Off.NET_RX_GROUP_IP 1) 0xEF000001 (w
    (Off.NET_RX_PORT_PT 1) 0x138C0061 d)))
def stRx : State := mk (rx1 (at_ 7 up))
def stRxPath : State := mk (rx1 { at_ 4000 up with net := { up.net with rx := [(1, { RxStream.init with red := 900 })] } })
def stTx : State := mk (w (Off.NET_PORT_STAT 0) 0x80000000 (w (Off.NET_PORT_CFG 0) 0x80000000 (w (Off.NET_PORT_IP 0) 0x0A000005 (w (Off.NET_TX_CTL
    1) 0x80000800
  (w (Off.NET_TX_DST_IP 1) 0xEF000002 (w (Off.NET_TX_PORT_PT 1) 0x138C0061 (at_ 7 up)))))))
def stTxUni : State := mk (w (Off.NET_PORT_STAT 0) 0x80000000 (w (Off.NET_PORT_CFG 0) 0x80000000 (w (Off.NET_PORT_IP 0) 0x0A000005 (w
    (Off.NET_PORT_PFX 0) 24 (w (Off.NET_TX_CTL 1) 0x80000800
  (w (Off.NET_TX_DST_IP 1) 0x0A000009 (w (Off.NET_TX_PORT_PT 1) 0x138C0061 (at_ 7 up))))))))
def stLinkDown : State := mk (w (Off.NET_PORT_CFG 1) 0x80000000 (at_ 7 up))
def stNotice : State := mk (w Off.NET_NOTICE_CFG 0x00011388 (w Off.NET_NOTICE_IP 0xEF000003 (w (Off.NET_PORT_STAT 0) 0x80000000
  { at_ 7 up with evt := { up.evt with notice := [⟨0x0303, 1, 10, 5, 3⟩] } })))

def ptpUp (i : Nat) (d : Dev) : Dev := w (Off.PTP_DOM_CFG i) 0x8300007F (w (Off.NET_PORT_STAT 0) 0x80000000 (w (Off.NET_PORT_STAT 1) 0x80000000 d))
def ptpDom (i : Nat) (f : Dom → Dom) (d : Dev) : Dev := d.setDom i (f (d.dom i))
def mastered (x : Dom) : Dom := { x with master := 77, sm := some 5000000, t3 := some (0, 9), sync := some (1, 700, 3), reqSeq := 65535 }
def stPtp : State := mk (ptpUp 0 (at_ 7 up))
def stPtpM : State := mk (w (Off.PTP_DOM_STAT 0) 0x40000000 (ptpUp 0 (ptpDom 0 mastered (at_ 7 up))))
def stPtpS : State := mk (w (Off.PTP_DOM_STAT 0) 0xC0000000 (ptpUp 0 (ptpDom 0 (fun x =>
    { mastered x with sm := some 500, theta := some 4, since := 1 })
  { at_ 7 up with ptp := { up.ptp with src := 1, slew := 7 } })))
def stLost : State := mk (w (Off.PTP_DOM_STAT 0) 0xC0000000 (w Off.PTP_SEL 0x10 (ptpDom 0 (fun x => { x with rates := [1/1000, 3/1000] })
    { at_ 40000 up with ptp := { up.ptp with src := 1 } })))
def stRevert : State := mk (w (Off.PTP_DOM_STAT 0) 0xC0000000 (w (Off.PTP_DOM_STAT 1) 0xC0000000 (w Off.PTP_SEL 0x10
  (ptpDom 0 (fun x => { x with theta := some 70, est := some 77, since := 9, rate := 1/5000 })
    { bnd 180009 (at_ 180009 up) with ptp := { up.ptp with src := 2, slewing := true, slew := 3 } }))))
def stSlewEnd : State := mk { at_ 9 up with ptp := { up.ptp with slewing := true } }
def stStep : State := mk { at_ 9 up with ptp := { up.ptp with step := some (65536000000 * 3, 4) } }
def stWSteer : State := mk (w Off.PTP_SEL 3 { at_ 9 up with ptp := { up.ptp with src := 3, wclk := true, wBad := 1, wRate := 1/70000 } })
def stWAdopt : State := mk (w Off.PTP_TIME_SEC_LO 100 (w Off.PTP_TIME_NS 500 (w Off.PTP_SEL 3
    { up with ptp := { up.ptp with wclk := true, written := true } })))

def lp (c : Nat) (x : LpCh) (d : Dev) : Dev := { d with lpo := { d.lpo with ch := [(c, x)] } }
def stLpNoExt : State := mk (w Off.LPO_SYNC 0 (at_ 9 up))
def stLpFade : State := mk (w (Off.LPO_CH_CTL 3) 0x60000000 (lp 3 { LpCh.init with fade := (4, 4) } (at_ 9 up)))
def drv (c : Nat) (x : DrvCh) (d : Dev) : Dev := { d with drv := { d.drv with ch := [(c, x)] } }
def drvOn (c : Nat) (d : Dev) : Dev := w Off.DRV_CTL 0xC0000000 (we (Off.DRV_CH_CFG c) 0x81800040 d)
def stDrv : State := mk (drvOn 3 (at_ 9 up))
def stDrvPh (n : Nat) : State := mk (w (Off.DRV_CH_STAT 3) 0x80000000 (drv 3 { DrvCh.init with ph := n } (drvOn 3 (bnd 40000 (at_ 40000 up)))))
def stDrvTrip : State := mk (w (Off.DRV_CH_STAT 3) 0x48000000 (drv 3 { DrvCh.init with tripAt := 100 } (drvOn 3 (bnd 40000 (at_ 40000 up)))))
def stDrvTripHeld : State := mk (w Off.DRV_STAT 0x20000800 (w (Off.DRV_CH_STAT 3) 0x48000000 (drv 3 { DrvCh.init with tripAt := 100 } (drvOn 3 (bnd
    40000 (at_ 40000 up))))))
def stDrvLast : State := mk (w (Off.DRV_CH_STAT 3) 0x8C000000 (drv 3 { DrvCh.init with ph := 4 } (drvOn 3 (bnd 40000 (at_ 40000 up)))))
def stDrvLatch : State := mk (w (Off.DRV_CH_STAT 3) 0x29800000 (drvOn 3 (bnd 40000 (at_ 40000 up))))
def stDrvLatchOff : State := mk (w (Off.DRV_CH_STAT 3) 0x29800000 (at_ 40000 up))
def stDrvSup : State := mk (w Off.DRV_STAT 0x80000000 (drvOn 3 (bnd 40000 (at_ 40000 up))))
def stDrvOvp : State := mk (w Off.DRV_STAT 0xC0000000 (drvOn 3 (bnd 40000 (at_ 40000 up))))

/-- A frame of the Twin link from unit B. -/
def twFrame (type fseq tick : Nat) (body : List Byte) : List Byte :=
  let b := leBytes 1 type ++ leBytes 1 1 ++ leBytes 2 body.length ++ leBytes 4 fseq ++ leBytes 8 tick ++ body
  b ++ leBytes 4 (crc32c b)
def fCourier : List Byte := twFrame 1 5 9 (leBytes 8 0x6000000000000000 ++ leBytes 1 3 ++ leBytes 1 4 ++ leBytes 2 4 ++ leBytes 4 0 ++ leBytes 8 77
    ++ leBytes 8 2 ++ leBytes 8 0 ++ leBytes 8 0)
def fGate : List Byte := twFrame 2 5 9 (leBytes 2 3 ++ leBytes 2 2 ++ leBytes 4 0 ++ leBytes 8 2 ++ leBytes 8 1 ++ (List.range 128).map (fun i =>
    BitVec.ofNat 8 (i * 3)))
def fShare : List Byte := twFrame 3 5 9 (leBytes 1 2 ++ leBytes 1 0 ++ leBytes 2 4 ++ leBytes 2 1 ++ leBytes 2 16 ++ leBytes 8 1 ++ (List.range
    64).map (fun i => BitVec.ofNat 8 (i * 3)))
def fCompare : List Byte := twFrame 7 5 9 (leBytes 2 2 ++ leBytes 2 0 ++ leBytes 4 11 ++ leBytes 4 22)
def entry (seq apply kind origin : Nat) (body : List Byte) : List Byte :=
  leBytes 8 seq ++ leBytes 8 apply ++ leBytes 1 kind ++ leBytes 1 origin ++ leBytes 2 0 ++ leBytes 4 body.length ++ body
def fEntry : List Byte := twFrame 4 5 9 (entry 1 20 2 1 (kz 9 1 30))
def chunk (c part id off : Nat) (data : List Byte) : List Byte := leBytes 1 c ++ leBytes 1 part ++ leBytes 2 0 ++ leBytes 4 id ++ leBytes 8 off ++
    data
def fChunk : List Byte := twFrame 5 5 9 (chunk 2 3 8 0 [1, 2, 3, 4])
def commit (c part id len crc tick : Nat) : List Byte :=
  leBytes 1 c ++ leBytes 1 part ++ leBytes 2 0 ++ leBytes 4 id ++ leBytes 8 len ++ leBytes 4 crc ++ leBytes 4 0 ++ leBytes 8 tick ++ leBytes 8 0 ++
    leBytes 8 0
def fCommit : List Byte := twFrame 6 5 9 (commit 2 3 8 4 (crc32c [1, 2, 3, 4]) 9)
def fCommitBad : List Byte := twFrame 6 5 9 (commit 2 3 8 4 1 9)
def fDistrict (m : Nat) : List Byte :=
  let b := leBytes 4 0x46444C43 ++ leBytes 2 1 ++ leBytes 1 m ++ leBytes 1 0 ++ leBytes 1 3 ++ leBytes 1 0 ++ leBytes 2 7 ++ leBytes 4 0x4000 ++
    leBytes 8 9 ++
    leBytes 2 0 ++ leBytes 2 0 ++ leBytes 4 0
  b ++ leBytes 4 (crc32c b)
def tw (f : Twn → Twn) (d : Dev) : Dev := { d with twn := f d.twn }
def pair (d : Dev) : Dev := we Off.TWN_CTL 0x80000000 (tw (fun t => { t with st := 3, present := true, expect := some 5, pBase := 9 }) d)
def stAlone : State := mk (w (Off.TWN_CLAIM) 3 (we Off.TWN_CTL 0x80000000 (tw (fun t => { t with st := 1, expect := some 5 }) (at_ 7 up))))
def stPair : State := mk (w Off.TWN_OWN_ASRC_LO 0x10 (pair (at_ 7 up)))
def stBellLost : State := mk (tw (fun t => { t with bellAt := 1000, courAt := 5000000 }) (bnd 15 (pair (at_ 15 up))))
def stCourBack : State := mk (tw (fun t => { t with courAlarm := true, courAt := 4900000 }) (bnd 15 (pair (at_ 15 up))))
def stJoin : State := mk (tw (fun t => { t with st := 2, run := 3000 }) (pair (at_ 7 up)))
def stJoinEnd : State := mk (tw (fun t => { t with st := 2, inStep := true, holdEnd := some 7 }) (pair (at_ 7 up)))
def stEntry : State := mk (w Off.DIV_PLAN_ID_LO 77 (tw (fun t => { t with pPlan := some 77 }) (pair (at_ 7 up))))
def ldg (body : List Byte) (d : Dev) : Dev := w Off.TWN_LDG_TICK_LO 40 (w Off.TWN_LDG_CMD (0x40000000 + body.length) (setWords (Off.TWN_LDG_WIN 0)
    body d))
def stSubmit : State := mk (ldg (kz 9 1 30) (at_ 7 up))
def stSubmitBad : State := mk (ldg kzBadCrc (at_ 7 up))
def stRelay : State := mk (w Off.TWN_LDG_CMD 0x51000054 (tw (fun t => { t with relays := [⟨3, 0, 0, 5⟩] }) (bnd 60 (pair (at_ 60 up)))))
def stEpoch : State := mk (w Off.TWN_CLAIM 0x0404 (w Off.DIV_PLAN_ID_LO 77 (tw (fun t => { t with pPlan := some 77, pFlags := 4 }) (pair (at_ 7
    up)))))
def stSeed : State := mk (rend (w Off.DIV_PLAN_ID_LO 77 (tw (fun t => { t with pPlan := some 77, pHealth := 0x4000000000000000 }) (pair (at_ 7 up)))))
def stAsk : State := mk (w Off.DIV_IMG_STAT 1 { tw (fun t => { t with pFlags := 2 }) (pair (at_ 7 up)) with div := { up.div with plan := planImage } })
def stAskFw : State := mk { tw (fun t => { t with pFlags := 16 }) (pair (at_ 7 up)) with div := { up.div with firmware := planImage } }
def stRom : State := mk { up with sys := { up.sys with phase := 0, waitTwin := true } }
def stXfer : State := mk (tw (fun t => { t with st := 2, xfers := [⟨2, 3, 8, setBytes [] 0 [1, 2, 3, 4], 4, true⟩] }) (pair (at_ 7 up)))
def stPutOff : State := mk (tw (fun t => { t with putOff := some [] }) (pair (at_ 7 up)))
def dst (d : Dev) : Dev := w Off.TWN_DST_CFG 0x80000007 (we Off.TWN_CTL 0x10000000 d)
def stDst : State := mk (dst (w (Off.NET_PORT_STAT 3) 0x80000000 (at_ 20 up)))
def stDstQuiet : State := mk (tw (fun t => { t with memberAt := [(3, 5)] }) (dst (at_ 20 up)))
def stDstBack : State := mk (tw (fun t => { t with memberAt := [(3, 19)], absent := [3, 5] }) (dst (at_ 20 up)))

def tset (d : Dev) : Dev := forN 16 (fun k d => forN 2 (fun c d => w (Off.DMC_TSET_B c k) 3 (w (Off.DMC_TSET_A c k) 7 d)) d) d
def stTset : State := mk (tset (at_ 9 up))
def stTset0 : State := mk (w (Off.DMC_TSET_A 1 5) 0 (tset (at_ 9 up)))
def stDmc : State := mk (tset (sdramUp (at_ 9 up)))
def stDmcPwr : State := mk (w (Off.DMC_PWR 0) 1 (w (Off.DMC_PWR 1) 1 (tset (sdramUp (at_ 9 up)))))
def stDmcPwrB : State := mk (rend (w (Off.DMC_PWR 0) 3 (tset (sdramUp (at_ 9 up)))))
def dq (seq g req : Nat) : DmcReq := ⟨seq, g, req, 0, [], none, false, false, List.replicate 128 7, false, []⟩
def dm (x : DmcCh) (d : Dev) : Dev := { (tset (sdramUp (at_ 9 d))) with dmc := [(0, x)], sdram := [(300, 5)] }
def stDmcQ : State := mk (w (Off.DMC_RH_TH 0) 0 (w (Off.DMC_CTL 0) 0xD0000000 (dm
    { DmcCh.init with seq := 2, rq := [dq 0 4 3, dq 1 8 5], wq := [dq 5 2 1] } up)))
def stDmcOpen : State := mk (w (Off.DMC_RH_TH 0) 0 (w (Off.DMC_PWR 0) 1 (dm
    { DmcCh.init with seq := 2, rq := [dq 0 400000 3, dq 1 8 5], open_ := [(0, 1), (40, 3)], owed := [(1, 2)], acts := [(0, [(0, 4)])], thr := [3] }
    up)))
def stDmcFly : State := mk (dm { DmcCh.init with seq := 2, flight := [dq 0 4 3, dq 1 8 5] } up)
/-- A FIRMWARE image of eight code bytes, signed under the private key 1. -/
def fwImage : List Byte := beBytes 304 0x434c5350010003003001000002000000129501000000000000000000000000000000000000000000600000000000000000000000000000000000000000000000080000001800000008000000000000000102030405060708ff00000008000000434c53470001000004aa87ca22be8b05378eb1c71ef320ad746e1d3b628ba79b9859f741e082542a385502f25dbf55296c3a545e3872760ab73617de4a96262c6f5d9e98bf9292dc29f8f41dbd289a147ce9da3113b5f0b8c00a60b1ce1d7e819d7a431d7c90ea0e5f00000000000000283c1d7365ce4788f29f8ebf234edffead6fe997fbea5ffa2d58cc9dfa7b1c508b05526f55b9ebb2040f05b48fb6d0e1339911d1d4fdfe7fbffc36167ea293b39c106ea975b6894580eb0860964e7b6957a2b5fc630e1bdeb585277fe5ec2d1b
def lmpS (p : Pwr) (d : Dev) : Dev := { d with lmp := { d.lmp with pwr := p } }
def stHeld : State := mk (lmpS (.held none) (at_ 7 up))
def stHeldHot : State := mk { lmpS (.held none) (at_ 7 up) with lmp := { up.lmp with pwr := .held none, hot := true } }
def stHibernate : State := mk (w Off.LMP_RTC_ALARM_LO 5 (w Off.LMP_RTC_SEC_LO 5 (w Off.LMP_NAP_TIMER 9 (lmpS .hibernate up))))
def stNap0 : State := mk (w Off.LMP_NAP_TIMER 9 (lmpS (.nap none) up))
def sysS (f : Sys → Sys) (d : Dev) : Dev := { d with sys := f d.sys }
def stFailing (n : Nat) : State := mk (w (Off.LMP_RTC_SEC_LO) 8 (w Off.SYS_ID 3 (sysS (fun y => { y with failing := [n] }) (at_ 7 up))))
def stHotWarn : State := mk (sysS (fun y => { y with warnHot := true }) (at_ 7 up))
def stFw1 : State := { mk (w Off.DIV_IMG_STAT 0x10000000 (sdramUp (w Off.DIV_IMG_LEN 304 (sysS (fun y => { y with phase := 1, source := 1 }) { keyed up with straps := ⟨1, false, 0⟩ })))) with
  otp := { Otp.init with keys := [(0, keyHash)] } }
def stEnter (n : Nat) : State := mk (w Off.SYS_PWR_STATE 0xA0000000 (sysS (fun y => { y with entering := n }) { up with sram := [(7, 9)] }))
def stResume : State := mk { up with lmp := { up.lmp with resume := some ⟨[(3, 7)], 1, 2⟩ }, sys := { up.sys with phase := 0 } }
def stOsc : State := mk (w Off.LMP_OSC 0x80000000 up)
def stGateIdle : State := mk (w Off.PWR_QGATE 1 (sysS (fun y => { y with idleTicks := [(0, 16)] }) (at_ 20 up)))
def stGated : State := mk (w Off.PWR_QGATE 0x11 (sysS (fun y => { y with idleTicks := [(0, 16)] }) (at_ 20 up)))
def tmplBytes : List Byte := [0x10, 0x80] ++ List.replicate 62 0
def stGatedJob : State := mk (w Off.PWR_QGATE 0x1F { sysS (fun y => { y with idleTicks := [(0, 16)] }) (at_ 20 up) with tabE := setBytes [] 0x2000000 (tmplBytes ++ [0, 0, 0, 0, 0, 0, 0, 1]) })

def evs (es : List EvRec) (d : Dev) : Dev := { d with evt := { d.evt with raised := es } }
def ev1 : EvRec := ⟨0x0303, 1, 10, 5, 3⟩
def stEv : State := mk (evs [ev1, ⟨0x0304, 1, 10, 5, 3⟩] up)
def stEvMask : State := mk (w (Off.EVT_MASK 2) 8 (evs [ev1] up))
def stEvOn : State := mk (w (Off.EVT_URG 2) 8 (w Off.EVT_HEAD 63 (w Off.EVT_TAIL 5 (w Off.EVT_BASE_LO 0x100100 (w Off.EVT_CTL 0x80000000 (evs [ev1]
    { up with sram := [(3, 7)] }))))))
def stEvFull : State := mk (w Off.EVT_HEAD 4 (w Off.EVT_TAIL 5 (w Off.EVT_BASE_LO 0x100100 (w Off.EVT_CTL 0x80000000 (evs [ev1] up)))))
def stEvBase : State := mk (w Off.EVT_BASE_LO 0x100100 { up with evt := { up.evt with buf := [ev1, ev1] } })
def stEvBase0 : State := mk (w Off.EVT_BASE_LO 0x100100 up)
def stAbJob : State := mk (icx [jb 3 7 0 0 .running, jb 4 7 0 0 .ready] [(2, [⟨4, 7, 0, 0⟩])] [(1, { sq0 with run := some ka })] (at_ 7 up))
def stAbWriting : State := mk (icx [{ jb 3 7 0 0 .writing with grant := some 2, everGranted := true }] [] [] (at_ 7 up))
def stAbWarden : State := mk (w Off.WDN_STAT 4 (wdn ⟨[], [], [1], [], 0, none, 0, 7, 0⟩ (at_ 7 up)))
def stAbQuarter : State := mk (icx [jb 3 7 0 0 .running] [] ((0, { sq0 with fenced := true }) :: (1, { sq0 with run := some ka }) ::
  (List.range 8).map (fun i => (8 + i, { sq0 with fenced := true }))) (at_ 7 up))
def stAbRend : State := mk (rend (at_ 7 up))
def stOtpKeys : State := { stOtp { Otp.init with keys := [(0, hash0), (2, hash0)], hostTrust := true, dbgDisable := true, revoked := 2 } with pending := [.secRevoke .debug 0] }
def stStreets : State := mk { at_ 7 up with geo := { up.geo with streets := [(1, { Str.init with cur := fone, delay := 0x50000 })] } }
def spk (x : Nat) : List Byte := leBytes 2 3 ++ [(1 : Byte), 0] ++ leBytes 4 x ++ leBytes 4 0x3F800000 ++ leBytes 4 0 ++ List.replicate 16 0
def stLay : State := mk { at_ 7 up with tabE := setBytes (setBytes (setBytes [] 0x1200000 ([1, 0] ++ leBytes 2 2)) 0x1200020 (leBytes 4 0x43AB8000)) (spkBase 0 0) (spk 0x40000000 ++ spk 0xC0000000) }
def stRunOpen : State := mk (w (Off.PRT_STAT 1) 0x7C000000 (we (Off.PRT_CFG 1) 0x80000000 (w (Off.AES_RX_CFG 1) 0x80000000 (w (Off.AES_TX_CFG 1)
    0x80000000
  { port { Port.init with mask := 3, next := some 112, ins := [(0, ⟨true, 0, 0, none⟩), (1, ⟨true, 0, 0, none⟩)], outs := [(0, ⟨true, 0, 0, none⟩), (1, ⟨true, 0, 0, none⟩)] } (at_ 7 up) with
    samp := [(Sig.gateOut (2 * 65536 + 32), [(112, fhalf)])] }))))
def stAesTx : State := mk (w (Off.AES_TX_CFG 1) 0x80000000 (aes AesRx.init { AesTx.init with from_ := some 9 } (at_ 7 up)))
def stAbClosure : State := mk { rend (at_ 7 up) with pipe := { up.pipe with from_ := some 3, closure := some 1 } }
def stAbBusy : State := mk (w Off.SYS_ABORT_STAT 0x80000000 (at_ 7 up))

/-! Parts of these states and frames. -/

def rowOf (off : Nat) : RegRow := (regRow off).getD ⟨0, 0, 0, 0, 0, [], 0, false⟩
def jobOf (s : State) (k : JobKey) : Job := (s.dev.job k).getD ⟨k, 0, 0, 0, false, false, 0, 0, 0, [], [], 0, .waiting, 0, none, false, false, 0,
    false⟩
def fr (f : List Byte) : TFrame := (parseFrame f).getD ⟨0, 0, 0, 0, []⟩
def entryOf (x : TFrame) : LEntry := (parseEntry x.body).getD ⟨0, 0, 0, 0, 0, [], false, false⟩
def xferOf (s : State) : Xfer := s.dev.twn.xfers.headD ⟨0, 0, 0, [], 0, false⟩
def rqOf (s : State) (n : Nat) : DmcReq := (([0, 1].flatMap (fun c => (s.dev.dch c).rq ++ (s.dev.dch c).flight)).find? (fun r => r.seq == n)).getD
    ⟨0, 0, 0, 0, [], none, false, false, [], false, []⟩
def pktIn : RtpPacket := ⟨0, none, true, 0x0A000002, 0xEF000001, 5004, 2, 97, 192, List.replicate 12 7⟩
def pktEmpty : RtpPacket := ⟨0, none, true, 0x0A000002, 0xEF000001, 5004, 2, 97, 0, []⟩
def seq128 : List (Option Byte) := (List.range 128).map (fun i => some (BitVec.ofNat 8 i))
/-- The device as CHECK finds it (R33). -/
def chk (s : State) : Dev := Dev.setPlanValid (s.putReg true false Off.DIV_IMG_CMD (goBit ||| 1)).1.dev false
/-- A template whose byte 71 says that it is valid, of a kind that does not exist. -/
def stBadTmpl : State := mk { up with tabW := setBytes [] 0x2000000 (List.replicate 72 0x1F) }
/-- The frame that COMMIT of warden w takes from its staging buffer (R55). -/
def wardenFrame (d : Dev) (w len : Nat) : List Byte :=
  let x := d.warden w
  let buf := if x.cur = 0 then x.stage0 else x.stage1
  let raw := (buf ++ List.replicate (len - buf.length) 0).take len
  if 10 ≤ raw.length then raw.take 8 ++ leBytes 2 (0xFFF8 + w) ++ raw.drop 10 else raw
/-- What LEDGER_SUBMIT submits: its apply tick, its body, the entries that are open and whether they leave room (R276). -/
def ldgTick (d : Dev) : Nat :=
  let a0 := (d.rd Off.TWN_LDG_TICK_LO).toNat + 2 ^ 32 * (d.rd Off.TWN_LDG_TICK_HI).toNat
  if a0 = 0 then d.clk.tick + 2 else a0
def ldgBody (d : Dev) : List Byte :=
  ((List.range 2048).map (fun i => leBytes 4 (d.rd (Off.TWN_LDG_WIN i)).toNat)).flatten.take (d.fld Off.TWN_LDG_CMD 13 0)
def ldgLive (d : Dev) : List LEntry := d.twn.ledger.filter (fun e => e.open_ d.clk.tick)
def ldgSize (d : Dev) : Nat :=
  (((ldgLive d).filter (fun e => e.ekind == 1 && e.apply == ldgTick d)).map (fun e => e.body.length)).sum + (ldgBody d).length
/-- θ of t2 − t1 and t4 − t3 (R213). -/
def ptpTheta (ms sm : Int) : Int := ms - (ms + sm) / 2
/-- θ less Θ on the steering domain, less its own estimate on the other (R214). -/
def ptpNet (d : Dev) (i : Nat) (theta : Int) (est : Option Rat) : Rat :=
  if d.ptp.src = i + 1 then theta - d.ptp.slew else theta - est.getD theta
/-- The state that a COMMIT leaves once its transfer is taken out (R274). -/
def leftOf (s : State) (x : TFrame) : State :=
  { s with dev := { s.dev with twn := { s.dev.heardSeq x with
    xfers := s.dev.twn.xfers.filter (fun y => !decide (y.content = fByte x.body 0 ∧ y.part = fByte x.body 1 ∧ y.id = fWord x.body 4 4)) } } }
def pktVar : RtpPacket := { pktIn with payload := (List.range 12).map (fun i => BitVec.ofNat 8 (i * 37)) }
/-- 64 periods of WCLK_IN at 50 ppm, and 8 at −150 ppm, in ppb. -/
def near64 : List Int := List.replicate 64 50
def far8 : List Int := List.replicate 8 (-150000)

def openEntry : LEntry := ⟨1, 90, 3, 0, 0, divBody 0 0, false, false⟩
def withLedger (l : List LEntry) (s : State) : State := { s with dev := tw (fun t => { t with ledger := l }) s.dev }
def stDivs5 : State := { stDivs2 with dev := w Off.DIV_APPLY_TICK_LO 0x12 stDivs2.dev }
def stDivFull : State := withLedger (List.replicate 256 openEntry) stDivs5
def stDivNoted : State := withLedger [⟨1, 0x12, 3, 0, 0, divBody 0 0, false, true⟩] stDivs5
def stDivB : State := { stDivs5 with dev := tw (fun t => { t with st := 3 }) { (w Off.TWN_CLAIM 1 stDivs5.dev) with straps := ⟨1, true, 0⟩ } }
def stDivC : State := { stDivB with dev := w Off.DIV_APPLY_TICK_LO 7 stDivB.dev }
def stDivFullC : State := { stDivFull with dev := w Off.DIV_APPLY_TICK_LO 7 stDivFull.dev }
def stWardenDet : State := { stWarden with dev := w Off.WDN_CTL 0x400 stWarden.dev }
/-- Bit clocks of I2S frames of two 16-bit slots. -/
def i2s (b n : Nat) : List (Bool × Bool) := (List.range n).map (fun i => (decide (16 ≤ (i + 31) % 32), (b / 2 ^ (i % 16)) % 2 == 1))
def serial (err : Int) : SerialFrame := ⟨i2s 0 70, err, 20833⟩
def stArmedSlip : State := mk (w (Off.PRT_STAT 1) 0x20000000 (we (Off.PRT_CFG 1) 0x80000000 (port { Port.init with next := some 112 } (at_ 7 up))))
def rate96 (s : State) : State := { s with dev := { s.dev with div := { s.dev.div with rate96 := true } } }
def stFclkOff : State := mk (w Off.PRT_FCLK_STAT 0x80000000 up)
def stDrvOff : State := { stDrvPh 6 with dev := we (Off.DRV_CH_CFG 3) 0 (stDrvPh 6).dev }
def stArp : State := mk { (stTxUni.dev) with net := { stTxUni.dev.net with arp := [(0x0A000009, 78)] } }
/-- A frame of the Twin link from unit u (0 A, 1 B). -/
def twFrameOf (u type fseq tick : Nat) (body : List Byte) : List Byte :=
  let b := leBytes 1 type ++ leBytes 1 u ++ leBytes 2 body.length ++ leBytes 4 fseq ++ leBytes 8 tick ++ body
  b ++ leBytes 4 (crc32c b)
def fRelayed (u : Nat) : List Byte := twFrameOf u 4 5 9 (entry 0 20 2 u (kz 9 1 30))
def fSeq (seq : Nat) : List Byte := twFrame 4 5 9 (entry seq 20 2 1 (kz 9 1 30))
def fOwn : List Byte := twFrame 4 5 9 (entry 1 20 2 0 (kz 9 1 30))
def asB (s : State) : State := { s with dev := { s.dev with straps := ⟨1, true, 0⟩ } }
def stEntryB : State := asB stEntry
def seq (n : Nat) (s : State) : State := { s with dev := w Off.TWN_LEDGER_SEQ_LO n s.dev }
def stEntryKnown : State := seq 4 stEntry
def stAnswered : State := { stEntryKnown with dev := tw (fun t => { t with relays := [⟨0, 0, 0, 5⟩] }) (w Off.TWN_LDG_CMD 0x51000054 stEntryKnown.dev) }
def fCompareBad : List Byte := twFrame 7 5 9 (leBytes 2 3 ++ leBytes 2 0 ++ leBytes 4 11 ++ leBytes 4 22)
def expecting (e : Option Nat) (s : State) : State := { s with dev := tw (fun t => { t with expect := e }) s.dev }
def stPairLate : State := expecting (some 9) stPair
def stPairGap : State := expecting (some 2) stPair
def stPairNew : State := expecting none stPair
def stBackNew : State := mk (tw (fun t => { t with st := 1, present := false, since := 100, bellAt := 19999001, pBase := 5 }) (bnd 60 (pair (at_ 60
    up))))
def stRunTwice : State := mk (icx [jb 3 7 0 0 .running] [] [(1, { sq0 with run := some ka }), (2, { sq0 with run := some ka })] (at_ 7 up))
def submits (kind tick : Nat) (body : List Byte) (d : Dev) : Dev :=
  w Off.TWN_LDG_TICK_LO tick (w Off.TWN_LDG_CMD (kind * 0x20000000 + body.length) (setWords (Off.TWN_LDG_WIN 0) body d))
def stSubDivLate : State := mk (submits 3 5 (divBody 2 0) stDivs2.dev)
def stSubDiv : State := mk (submits 3 40 (divBody 2 0) stDivs2.dev)
def stSubDivNo : State := mk (submits 3 40 (divBody 5 0) stDivs2.dev)
def stSubFull : State := withLedger (List.replicate 256 openEntry) stSubmit
def stSubB : State := mk (ldg (kz 9 1 30) (pair { at_ 7 up with straps := ⟨1, true, 0⟩ }))
def late (d : Dev) : Dev := { d with clk := { d.clk with tick := 500000, bounds := 500000 } }
def dmcCh (f : DmcCh → DmcCh) (d : Dev) : Dev := { d with dmc := [(0, f (d.dch 0))] }
def stRefresh : State := mk (late stDmc.dev)
def stRefBusy : State := mk (late stDmcQ.dev)
def stRefHeld : State := mk (dmcCh (fun x => { x with holdTo := 2 ^ 40 }) (late stDmc.dev))
def stRefOwed : State := mk (dmcCh (fun x => { x with owed := [(0, 4)], open_ := [(0, 1), (40, 3)] }) (late stDmcQ.dev))
def stDown : State := mk (w (Off.DMC_PWR 0) 1 (late stDmc.dev))
def stWrites (g : DmcReq) : State := mk (w (Off.DMC_RH_TH 0) 0 (dm { DmcCh.init with seq := 9, drain := true, wq := [g, dq 3 9 1] } up))
def whole : DmcReq := { dq 0 4 3 with strobes := List.replicate 128 true, data := [] }
def part : DmcReq := { dq 0 4 3 with strobes := true :: List.replicate 127 false, data := [] }
def stJoinable : State := mk (dm { DmcCh.init with seq := 9, wq := [part, dq 3 9 1] } up)
def stWdog0 : State := mk { w Off.LMP_WDOG_CFG 0x80000002 (at_ 7 up) with lmp := { up.lmp with wdog := 0 } }
def stNapDone : State := mk { w Off.LMP_NAP_TIMER 9 (lmpS (.nap none) up) with lmp := { up.lmp with pwr := .nap none, napNs := 9000000000 } }
def stAbReady : State := mk (icx [jb 3 7 0 0 .ready, jb 4 7 0 0 .waiting] [(2, [ka])] [] (at_ 7 up))
def stAbEnds : State := { stAbJob with dev := { w Off.SYS_ABORT_STAT 0x80000000 (icx [jb 3 7 0 0 .running] [] [(1, { sq0 with run := some ka })] (at_ 7 up)) with
  pipe := { up.pipe with abort := some (0, 7) } } }
def stAbEnds' : State := { stAbEnds with dev := { stAbEnds.dev with icx := { stAbEnds.dev.icx with stopping := [ka] } } }
def chunkIn (c part off : Nat) (data : List Byte) : List Byte := twFrame 5 5 9 (chunk c part 8 off data)
def commitOf (c part : Nat) (data : List Byte) : List Byte := twFrame 6 5 9 (commit c part 8 data.length (crc32c data) 9)
def holding (c part : Nat) (data : List Byte) (d : Dev) : Dev := tw (fun t =>
    { t with xfers := [⟨c, part, 8, setBytes [] 0 data, data.length, true⟩] }) d
def wordsIn : List Byte := [1, 2, 3, 4]
/-- COMMIT of the 304 bytes of `fwImage`, with their CRC-32C. -/
def fwCommit : List Byte := twFrame 6 5 9 (commit 5 0 8 304 491666511 9)
def boot2 (d : Dev) : Dev := { d with straps := ⟨2, false, 0⟩ }
def stGetEpoch : State := mk (holding 1 0 wordsIn stEpoch.dev)
def stGetNoEpoch : State := mk (holding 1 0 wordsIn (pair (at_ 7 up)))
def stGetPlan : State := mk (holding 3 0 planImage (boot2 (pair (at_ 7 up))))
def stGetPlanNo : State := mk (holding 3 0 planImage (pair (at_ 7 up)))
def badDiv : List Byte := [67, 76, 83, 80, 9, 9, 2, 0]
def stGetDiv : State := mk (holding 4 1 badDiv (boot2 (pair (at_ 7 up))))
def stGetFwNo : State := mk (holding 5 0 planImage (pair (at_ 7 up)))
def rom (d : Dev) : Dev := sysS (fun y => { y with phase := 0, waitTwin := true, provisioning := false }) (tw (fun t => { t with expect := some 5 })
    (boot2 d))
def stGetFw : State := { mk (holding 5 0 fwImage (rom up)) with otp := { Otp.init with keys := [(0, keyHash)] } }
def stGetFwBad : State := mk (holding 5 0 badDiv (rom up))
def stGetFw1 : State := { mk (holding 5 0 fwImage (sysS (fun y => { y with phase := 1 }) (sdramUp (rom up)))) with otp := { Otp.init with keys := [(0, keyHash)] } }
def stSubLate : State := mk (submits 2 8 (kz 9 1 30) (at_ 7 up))
def stScrub : State := mk (late (w (Off.DMC_CTL 0) 0xD0000000 stDmc.dev))
def stDetourFree : State := mk (rend { (w Off.DIV_DETOUR_CFG 1 (egress 4 (at_ 5 up))) with
  div := { up.div with resident := [(15, [3])], queue := [⟨15, 6, false⟩, ⟨3, 7, false⟩] } })

def stBoxFull : State := withLedger (List.replicate 256 openEntry) stBox
def stBoxB : State := mk (mboxWith 1 (kz 9 1 8) (w Off.OBJ_CTL 2 (pair { at_ 7 up with straps := ⟨1, true, 0⟩ })))
def stWardenOld : State := mk (wdn ⟨[(4, 1)], [(5, 2)], kz 0xFFFA 1 3, [9], 0, some 0, 0, 6, 0⟩ (at_ 7 up))
def stAwait : State := mk (w Off.TWN_OWN_LP 2 (icx [{ jb 3 7 0 1 .running with kind := 0x41, count := 1 }] []
  [(1, { sq0 with run := some ⟨3, 7, 0, 1⟩ })] (pair (at_ 7 up))))
def stDrvWait : State := { stDrvPh 6 with dev := w Off.DRV_CTL 0xC0000000 (stDrvPh 6).dev }
def act15 : NMap Nat := (List.range 15).map (fun i => (3 * i, i + 1))
def act16 : NMap Nat := (List.range 16).map (fun i => (3 * i, i + 1))
/-- Activations of bank 0 are counted, the bank's row 0 open. -/
def stRows (th bounds : Nat) (acts : NMap (NMap Nat)) (thr : List Nat) : State :=
  mk (w (Off.DMC_RH_TH 0) th (dm { DmcCh.init with seq := 2, rq := [dq 0 4 3], acts := acts, thr := thr, open_ := [(0, 9)] } (bnd bounds up)))
def stThr : State := mk (w (Off.DMC_RH_DELAY 0) 100 (dm { DmcCh.init with seq := 2, rq := [dq 0 4 3], thr := [192], lastIss := [(192, 1)] } (bnd 1
    up)))
def stFw1Short : State := { stFw1 with dev := w Off.DIV_IMG_LEN 300 stFw1.dev }
def stFw1Div : State := { stFw1 with dev := w Off.DIV_IMG_LEN 280 stFw1.dev }
def stEnterPhase (n phase : Nat) : State := { stEnter n with dev := sysS (fun y => { y with phase := phase }) (stEnter n).dev }
def stPends : State := mk { at_ 5 up with pendW := [.reg (Off.OUT_F_DELAY 1) 5, .tab 0x1800000 [1, 2], .tab 0x19FFFFE [3, 4], .reg (Off.OUT_F_DELAY 1) 7] }
/-- The next tick begins with a Z frame: (11 + 1) × 16 is 192. -/
def stAesZ : State := { stAes with dev := at_ 11 stAes.dev }

/-! How a witness is checked: each predicate of the statements that is no Boolean, from one that is. -/

theorem ready_of {s : State} (h : (s.dev.isUp && mwf regReset s.dev.regs && s.dev.evt.fresh.isEmpty) = true) : s.Ready := by
  simp only [Bool.and_eq_true, List.isEmpty_iff] at h
  exact ⟨h.1.1, h.1.2, h.2⟩

theorem open_of {s : State} {m : Master} {off n : Nat}
    (h : ((s.csrBarred m off n).isNone && s.dev.sys.held.all (fun p => p.1 != 2)) = true) : s.Open m off n := by
  simp only [Bool.and_eq_true, Option.isNone_iff_eq_none, List.all_eq_true, bne_iff_ne] at h
  exact ⟨h.1, h.2⟩

theorem trusts_of {s : State} {m : Master} {off : Nat}
    (h : (s.dev.secureOf s.otp m && ((s.csrBarred m off 4).isNone && s.dev.sys.held.all (fun p => p.1 != 2))) = true) :
    s.Trusts m off := by
  simp only [Bool.and_eq_true] at h
  exact ⟨h.1, open_of (by simpa only [Bool.and_eq_true] using h.2)⟩

theorem reaches_of {s : State} {m : Master} {off : Nat}
    (h : ((s.csrBarred m off 4).isNone && s.dev.sys.held.all (fun p => p.1 != 2)) = true) : s.Reaches m off := open_of h

/-- A change of the blocks OUT, RBT and DRV or of a room table. -/
def plainPend : Pend → Bool
  | .reg off _ => decide (off / 0x10000 ∈ [0x0B, 0x0C, 0x12])
  | .tab off bs => decide (0x1800000 ≤ off ∧ off + bs.length ≤ 0x1A00000)
  | _ => false

theorem pends_of {l : List Pend} (h : l.all plainPend = true) :
    ∀ p ∈ l, (∃ off v, p = .reg off v ∧ off / 0x10000 ∈ [0x0B, 0x0C, 0x12]) ∨
      (∃ off bs, p = .tab off bs ∧ 0x1800000 ≤ off ∧ off + bs.length ≤ 0x1A00000) := by
  intro p hp
  have hq := List.all_eq_true.1 h p hp
  cases p with
  | reg off v => exact .inl ⟨off, v, rfl, of_decide_eq_true hq⟩
  | tab off bs => exact .inr ⟨off, bs, rfl, of_decide_eq_true hq⟩
  | _ => cases hq

/-- In `stDetourFree` the activation at tick 7 leaves 8 as the first free tick. -/
theorem first_free : ∀ x, stDetourFree.dev.clk.tick + 2 ≤ x → x < 8 → ∃ q, q ∈ stDetourFree.dev.div.queue ∧ q.tick = x := by
  intro x hx h8
  have h7 : stDetourFree.dev.clk.tick + 2 = 7 := by decide +kernel
  exact ⟨⟨3, 7, false⟩, by decide +kernel, by show 7 = x; omega⟩

theorem sound_of {d : Dev} {f : List Byte}
    (h : (frameRecords f).all (fun p => decide (d.checkRecord (fByte f 24) p.2 = (d, some p.2))) = true) : d.SoundRecords f := by
  simp only [List.all_eq_true, decide_eq_true_eq] at h
  exact h

theorem receives_of {d : Dev} {n : Nat} {f : List Byte} (h : (d.twnOn && (parseFrame f).isSome && (fr f).type == n &&
    (fr f).unit != d.unitNo && d.twn.expect == some (fr f).fseq) = true) : d.Receives n f (fr f) := by
  simp only [Bool.and_eq_true, beq_iff_eq, bne_iff_ne, Option.isSome_iff_exists] at h
  obtain ⟨⟨⟨⟨on, x, hx⟩, kind⟩, other⟩, next⟩ := h
  exact ⟨on, by simp [fr, hx], kind, other, next⟩

theorem accepts_of {d : Dev} {n : Nat} {f : List Byte} (h : ((d.twnOn && (fr f).unit != d.unitNo || !d.twnOn && d.sys.waitTwin) &&
    (parseFrame f).isSome && (fr f).type == n && d.twn.expect == some (fr f).fseq) = true) : d.Accepts n f (fr f) := by
  simp only [Bool.and_eq_true, Bool.or_eq_true, Bool.not_eq_true', beq_iff_eq, bne_iff_ne, Option.isSome_iff_exists] at h
  obtain ⟨⟨⟨who, x, hx⟩, kind⟩, next⟩ := h
  exact ⟨who, by simp [fr, hx], kind, next⟩

theorem settled_of {d : Dev} (h : (d.toSettle.isEmpty && d.pipe.abort.isNone && d.icx.stopping.isEmpty) = true) : d.Settled := by
  simp only [Bool.and_eq_true, List.isEmpty_iff, Option.isNone_iff_eq_none] at h
  exact ⟨h.1.1, h.1.2, h.2⟩

theorem mget_all {α : Type} {d : Nat → α} {P : α → Prop} (hd : ∀ k, P (d k)) :
    ∀ {m : NMap α}, (∀ p ∈ m, P p.2) → ∀ k, P (mget d m k)
  | [], _, k => hd k
  | (a, v) :: m, h, k => by
    have ih := mget_all hd (m := m) (fun p hp => h p (List.mem_cons_of_mem _ hp)) k
    have hv := h (a, v) (List.mem_cons_self ..)
    simp only [mget]
    split
    · exact hv
    · split
      · exact hd k
      · exact ih

theorem gate_of {α : Type} [DecidableEq α] {e : Nat → α} {m : NMap (NMap α)} (h : m.all (fun p => mwf e p.2) = true) (n : Nat) :
    mwf e (mget (fun _ => []) m n) = true :=
  mget_all (P := fun x => mwf e x = true) (fun _ => rfl) (fun p hp => List.all_eq_true.1 h p hp) n

theorem mget_le {n : Nat} {m : NMap Nat} (h : m.all (fun p => decide (p.2 ≤ n)) = true) (k : Nat) : mget (fun _ => 0) m k ≤ n :=
  mget_all (P := fun x => x ≤ n) (fun _ => Nat.zero_le n) (fun p hp => of_decide_eq_true (List.all_eq_true.1 h p hp)) k

/-- The step or command answers a next state, with another OTP. -/
def isNext : Result → Bool
  | .next _ => true
  | _ => false
def otpChanges (a : Otp) : Result → Bool
  | .next t => decide (t.otp ≠ a)
  | _ => false

theorem next_of {o : Result} (h : isNext o = true) : ∃ t, o = .next t := by
  cases o <;> simp_all [isNext]

theorem changes_of {a : Otp} {o : Result} (h : otpChanges a o = true) : ∃ t, o = .next t ∧ t.otp ≠ a := by
  cases o <;> simp_all [otpChanges]

/-! ### Well-formedness: one ill-formed term for each check, refused -/

def goodSub : AesSub := ⟨0, false, false, false, false, true, true⟩
def head0 : PtpHead := ⟨0, 0, 0, 0, 0⟩

theorem test_wf_refuses_plan_object : [Instr.discard .loader 16, .divApply .loader 16, .divCancel .loader 16, .kazeoUdpFrame 4 none 0 0 [],
    .mboxPost .loader 8, .commit 8 0 [], .wardenWfi 8 [], .wardenOverrun 8 [], .wardenFault 8 2 []].all (fun c => !c.wf) = true := by decide

theorem test_wf_refuses_interchange : [Instr.kerbPrefetch 32 0, .completionReport 32 0 false 0 none, .completionReport 0 0 false 0 (some (32, 0)),
    .writeBackEnd 256 0 0 0, .zcTimeout 16384, .cancel .loader 4096 false, .migrate .loader 4096 0, .migrate .loader 0 4,
    .fenceSquare .loader 32, .clearSquare .loader 32, .fenceQuarter .loader 4, .clearQuarter .loader 4, .squareUe 32, .squareWatchdog 32,
    .fenceWriteBlock 32].all (fun c => !c.wf) = true := by decide

theorem test_wf_refuses_render_ports : [Instr.swap .loader 512 0, .bankSwapEnd 512, .asrcLock 64 0, .asrcUnlock 16 0, .portConfigWrite .loader 16 0,
    .serialFrame 16 (serial 0), .portUnmuteStart 16, .unmuteTimeout 16, .portClockFault 16 1, .smaskCommit .loader 16, .smaskApply 16,
    .linkTestDone 16, .aes3Frame 8 false goodSub goodSub, .aes3Lock 8 48000, .aes3Unlock 8 0,
    .aes3CsBlock 8 0, .aes3CsBlock 0 2, .csGo .loader 8, .aesTxCsLoad 8].all (fun c => !c.wf) = true := by decide

theorem test_wf_refuses_network_time : [Instr.streamConfigWrite .loader true 128 0, .streamPacketRx { pktEmpty with port := 4 } none,
    .streamPacketRx pktEmpty (some { pktEmpty with port := 4 }), .streamPathLost 128 0, .streamPathLost 0 2, .streamPacketTx 128 0,
    .stewardPacket 4 none (.arpReply 0 0), .netLink 4 true, .ptpMessage 2 0 none 0 head0 (.sync false 0), .ptpMessage 0 4 none 0 head0 (.sync false 0),
    .delayReqSend 2 0 0, .delayReqSend 0 4 0, .masterLost 2, .ptpTimeWrite .loader 4 0].all (fun c => !c.wf) = true := by decide

theorem test_wf_refuses_post_drive : [Instr.settlingEnd 16, .lpoSwap .loader 16 0, .lpoSwapEnd 16, .measReset .loader 16, .measIr .loader 16,
    .channelStart 12, .cmRampDone 12, .driveShort 12 [] false, .driveDc 12, .driveRetry 12, .retryCountReset 12, .latched .loader 12].all
    (fun c => !c.wf) = true := by decide

theorem test_wf_refuses_twin_sdram : [Instr.twinLane 2 true, .districtMember 8, .dmcEnable .loader 2 0, .sdramRequest 2 0 0 (.read none),
    .sdramRequest 0 0 14 (.read none), .dmcIssue 2 [], .readDataReturn 2 [], .refresh 2 0, .refresh 0 2, .mr4Poll 2 0 0, .mr4Poll 0 2 0, .rhWindowEnd 2,
    .dqsTracking 2, .scrubRead 2, .rankPowerDown 2 0, .rankPowerDown 0 2].all (fun c => !c.wf) = true := by decide

theorem test_wf_refuses_security_power : [Instr.crossbarGrant 7 [], .otpProgram .loader 8, .secRevoke .loader 16, .submit .loader 4,
    .railFault 16, .quarterGate 4, .quarterWake 4 false].all (fun c => !c.wf) = true := by decide

/-! ### Single steps and functions, their results worked out by hand from the rules named -/

def dev (c : Instr) (s : State) : Dev := match exec c s with
  | .next t => t.dev
  | _ => s.dev

/-- The opcode table gives its rows no bits. -/
theorem test_no_word_spells_a_command : decodeTableWord 32 0 = none := rfl

/-- R40: apply tick 0 means SYS_TICK + 2, here 7; the activation joins the queue. -/
theorem test_divApply_default_tick : (dev (.divApply .loader 2) stDivs).div.queue = [⟨2, 7, false⟩] := by decide +kernel

/-- R16: without a valid plan RENDER_EN stays 0. -/
theorem test_renderEn_needs_a_plan : (dev (.renderEnSet .loader) (mk up)).rendering = false := by decide +kernel

/-- R62: a write of WDN_MEM_DATA advances OFFSET by 4, modulo 2 to the 16. -/
theorem test_wdnMem_offset_wraps : (dev (.wdnMemAccess .loader (some 0x12345678)) stWdnMem).fld Off.WDN_MEM_ADDR 15 0 = 1 := by decide +kernel

/-- R151: FENCE_SQUARE 2 sets bit 2 of ICX_FENCED and raises SQUARE_FENCED with cause 1. -/
theorem test_fence_sets_its_bit : (dev (.fenceSquare .loader 2) stRun).rd Off.ICX_FENCED = 4 := by decide +kernel
theorem test_fence_event : (dev (.fenceSquare .loader 2) stRun).evt.raised.map (fun e => (e.code, e.param)) = [(0x0303, 0x102)] := by
  decide +kernel

/-- R178: −32,768 of 16 bits is −1.0; 1.0 saturates at 32,767; of 2 bits 0.25 × 2 is a tie, sent as the even 0. -/
theorem test_sample_minus_one : sampleOf 16 0x8000 = 0xBF800000 := by decide +kernel
theorem test_word_saturates : wordOf 16 0x3F800000 = 32767 := by decide +kernel
theorem test_word_tie_to_even : wordOf 2 0x3E800000 = 0 := by decide +kernel

/-- R348: bit 3 of EVT_MASK(2) masks code 0x0303 and not 0x0304. -/
theorem test_mask_bit : (stEvMask.dev.masked 0x0303, stEvMask.dev.masked 0x0304) = (true, false) := by decide +kernel

/-- R346: entry 63 of a ring of 64 entries at 0x100100 is followed by entry 0. -/
theorem test_ring_wraps : (dev .evtRecordWrite stEvOn).fld Off.EVT_HEAD 11 0 = 0 := by decide +kernel

/-- R320: revoking both slots that hold a key is refused. -/
theorem test_revocation_keeps_a_slot : (dev (.secRevoke .loader 0xF) stKeys).evt.raised.map (fun e => e.param) = [0x10F] := by
  decide +kernel

/-- R364 to R373: the signal balls lie one on each place that carries no rail. The 465 powers of two sum to a number of 465 bits, so
no two are equal. -/
def places : List (Nat × Nat) := (List.range 34).flatMap (fun r => (List.range 34).map (fun c => (r + 1, c + 1)))
def placeBit (p : Nat × Nat) : Nat := 2 ^ (34 * p.1 + p.2)
theorem test_balls_fill_the_grid : signalBalls.length = 465 ∧ (places.filter (fun p => (railAt p.1 p.2).isNone)).length = 465 ∧
    (signalBalls.map (fun b => placeBit b.at)).sum = ((places.filter (fun p => (railAt p.1 p.2).isNone)).map placeBit).sum := by
  decide +kernel

/-- R41: a cancel with apply tick 0 names SYS_TICK + 2, here 7. -/
theorem test_divCancel_default_tick : (dev (.divCancel .loader 2) { stDivs with dev := dev (.divApply .loader 2) stDivs }).div.queue = [] := by
  decide +kernel
theorem stLoadDiv_regions : (chk stLoadDiv).asWritten.sdRegions =
    (true, 0, 65536) :: List.replicate 512 (true, 0, 144) := by decide +kernel

theorem stLoadDiv_fits : (chk stLoadDiv).capacityBad = false := by
  simp only [Dev.capacityBad, stLoadDiv_regions]
  decide +kernel

/-! ### Witnesses: states and operands that meet the hypotheses of each clause of a statement -/

theorem witness_BoundaryAndDeadline :
    (stTick1.Ready ∧ stTick1.dev.clk.valid = true ∧ stTick1.dev.ptp.stepTo = none ∧ stTick1.dev.sys.held = [] ∧
      stTick1.dev.div.waiting = none) ∧
    (stTick1.Ready ∧ stTick1.dev.clk.valid = true ∧ stTick1.dev.clk.past = false ∧ stTick1.dev.twn.st = 0 ∧ stTick1.dev.dstOn = false) := by
  and_intros <;> first
   
    | exact ready_of (by decide +kernel)
    | exact trusts_of (by decide +kernel)
    | exact open_of (by decide +kernel)
    | decide +kernel

theorem witness_EgressLossAndDetour :
    (stEgress.Ready ∧ stEgress.dev.net.egressLost = false ∧ stEgress.dev.egressSet ≠ [] ∧
      (∀ (e : Nat), e ∈ stEgress.dev.egressSet → max 1 (stEgress.dev.fld Off.NET_CTL 7 0) ≤ mget (fun _ => 0) stEgress.dev.net.downRun e) ∧
      stEgress.dev.bit Off.DIV_DETOUR_CFG 0 = false) ∧
    (stDetour.Ready ∧ stDetour.dev.net.egressLost = false ∧ stDetour.dev.egressSet ≠ [] ∧
      (∀ (e : Nat), e ∈ stDetour.dev.egressSet → max 1 (stDetour.dev.fld Off.NET_CTL 7 0) ≤ mget (fun _ => 0) stDetour.dev.net.downRun e) ∧
      stDetour.dev.bit Off.DIV_DETOUR_CFG 0 = true ∧ stDetour.dev.rendering = true ∧
      List.find? (fun a => a.index == 15 && decide (stDetour.dev.clk.tick + 2 ≤ a.tick)) stDetour.dev.div.queue = some (Act.mk 15 9 false)) ∧
    (stDetourFree.Ready ∧ stDetourFree.dev.net.egressLost = false ∧ stDetourFree.dev.egressSet ≠ [] ∧
      (∀ (e : Nat), e ∈ stDetourFree.dev.egressSet → max 1 (stDetourFree.dev.fld Off.NET_CTL 7 0) ≤ mget (fun _ => 0)
        stDetourFree.dev.net.downRun e) ∧ stDetourFree.dev.bit Off.DIV_DETOUR_CFG 0 = true ∧ stDetourFree.dev.rendering = true ∧
      stDetourFree.dev.isResident 15 = true ∧ stDetourFree.dev.primary = true ∧
      (∀ (q : Act), q ∈ stDetourFree.dev.div.queue → q.index = 15 → q.tick < stDetourFree.dev.clk.tick + 2) ∧
      stDetourFree.dev.div.queue.length ≤ 9 ∧ stDetourFree.dev.clk.tick + 2 ≤ 8 ∧
      (∀ (q : Act), q ∈ stDetourFree.dev.div.queue → q.tick ≠ 8) ∧
      (∀ (x : Nat), stDetourFree.dev.clk.tick + 2 ≤ x → x < 8 → ∃ q, q ∈ stDetourFree.dev.div.queue ∧ q.tick = x) ∧
      (∀ (e : LEntry), e ∈ stDetourFree.dev.twn.ledger → ¬(e.ekind = 3 ∧ e.apply = 8 ∧ e.body = divBody 15 0))) ∧
    (stBack.Ready ∧ stBack.dev.net.egressLost = true ∧ (∃ e, e ∈ netPorts ∧ 3000 ≤ mget (fun _ => 0) stBack.dev.net.upRun e)) ∧
    (State.reset.Ready ∧ State.reset.Trusts (Master.steward true) Off.DIV_DETOUR_CFG) := by
  and_intros <;> first
   
    | exact ready_of (by decide +kernel)
    | exact trusts_of (by decide +kernel)
    | exact open_of (by decide +kernel)
    | exact first_free
    | decide +kernel

theorem witness_SysCtlWrites :
    (State.reset.Ready ∧ State.reset.Trusts (Master.steward true) Off.SYS_CTL) ∧
    (stDetour.Ready ∧ stDetour.Trusts Master.pcie Off.SYS_CTL ∧ stDetour.dev.rendering = true ∧ stDetour.dev.pipe.closure = none) ∧
    (State.reset.Ready ∧ State.reset.Trusts Master.loader Off.SYS_CTL ∧ State.reset.dev.sys.failing = [] ∧ State.reset.dev.twn.st = 0 ∧
      State.reset.dev.claimNow = State.reset.dev.effClaim) ∧
    (State.reset.Ready ∧ State.reset.Trusts Master.spi Off.SYS_CTL) := by
  and_intros <;> first
   
    | exact ready_of (by decide +kernel)
    | exact trusts_of (by decide +kernel)
    | exact open_of (by decide +kernel)
    | decide +kernel

theorem witness_WriteMergesByAccessCode :
    (2 < 32 ∧
      (∀ (f : RField), f ∈ (rowOf 0).fields → ∀ (g : RField), g ∈ (rowOf 0).fields → f.lo ≤ 2 → 2 ≤ f.hi → g.lo ≤ 2 → 2 ≤ g.hi → f = g) ∧
      (∀ (f : RField), f ∈ (rowOf 0).fields → f.lo ≤ f.hi ∧ f.hi < 32)) := by
  and_intros <;> first
   
    | exact ready_of (by decide +kernel)
    | exact trusts_of (by decide +kernel)
    | exact open_of (by decide +kernel)
    | decide +kernel

theorem witness_PlainRegisterWrite :
    ((mk up).Ready ∧ 524288 % 4 = 0 ∧ 524288 / 65536 ∈ [3, 5, 8, 9] ∧ regRow 524288 = some (rowOf 524288) ∧
      (mk up).Trusts (Master.dma true) 524288) ∧
    (stDebug.Ready ∧ 524288 % 4 = 0 ∧ 524288 / 65536 ∈ [3, 5, 8, 9] ∧ regRow 524288 = some (rowOf 524288) ∧
      stDebug.Trusts Master.debug 524288) ∧
    ((mk up).Ready ∧ 524288 % 4 = 0 ∧ 524288 / 65536 ∈ [3, 5, 8, 9] ∧ regRow 524288 = some (rowOf 524288) ∧
      (mk up).Trusts Master.spi 524288) := by
  and_intros <;> first
   
    | exact ready_of (by decide +kernel)
    | exact trusts_of (by decide +kernel)
    | exact open_of (by decide +kernel)
    | decide +kernel

theorem witness_AccessErrorsChangeNothing :
    (State.reset.Ready ∧ State.reset.Open (Master.steward true) 327680 1 ∧ (1 = 1 ∨ 1 = 2) ∧ 327680 % 1 = 0 ∧ 327680 < 16777216 ∧
      inMailbox 327680 = false) ∧
    (State.reset.Ready ∧ State.reset.Open Master.icx 1 4 ∧ (4 = 2 ∨ 4 = 4) ∧ 1 % 4 ≠ 0 ∧ 1 < 16777216) := by
  and_intros <;> first
   
    | exact ready_of (by decide +kernel)
    | exact trusts_of (by decide +kernel)
    | exact open_of (by decide +kernel)
    | decide +kernel

theorem witness_TableAndApertureWrites :
    (State.reset.Ready ∧ mwf (fun _ => 0) State.reset.dev.tabW = true ∧
      ([1#8, 2#8, 3#8, 4#8].length = 1 ∨ [1#8, 2#8, 3#8, 4#8].length = 2 ∨ [1#8, 2#8, 3#8, 4#8].length = 4) ∧
      18874432 % [1#8, 2#8, 3#8, 4#8].length = 0 ∧ 18874368 ≤ 18874432 ∧ 18874432 + 4 ≤ 20971520 ∧
      State.reset.Open (Master.steward false) 18874432 [1#8, 2#8, 3#8, 4#8].length) ∧
    (State.reset.Ready ∧ mwf (fun _ => 0) State.reset.dev.sdram = true ∧
      ([1#8, 2#8, 3#8, 4#8].length = 1 ∨ [1#8, 2#8, 3#8, 4#8].length = 2 ∨ [1#8, 2#8, 3#8, 4#8].length = 4) ∧
      50331664 % [1#8, 2#8, 3#8, 4#8].length = 0 ∧ 50331648 ≤ 50331664 ∧ 50331664 + 4 ≤ 67108864 ∧
      State.reset.Open (Master.steward true) 50331664 [1#8, 2#8, 3#8, 4#8].length ∧
      State.reset.dev.rcfGuardSdram (State.reset.dev.aperAddr 50331664) [1#8, 2#8, 3#8, 4#8].length = none) := by
  and_intros <;> first
   
    | exact ready_of (by decide +kernel)
    | exact trusts_of (by decide +kernel)
    | exact open_of (by decide +kernel)
    | decide +kernel

theorem witness_ReadsClearAndLatch :
    (State.reset.Ready ∧ mwf regReset State.reset.dev.latch = true ∧ State.reset.Trusts Master.loader 524288 ∧ 524288 % 4 = 0 ∧
      524288 < 16777216 ∧ inMailbox 524288 = false ∧ 524288 ≠ Off.WDN_MEM_DATA ∧ regRow 524288 = some (rowOf 524288) ∧
      isLatched 524288 = false ∧ State.reset.dev.sys.badWords = []) ∧
    (stDebug.Ready ∧ mwf regReset stDebug.dev.latch = true ∧ stDebug.Trusts Master.debug 524288 ∧ 524288 % 4 = 0 ∧ 524288 < 16777216 ∧
      inMailbox 524288 = false ∧ 524288 ≠ Off.WDN_MEM_DATA ∧ regRow 524288 = some (rowOf 524288) ∧ isLatched 524288 = false ∧
      stDebug.dev.sys.badWords = []) ∧
    (0 < 32 ∧
      (∀ (f : RField), f ∈ (rowOf Off.SEC_PROG_CMD).fields → ∀ (g : RField), g ∈ (rowOf Off.SEC_PROG_CMD).fields → f.lo ≤ 0 → 0 ≤ f.hi →
        g.lo ≤ 0 → 0 ≤ g.hi → f = g) ∧ (∀ (f : RField), f ∈ (rowOf Off.SEC_PROG_CMD).fields → f.lo ≤ f.hi ∧ f.hi < 32)) ∧
    (31 < 32 ∧
      (∀ (f : RField), f ∈ (rowOf Off.SEC_PROG_CMD).fields → ∀ (g : RField), g ∈ (rowOf Off.SEC_PROG_CMD).fields → f.lo ≤ 31 → 31 ≤ f.hi →
        g.lo ≤ 31 → 31 ≤ g.hi → f = g) ∧ (∀ (f : RField), f ∈ (rowOf Off.SEC_PROG_CMD).fields → f.lo ≤ f.hi ∧ f.hi < 32)) ∧
    (stKeys.Ready ∧ stKeys.dev.secureOf stKeys.otp Master.pcie = false ∧ stKeys.Open Master.pcie Off.SEC_PROG_CMD 4 ∧
      Off.SEC_PROG_CMD % 4 = 0 ∧ Off.SEC_PROG_CMD < 16777216 ∧ inMailbox Off.SEC_PROG_CMD = false ∧
      regRow Off.SEC_PROG_CMD = some (rowOf Off.SEC_PROG_CMD) ∧ (rowOf Off.SEC_PROG_CMD).denies = true ∧ stKeys.dev.sys.badWords = [] ∧
      isLatched Off.SEC_PROG_CMD = false ∧ Off.SEC_PROG_CMD ≠ Off.WDN_MEM_DATA) ∧
    (stKeys.Ready ∧ stKeys.dev.secureOf stKeys.otp Master.pcie = false ∧ stKeys.Open Master.pcie 196640 4 ∧ 196640 % 4 = 0 ∧
      196640 < 16777216 ∧ inMailbox 196640 = false ∧ regRow 196640 = some (rowOf 196640) ∧ (rowOf 196640).denies = true ∧
      stKeys.dev.sys.badWords = [] ∧ (∀ (f : RField), f ∈ (rowOf 196640).fields → f.acc ∈ [Acc.rws, Acc.wos, Acc.ros, Acc.ro])) ∧
    (stKeys.Ready ∧ stKeys.dev.secureOf stKeys.otp Master.pcie = false ∧ stKeys.Open Master.pcie Off.SEC_PROG_CMD 4 ∧
      Off.SEC_PROG_CMD % 4 = 0 ∧ Off.SEC_PROG_CMD < 16777216 ∧ inMailbox Off.SEC_PROG_CMD = false ∧
      regRow Off.SEC_PROG_CMD = some (rowOf Off.SEC_PROG_CMD) ∧ (rowOf Off.SEC_PROG_CMD).denies = true ∧ stKeys.dev.sys.badWords = [] ∧
      (∀ (f : RField), f ∈ (rowOf Off.SEC_PROG_CMD).fields → f.acc ∈ [Acc.rws, Acc.wos, Acc.ros, Acc.ro])) := by
  and_intros <;> first
   
    | exact ready_of (by decide +kernel)
    | exact trusts_of (by decide +kernel)
    | exact open_of (by decide +kernel)
    | decide +kernel

theorem witness_HostBursts :
    (State.reset.Ready ∧ 0 < 142 ∧ 524288 % 256 + 142 ≤ 256) ∧
    (State.reset.Ready ∧ 0 < [1#8, 2#8, 3#8, 4#8].length ∧ 524296 % 256 + [1#8, 2#8, 3#8, 4#8].length ≤ 256) ∧
    (State.reset.Ready ∧ 300 ≤ 512 ∧ 256 - 1048828 % 256 < 300) ∧
    (State.reset.Ready ∧ 512 ≤ 512 ∧ 256 - 1048828 % 256 < 512) ∧
    (State.reset.Ready ∧ [(1 : Byte), (2 : Byte), (3 : Byte), (4 : Byte)].length ≤ (256 : Nat) ∧
      (256 : Nat) - (1048830 : Nat) % (256 : Nat) < [(1 : Byte), (2 : Byte), (3 : Byte), (4 : Byte)].length) ∧
    (State.reset.Ready ∧ 512 < 513) ∧
    (State.reset.Ready ∧ (256 : Nat) < (List.replicate (257 : Nat) (1 : Byte)).length) ∧
    (State.reset.Ready ∧ mwf (fun _ => 0) State.reset.dev.sram = true ∧ State.reset.dev.sys.waiting = [] ∧ State.reset.dev.sys.held = [] ∧
      State.reset.dev.bit Off.SYS_CTL 0 = false ∧ 1048576 ≤ 1048592 ∧ 1048592 < 2097152 ∧ 0 < [1#8, 2#8, 3#8, 4#8].length ∧
      1048592 % 16 + [1#8, 2#8, 3#8, 4#8].length ≤ 16) ∧
    (State.reset.Ready ∧ (∀ (h : Nat × Burst), h ∈ State.reset.dev.sys.held → isHost h.snd.req.master = false)) := by
  and_intros <;> first
   
    | exact ready_of (by decide +kernel)
    | exact trusts_of (by decide +kernel)
    | exact open_of (by decide +kernel)
    | decide +kernel

theorem witness_ParityScanAndClear :
    (State.reset.Ready ∧ State.reset.dev.sys.badWords = [] ∧ isConfigWord 327684 = true ∧ 327684 ≠ Off.SYS_PARITY_ACT ∧
      State.reset.dev.fld Off.SYS_PARITY_ACT 1 0 ≠ 2 ∧ State.reset.dev.bit Off.SYS_PARITY_STAT 31 = false) ∧
    (State.reset.Ready ∧ State.reset.Trusts Master.loader Off.SYS_PARITY_STAT) ∧
    (stScan.Ready ∧ stScan.dev.sys.badWords = [] ∧ stScan.dev.sys.scanDue = true ∧ stScan.dev.bit Off.SYS_PARITY_STAT 31 = false) := by
  and_intros <;> first
   
    | exact ready_of (by decide +kernel)
    | exact trusts_of (by decide +kernel)
    | exact open_of (by decide +kernel)
    | decide +kernel

theorem witness_OtpAndRevocation :
    (State.reset.Ready ∧ State.reset.Trusts (Master.steward true) Off.SEC_PROG_CMD ∧ 3 < 5 ∧
      mwf (fun _ => []) State.reset.otp.keys = true ∧ State.reset.otp.programmed 3 = false) ∧
    (stOneKey.Ready ∧ stOneKey.Trusts (Master.steward true) Off.SEC_PROG_CMD ∧ 1 < 5 ∧ mwf (fun _ => []) stOneKey.otp.keys = true ∧
      stOneKey.otp.programmed 1 = true) ∧
    (State.reset.Ready ∧ State.reset.Trusts (Master.steward true) Off.SEC_PROG_CMD ∧ 3 < 5 ∧
      mwf (fun _ => []) State.reset.otp.keys = true ∧ State.reset.otp.hostTrust = false) ∧
    (stOtpKeys.Ready ∧ stOtpKeys.Trusts (Master.steward true) Off.SEC_PROG_CMD ∧ 3 < 5 ∧ mwf (fun _ => []) stOtpKeys.otp.keys = true ∧
      stOtpKeys.otp.hostTrust = true) ∧
    (State.reset.Ready ∧ State.reset.Trusts (Master.steward true) Off.SEC_PROG_CMD ∧ 3 < 5 ∧
      mwf (fun _ => []) State.reset.otp.keys = true ∧ State.reset.otp.dbgDisable = false) ∧
    (stOtpKeys.Ready ∧ stOtpKeys.Trusts (Master.steward true) Off.SEC_PROG_CMD ∧ 3 < 5 ∧ mwf (fun _ => []) stOtpKeys.otp.keys = true ∧
      stOtpKeys.otp.dbgDisable = true) ∧
    (stKeys.Ready ∧ stKeys.Reaches (Master.steward true) Off.SEC_REVOKE_R ∧ 1 < 16 ∧ 1 ≠ 0 ∧
      stKeys.dev.secureOf stKeys.otp (Master.steward true) = true ∧ (∃ i, i < 4 ∧ stKeys.otp.usable (stKeys.otp.revoked ||| 1#4) i = true)) ∧
    (State.reset.Ready ∧ State.reset.Reaches Master.spi Off.SEC_REVOKE_R ∧ 3 < 16 ∧ 3 ≠ 0 ∧
      State.reset.dev.secureOf State.reset.otp Master.spi = true ∧
      (∀ (i : Nat), i < 4 → State.reset.otp.usable (State.reset.otp.revoked ||| 3#4) i = false)) ∧
    (stKeys.Ready ∧ stKeys.Reaches Master.spi Off.SEC_REVOKE_R ∧ 3 < 16 ∧ 3 ≠ 0 ∧ stKeys.dev.secureOf stKeys.otp Master.spi = false) := by
  and_intros <;> first
   
    | exact ready_of (by decide +kernel)
    | exact trusts_of (by decide +kernel)
    | exact open_of (by decide +kernel)
    | exact reaches_of (by decide +kernel)
    | decide +kernel

theorem witness_DebugUnlock :
    ((mk up).Ready ∧ (mk up).Trusts (Master.steward true) Off.DBG_CMD ∧ (mk up).dev.sys.dbgLocked = false ∧ 0 < 4 ∧
      (mk up).dev.sys.nonce = none) ∧
    (stAnswer.Ready ∧ stAnswer.Trusts Master.loader Off.DBG_CMD ∧ stAnswer.dev.sys.dbgLocked = false ∧ (1 = 1 ∨ 1 = 2) ∧
      stAnswer.dev.sys.nonce = some 5 ∧ stAnswer.otp.dbgDisable = false ∧ stAnswer.otp.programmed 4 = true ∧
      sha384 (List.take 97 stAnswer.dev.dbgResp) = mget (fun _ => []) stAnswer.otp.keys 4 ∧
      ecdsaVerify (List.take 97 stAnswer.dev.dbgResp) (sha384 (challenge stAnswer.otp 1 5)) (beNat (List.take 48 (List.drop 100
        stAnswer.dev.dbgResp))) (beNat (List.take 48 (List.drop 148 stAnswer.dev.dbgResp))) = true) := by
  and_intros <;> first
   
    | exact ready_of (by decide +kernel)
    | exact trusts_of (by decide +kernel)
    | exact open_of (by decide +kernel)
    | decide +kernel

theorem witness_LoadRefusalsAndResults :
    (stLoadRend.Ready ∧ stLoadRend.Trusts (Master.steward true) Off.DIV_IMG_CMD ∧
      (¬(stLoadRend.dev.sys.phase = 0 ∧ stLoadRend.dev.sys.waitHost = true)) ∧ stLoadRend.dev.fld Off.DIV_IMG_STAT 31 28 ≠ 1 ∧
      imgKind (if BitVec.toNat (stLoadRend.dev.rd Off.DIV_IMG_ADDR_LO) % 8 = 0 ∧ (planImage).length = BitVec.toNat (stLoadRend.dev.rd
        Off.DIV_IMG_LEN) then planImage else []) = 1 ∧ stLoadRend.dev.rendering = true) ∧
    ((mk up).Ready ∧ (mk up).Trusts (Master.steward true) Off.DIV_IMG_CMD ∧
      (¬((mk up).dev.sys.phase = 0 ∧ (mk up).dev.sys.waitHost = true)) ∧ (mk up).dev.fld Off.DIV_IMG_STAT 31 28 ≠ 1 ∧
      headerOk (if BitVec.toNat ((mk up).dev.rd Off.DIV_IMG_ADDR_LO) % 8 = 0 ∧ ([] : List Byte).length = BitVec.toNat ((mk up).dev.rd
        Off.DIV_IMG_LEN) then ([] : List Byte) else []) = false ∧
      (¬(imgKind (if BitVec.toNat ((mk up).dev.rd Off.DIV_IMG_ADDR_LO) % 8 = 0 ∧ ([] : List Byte).length = BitVec.toNat ((mk up).dev.rd
        Off.DIV_IMG_LEN) then ([] : List Byte) else []) = 1 ∧ (mk up).dev.rendering = true))) ∧
    ((mk up).Ready ∧ (mk up).dev.div.loading = none ∧ (mk up).dev.div.waiting = none) ∧
    (stLoaded.Ready ∧ stLoaded.dev.div.loading = some (LoadRes.mk 2 0 1 2) ∧ 2 < 16 ∧ 1 < 4 ∧ 2 < 4 ∧ 0 < 2 ^ 20) := by
  and_intros <;> first
   
    | exact ready_of (by decide +kernel)
    | exact trusts_of (by decide +kernel)
    | exact open_of (by decide +kernel)
    | decide +kernel

theorem witness_DiversionLoads :
    (stLoadDiv.Ready ∧ stLoadDiv.Trusts (Master.steward true) Off.DIV_IMG_CMD ∧
      (¬(stLoadDiv.dev.sys.phase = 0 ∧ stLoadDiv.dev.sys.waitHost = true)) ∧ stLoadDiv.dev.fld Off.DIV_IMG_STAT 31 28 ≠ 1 ∧
      BitVec.toNat (stLoadDiv.dev.rd Off.DIV_IMG_ADDR_LO) % 8 = 0 ∧ divImage.length = BitVec.toNat (stLoadDiv.dev.rd Off.DIV_IMG_LEN) ∧
      imgKind divImage = 2 ∧ headerOk divImage = true ∧ targetOk divImage = true ∧ stLoadDiv.dev.authFail stLoadDiv.otp divImage = none ∧
      (stLoadDiv.dev.walkImage divImage).fail = none ∧ stLoadDiv.dev.planValid = true ∧ fWord divImage 32 8 = stLoadDiv.dev.planId ∧
      (fWord divImage 20 4 / 2 % 2 = if stLoadDiv.dev.div.rate96 = true then 1 else 0) ∧
      (∀ (a : Act), a ∈ stLoadDiv.dev.div.queue → a.index ≠ fByte divImage 7) ∧ mwf (fun _ => []) stLoadDiv.dev.div.resident = true) := by
  and_intros <;> first
   
    | exact ready_of (by decide +kernel)
    | exact trusts_of (by decide +kernel)
    | exact open_of (by decide +kernel)
    | decide +kernel

theorem witness_CheckAndDiscard :
    (stRend.Ready ∧ stRend.Trusts (Master.steward true) Off.DIV_IMG_CMD ∧ stRend.dev.fld Off.DIV_IMG_STAT 31 28 ≠ 1 ∧
      stRend.dev.rendering = true) ∧
    (stLoadDiv.Ready ∧ stLoadDiv.Trusts (Master.steward true) Off.DIV_IMG_CMD ∧ stLoadDiv.dev.fld Off.DIV_IMG_STAT 31 28 ≠ 1 ∧
      stLoadDiv.dev.rendering = false ∧ (chk stLoadDiv).capacityBad = false ∧ (chk stLoadDiv).budgetCheck.snd = true) ∧
    ((mk up).Ready ∧ (mk up).Trusts Master.loader Off.DIV_IMG_CMD ∧ (mk up).dev.fld Off.DIV_IMG_STAT 31 28 ≠ 1 ∧ 1 < 16 ∧
      (∀ (a : Act), a ∈ (mk up).dev.div.queue → a.index ≠ 1)) ∧
    (stDivs2.Ready ∧ stDivs2.Trusts Master.loader Off.DIV_IMG_CMD ∧ stDivs2.dev.fld Off.DIV_IMG_STAT 31 28 ≠ 1 ∧ 1 < 16 ∧
      (∃ a, a ∈ stDivs2.dev.div.queue ∧ a.index = 1)) ∧
    (stBadTmpl.Ready ∧ stBadTmpl.Trusts (.steward true) Off.DIV_IMG_CMD ∧ stBadTmpl.dev.fld Off.DIV_IMG_STAT 31 28 ≠ 1 ∧
      stBadTmpl.dev.rendering = false ∧ (chk stBadTmpl).capacityBad = true) := by
  and_intros <;> first
   
    | exact ready_of (by decide +kernel)
    | exact trusts_of (by decide +kernel)
    | with_reducible exact stLoadDiv_fits
    | decide +kernel

theorem witness_DiversionQueue :
    ((mk up).Ready ∧ (mk up).Trusts (Master.steward true) Off.DIV_APPLY_R ∧ 3 < 16 ∧ (mk up).dev.isResident 3 = false) ∧
    (stDivs2.Ready ∧ stDivs2.Trusts Master.spi Off.DIV_APPLY_R ∧ 0 < 16 ∧ stDivs2.dev.isResident 0 = true ∧
      (if stDivs2.dev.divTick = 0 then stDivs2.dev.clk.tick + 2 else stDivs2.dev.divTick) < stDivs2.dev.clk.tick + 2) ∧
    (stDivs3.Ready ∧ stDivs3.Trusts Master.spi Off.DIV_APPLY_R ∧ 0 < 16 ∧ stDivs3.dev.isResident 0 = true ∧
      (stDivs3.dev.clk.tick + 2 ≤ if stDivs3.dev.divTick = 0 then stDivs3.dev.clk.tick + 2 else stDivs3.dev.divTick) ∧
      (∃ q, q ∈ stDivs3.dev.div.queue ∧ q.tick = if stDivs3.dev.divTick = 0 then stDivs3.dev.clk.tick + 2 else stDivs3.dev.divTick)) ∧
    (stDivs4.Ready ∧ stDivs4.Trusts Master.spi Off.DIV_APPLY_R ∧ 0 < 16 ∧ stDivs4.dev.isResident 0 = true ∧
      (stDivs4.dev.clk.tick + 2 ≤ if stDivs4.dev.divTick = 0 then stDivs4.dev.clk.tick + 2 else stDivs4.dev.divTick) ∧
      (∀ (q : Act), q ∈ stDivs4.dev.div.queue → q.tick ≠ if stDivs4.dev.divTick = 0 then stDivs4.dev.clk.tick + 2 else stDivs4.dev.divTick)
        ∧ 8 ≤ (List.filter (fun q => !q.detour) stDivs4.dev.div.queue).length) ∧
    (stDivs.Ready ∧ stDivs.Trusts Master.spi Off.DIV_APPLY_R ∧ 0 < 16 ∧ stDivs.dev.isResident 0 = true ∧
      (stDivs.dev.clk.tick + 2 ≤ if stDivs.dev.divTick = 0 then stDivs.dev.clk.tick + 2 else stDivs.dev.divTick) ∧
      (∀ (q : Act), q ∈ stDivs.dev.div.queue → q.tick ≠ if stDivs.dev.divTick = 0 then stDivs.dev.clk.tick + 2 else stDivs.dev.divTick) ∧
      (List.filter (fun q => !q.detour) stDivs.dev.div.queue).length < 8 ∧ stDivs.dev.primary = true ∧
      (¬∃ e, e ∈ stDivs.dev.twn.ledger ∧ e.ekind = 3 ∧ (e.apply = if stDivs.dev.divTick = 0 then stDivs.dev.clk.tick + 2 else
        stDivs.dev.divTick) ∧ e.body = divBody 0 0) ∧
      (¬256 ≤ (List.filter (fun e => e.open_ stDivs.dev.clk.tick) stDivs.dev.twn.ledger).length)) ∧
    (stDivFull.Ready ∧ stDivFull.Trusts Master.loader Off.DIV_APPLY_R ∧ 0 < 16 ∧ stDivFull.dev.isResident 0 = true ∧
      (stDivFull.dev.clk.tick + 2 ≤ if stDivFull.dev.divTick = 0 then stDivFull.dev.clk.tick + 2 else stDivFull.dev.divTick) ∧
      (∀ (q : Act), q ∈ stDivFull.dev.div.queue → q.tick ≠ if stDivFull.dev.divTick = 0 then stDivFull.dev.clk.tick + 2 else
        stDivFull.dev.divTick) ∧ (List.filter (fun q => !q.detour) stDivFull.dev.div.queue).length < 8 ∧ stDivFull.dev.primary = true ∧
      (¬∃ e, e ∈ stDivFull.dev.twn.ledger ∧ e.ekind = 3 ∧ (e.apply = if stDivFull.dev.divTick = 0 then stDivFull.dev.clk.tick + 2 else
        stDivFull.dev.divTick) ∧ e.body = divBody 0 0) ∧
      256 ≤ (List.filter (fun e => e.open_ stDivFull.dev.clk.tick) stDivFull.dev.twn.ledger).length) ∧
    (stDivNoted.Ready ∧ stDivNoted.Trusts Master.loader Off.DIV_APPLY_R ∧ 0 < 16 ∧ stDivNoted.dev.isResident 0 = true ∧
      (stDivNoted.dev.clk.tick + 2 ≤ if stDivNoted.dev.divTick = 0 then stDivNoted.dev.clk.tick + 2 else stDivNoted.dev.divTick) ∧
      (∀ (q : Act), q ∈ stDivNoted.dev.div.queue → q.tick ≠ if stDivNoted.dev.divTick = 0 then stDivNoted.dev.clk.tick + 2 else
        stDivNoted.dev.divTick) ∧ (List.filter (fun q => !q.detour) stDivNoted.dev.div.queue).length < 8 ∧ stDivNoted.dev.primary = true ∧
      (∃ e, e ∈ stDivNoted.dev.twn.ledger ∧ e.ekind = 3 ∧ (e.apply = if stDivNoted.dev.divTick = 0 then stDivNoted.dev.clk.tick + 2 else
        stDivNoted.dev.divTick) ∧ e.body = divBody 0 0)) ∧
    (stDivB.Ready ∧ stDivB.Trusts Master.loader Off.DIV_APPLY_R ∧ 0 < 16 ∧ stDivB.dev.isResident 0 = true ∧
      (stDivB.dev.clk.tick + 2 ≤ if stDivB.dev.divTick = 0 then stDivB.dev.clk.tick + 2 else stDivB.dev.divTick) ∧
      (∀ (q : Act), q ∈ stDivB.dev.div.queue → q.tick ≠ if stDivB.dev.divTick = 0 then stDivB.dev.clk.tick + 2 else stDivB.dev.divTick) ∧
      (List.filter (fun q => !q.detour) stDivB.dev.div.queue).length < 8 ∧ stDivB.dev.primary = false) ∧
    (stDivs3.Ready ∧ stDivs3.Trusts Master.ledger Off.DIV_APPLY_R ∧ 2 < 16 ∧
      (List.find? (fun q => q.index == 2 && q.tick == if stDivs3.dev.divTick = 0 then stDivs3.dev.clk.tick + 2 else stDivs3.dev.divTick)
        stDivs3.dev.div.queue = some (Act.mk 2 7 false)) ∧ stDivs3.dev.primary = true ∧
      (¬∃ e, e ∈ stDivs3.dev.twn.ledger ∧ e.ekind = 3 ∧ (e.apply = if stDivs3.dev.divTick = 0 then stDivs3.dev.clk.tick + 2 else
        stDivs3.dev.divTick) ∧ e.body = divBody 2 1) ∧
      (¬256 ≤ (List.filter (fun e => e.open_ stDivs3.dev.clk.tick) stDivs3.dev.twn.ledger).length)) ∧
    (stDivFullC.Ready ∧ stDivFullC.Trusts Master.loader Off.DIV_APPLY_R ∧ 2 < 16 ∧
      (List.find? (fun q => q.index == 2 && q.tick == if stDivFullC.dev.divTick = 0 then stDivFullC.dev.clk.tick + 2 else
        stDivFullC.dev.divTick) stDivFullC.dev.div.queue = some (Act.mk 2 7 false)) ∧ stDivFullC.dev.primary = true ∧
      (¬∃ e, e ∈ stDivFullC.dev.twn.ledger ∧ e.ekind = 3 ∧ (e.apply = if stDivFullC.dev.divTick = 0 then stDivFullC.dev.clk.tick + 2 else
        stDivFullC.dev.divTick) ∧ e.body = divBody 2 1) ∧
      256 ≤ (List.filter (fun e => e.open_ stDivFullC.dev.clk.tick) stDivFullC.dev.twn.ledger).length) ∧
    (stDivC.Ready ∧ stDivC.Trusts Master.loader Off.DIV_APPLY_R ∧ 2 < 16 ∧
      (List.find? (fun q => q.index == 2 && q.tick == if stDivC.dev.divTick = 0 then stDivC.dev.clk.tick + 2 else stDivC.dev.divTick)
        stDivC.dev.div.queue = some (Act.mk 2 7 false)) ∧ stDivC.dev.primary = false) ∧
    ((mk up).Ready ∧ (mk up).Trusts (Master.steward true) Off.DIV_APPLY_R ∧ 3 < 16 ∧
      (∀ (q : Act), q ∈ (mk up).dev.div.queue → ¬(q.index = 3 ∧ q.tick = if (mk up).dev.divTick = 0 then (mk up).dev.clk.tick + 2 else (mk
        up).dev.divTick))) := by
  and_intros <;> first
   
    | exact ready_of (by decide +kernel)
    | exact trusts_of (by decide +kernel)
    | exact open_of (by decide +kernel)
    | decide +kernel

theorem witness_KazeoAndMailboxFrames :
    (stUdp.Ready ∧ 0 < 4 ∧ (stUdp.dev.tagTaken 0 none && stUdp.dev.kazeoTaken 0 65535 1) = false) ∧
    (stUdp.Ready ∧ 1 < 4 ∧ (stUdp.dev.tagTaken 1 none && stUdp.dev.kazeoTaken 1 167772161 5000) = true ∧
      stUdp.dev.checkFrame false (kz 9 1 8) = FrameRes.ok ∧ stUdp.dev.SoundRecords (kz 9 1 8)) ∧
    (stUdp.Ready ∧ 1 < 4 ∧ (stUdp.dev.tagTaken 1 none && stUdp.dev.kazeoTaken 1 167772161 5000) = true ∧
      (kzShort.length < 36 ∨ kzShort.length ≠ 36 + 48 * fWord kzShort 10 2)) ∧
    (stUdp.Ready ∧ 1 < 4 ∧ (stUdp.dev.tagTaken 1 none && stUdp.dev.kazeoTaken 1 167772161 5000) = true ∧
      stUdp.dev.checkFrame false kzBadMagic = FrameRes.format 2) ∧
    (stUdp.Ready ∧ 1 < 4 ∧ (stUdp.dev.tagTaken 1 none && stUdp.dev.kazeoTaken 1 167772161 5000) = true ∧
      stUdp.dev.checkFrame false kzBadCrc = FrameRes.crc) ∧
    (stUdpFull.Ready ∧ 1 < 4 ∧ (stUdpFull.dev.tagTaken 1 none && stUdpFull.dev.kazeoTaken 1 167772161 5000) = true ∧
      stUdpFull.dev.checkFrame false (kz 9 1 8) = FrameRes.overflow) ∧
    (stUdpDup.Ready ∧ 1 < 4 ∧ (stUdpDup.dev.tagTaken 1 none && stUdpDup.dev.kazeoTaken 1 167772161 5000) = true ∧
      stUdpDup.dev.checkFrame false (kz 9 1 8) = FrameRes.duplicate) ∧
    ((mk up).Ready ∧ (mk up).Trusts Master.icx Off.OBJ_MBOX_POST ∧ 2 < 8 ∧ (mk up).dev.bit Off.OBJ_CTL 1 = false) ∧
    (stBox.Ready ∧ stBox.Trusts Master.spi Off.OBJ_MBOX_POST ∧ 1 < 8 ∧ stBox.dev.bit Off.OBJ_CTL 1 = true ∧
      stBox.dev.checkFrame false (getBytes stBox.dev.obj.mbox (0x072000) (min (36 + 48 * leNat (getBytes stBox.dev.obj.mbox (0x072000 + 10)
        2)) 8192)) = FrameRes.ok ∧
      stBox.dev.SoundRecords (getBytes stBox.dev.obj.mbox (0x072000) (min (36 + 48 * leNat (getBytes stBox.dev.obj.mbox (0x072000 + 10) 2))
        8192)) ∧ stBox.dev.primary = true ∧ (¬256 ≤ (List.filter (fun e => e.open_ stBox.dev.clk.tick) stBox.dev.twn.ledger).length)) ∧
    (stBoxFull.Ready ∧ stBoxFull.Trusts Master.spi Off.OBJ_MBOX_POST ∧ 1 < 8 ∧ stBoxFull.dev.bit Off.OBJ_CTL 1 = true ∧
      stBoxFull.dev.checkFrame false (getBytes stBoxFull.dev.obj.mbox (0x072000) (min (36 + 48 * leNat (getBytes stBoxFull.dev.obj.mbox
        (0x072000 + 10) 2)) 8192)) = FrameRes.ok ∧
      stBoxFull.dev.SoundRecords (getBytes stBoxFull.dev.obj.mbox (0x072000) (min (36 + 48 * leNat (getBytes stBoxFull.dev.obj.mbox
        (0x072000 + 10) 2)) 8192)) ∧ stBoxFull.dev.primary = true ∧
      256 ≤ (List.filter (fun e => e.open_ stBoxFull.dev.clk.tick) stBoxFull.dev.twn.ledger).length) ∧
    (stBoxB.Ready ∧ stBoxB.Trusts Master.spi Off.OBJ_MBOX_POST ∧ 1 < 8 ∧ stBoxB.dev.bit Off.OBJ_CTL 1 = true ∧
      stBoxB.dev.checkFrame false (getBytes stBoxB.dev.obj.mbox (0x072000) (min (36 + 48 * leNat (getBytes stBoxB.dev.obj.mbox (0x072000 +
        10) 2)) 8192)) = FrameRes.ok ∧
      stBoxB.dev.SoundRecords (getBytes stBoxB.dev.obj.mbox (0x072000) (min (36 + 48 * leNat (getBytes stBoxB.dev.obj.mbox (0x072000 + 10)
        2)) 8192)) ∧ stBoxB.dev.primary = false) ∧
    (stBoxLong.Ready ∧ stBoxLong.Trusts Master.spi Off.OBJ_MBOX_POST ∧ 1 < 8 ∧ stBoxLong.dev.bit Off.OBJ_CTL 1 = true ∧
      8192 < 36 + 48 * leNat (getBytes stBoxLong.dev.obj.mbox (0x072000 + 10) 2)) ∧
    (stBoxDup.Ready ∧ stBoxDup.Trusts Master.spi Off.OBJ_MBOX_POST ∧ 1 < 8 ∧ stBoxDup.dev.bit Off.OBJ_CTL 1 = true ∧
      stBoxDup.dev.checkFrame false (getBytes stBoxDup.dev.obj.mbox (0x072000) (min (36 + 48 * leNat (getBytes stBoxDup.dev.obj.mbox
        (0x072000 + 10) 2)) 8192)) = FrameRes.duplicate) := by
  and_intros <;> first
   
    | exact ready_of (by decide +kernel)
    | exact trusts_of (by decide +kernel)
    | exact open_of (by decide +kernel)
    | exact sound_of (by decide +kernel)
    | decide +kernel

theorem witness_Wardens :
    ((mk up).Ready ∧ 0 < 8 ∧ mwf (fun _ => Warden.init) (mk up).dev.obj.wardens = true ∧ (mk up).dev.wdnBusy 0 = false) ∧
    (stWarden2.Ready ∧ 2 < 8 ∧ mwf (fun _ => Warden.init) stWarden2.dev.obj.wardens = true ∧
      (stWarden2.dev.wardenRun 2 []).wdnBusy 2 = true ∧ (stWarden2.dev.wardenRun 2 []).bit Off.OBJ_CTL 2 = false) ∧
    (stWarden.Ready ∧ 2 < 8 ∧ mwf (fun _ => Warden.init) stWarden.dev.obj.wardens = true ∧ (stWarden.dev.wardenRun 2 []).wdnBusy 2 = true ∧
      (stWarden.dev.wardenRun 2 []).bit Off.OBJ_CTL 2 = true ∧
      (stWarden.dev.wardenRun 2 []).checkFrame true (wardenFrame (stWarden.dev.wardenRun 2 []) 2 84) = FrameRes.ok ∧
      (stWarden.dev.wardenRun 2 []).SoundRecords (wardenFrame (stWarden.dev.wardenRun 2 []) 2 84)) ∧
    ((mk up).Ready ∧ 1 < 8 ∧ mwf (fun _ => Warden.init) (mk up).dev.obj.wardens = true) ∧
    (stWarden.Ready ∧ 2 < 8 ∧ mwf (fun _ => Warden.init) stWarden.dev.obj.wardens = true ∧ (stWarden.dev.wardenRun 2 []).wdnBusy 2 = true ∧
      stWarden.dev.clk.tick ≤ ((stWarden.dev.wardenRun 2 []).warden 2).n) ∧
    (stWardenOld.Ready ∧ 2 < 8 ∧ mwf (fun _ => Warden.init) stWardenOld.dev.obj.wardens = true ∧
      (stWardenOld.dev.wardenRun 2 []).wdnBusy 2 = true ∧ ((stWardenOld.dev.wardenRun 2 []).warden 2).n < stWardenOld.dev.clk.tick) ∧
    (stWarden.Ready ∧ 2 < 8 ∧ mwf (fun _ => Warden.init) stWarden.dev.obj.wardens = true ∧ 2 ≤ 2 ∧ 2 ≤ 4 ∧
      (stWarden.dev.wardenRun 2 []).wdnBusy 2 = true) ∧
    (stWarden.Ready ∧ 2 < 8 ∧ mwf (fun _ => Warden.init) stWarden.dev.obj.wardens = true ∧ 2 ≤ 4 ∧ 4 ≤ 4 ∧
      (stWarden.dev.wardenRun 2 []).wdnBusy 2 = true) ∧
    (stWarden.Ready ∧ 2 < 8 ∧ mwf (fun _ => Warden.init) stWarden.dev.obj.wardens = true ∧
      [WardenAct.store 268500990 [1, 2]] = [WardenAct.store 268500990 [1, 2]] ∧ stWarden.dev.wdnBusy 2 = true ∧
      WardenAct.store 268500990 [1, 2] = WardenAct.store 268500990 [1, 2] ∧ mwf (fun _ => 0) (stWarden.dev.warden 2).dmem = true ∧
      268435456 ≤ 268500990 ∧ (268500990 : Nat) + [(1 : Byte), (2 : Byte)].length ≤ (268500992 : Nat)) ∧
    (stWarden.Ready ∧ 2 < 8 ∧ mwf (fun _ => Warden.init) stWarden.dev.obj.wardens = true ∧
      [WardenAct.store 268435456 [1, 2]] = [WardenAct.store 268435456 [1, 2]] ∧ stWarden.dev.wdnBusy 2 = true ∧
      WardenAct.store 268435456 [1, 2] = WardenAct.store 268435456 [1, 2] ∧ mwf (fun _ => 0) (stWarden.dev.warden 2).dmem = true ∧
      268435456 ≤ 268435456 ∧ (268435456 : Nat) + [(1 : Byte), (2 : Byte)].length ≤ (268500992 : Nat)) ∧
    (stWarden.Ready ∧ 2 < 8 ∧ mwf (fun _ => Warden.init) stWarden.dev.obj.wardens = true ∧
      [WardenAct.store 536875006 [1, 2]] = [WardenAct.store 536875006 [1, 2]] ∧ stWarden.dev.wdnBusy 2 = true ∧
      WardenAct.store 536875006 [1, 2] = WardenAct.store 536875006 [1, 2] ∧ 536870912 ≤ 536875006 ∧
      (536875006 : Nat) + [(1 : Byte), (2 : Byte)].length ≤ (536875008 : Nat)) ∧
    (stWarden.Ready ∧ 2 < 8 ∧ mwf (fun _ => Warden.init) stWarden.dev.obj.wardens = true ∧
      [WardenAct.store 536870912 [1, 2]] = [WardenAct.store 536870912 [1, 2]] ∧ stWarden.dev.wdnBusy 2 = true ∧
      WardenAct.store 536870912 [1, 2] = WardenAct.store 536870912 [1, 2] ∧ 536870912 ≤ 536870912 ∧
      (536870912 : Nat) + [(1 : Byte), (2 : Byte)].length ≤ (536875008 : Nat)) ∧
    (stWardenOld.Ready ∧ 2 < 8 ∧ mwf (fun _ => Warden.init) stWardenOld.dev.obj.wardens = true ∧
      [WardenAct.store 536875006 [1, 2]] = [WardenAct.store 536875006 [1, 2]] ∧ stWardenOld.dev.wdnBusy 2 = true ∧
      WardenAct.store 536875006 [1, 2] = WardenAct.store 536875006 [1, 2] ∧ 536870912 ≤ 536875006 ∧
      (536875006 : Nat) + [(1 : Byte), (2 : Byte)].length ≤ (536875008 : Nat)) ∧
    (stWarden.Ready ∧ 2 < 8 ∧ mwf (fun _ => Warden.init) stWarden.dev.obj.wardens = true ∧
      [WardenAct.load 536879112 8] = [WardenAct.load 536879112 8] ∧ stWarden.dev.wdnBusy 2 = true ∧
      WardenAct.load 536879112 8 = WardenAct.load 536879112 8) ∧
    (stWardenDet.Ready ∧ 2 < 8 ∧ mwf (fun _ => Warden.init) stWardenDet.dev.obj.wardens = true ∧
      [WardenAct.counter 0] = [WardenAct.counter 0] ∧ stWardenDet.dev.wdnBusy 2 = true ∧ WardenAct.counter 0 = WardenAct.counter 0 ∧
      stWardenDet.dev.bit Off.WDN_CTL (8 + 2) = true) ∧
    (stWarden.Ready ∧ 2 < 8 ∧ mwf (fun _ => Warden.init) stWarden.dev.obj.wardens = true ∧
      [WardenAct.load 805437952 4] = [WardenAct.load 805437952 4] ∧ stWarden.dev.wdnBusy 2 = true ∧
      WardenAct.load 805437952 4 = WardenAct.load 805437952 4 ∧ 805437952 ≤ 805437952 ∧ 0 < 4) ∧
    ((mk up).Ready ∧ (mk up).Trusts (Master.steward true) Off.WDN_MEM_DATA ∧ (mk up).dev.sys.badWords.contains Off.WDN_MEM_DATA = false ∧
      mwf (fun _ => Warden.init) (mk up).dev.obj.wardens = true ∧
      mwf (fun _ => 0) ((mk up).dev.warden (getBits ((mk up).dev.rd Off.WDN_MEM_ADDR) 31 29)).imem = true ∧
      mwf (fun _ => 0) ((mk up).dev.warden (getBits ((mk up).dev.rd Off.WDN_MEM_ADDR) 31 29)).dmem = true ∧
      (mk up).dev.bit Off.WDN_CTL (getBits ((mk up).dev.rd Off.WDN_MEM_ADDR) 31 29) = false) ∧
    (stWdnMemRun.Ready ∧ stWdnMemRun.Trusts (Master.steward true) Off.WDN_MEM_DATA ∧
      stWdnMemRun.dev.sys.badWords.contains Off.WDN_MEM_DATA = false ∧ mwf (fun _ => Warden.init) stWdnMemRun.dev.obj.wardens = true ∧
      mwf (fun _ => 0) (stWdnMemRun.dev.warden (getBits (stWdnMemRun.dev.rd Off.WDN_MEM_ADDR) 31 29)).imem = true ∧
      mwf (fun _ => 0) (stWdnMemRun.dev.warden (getBits (stWdnMemRun.dev.rd Off.WDN_MEM_ADDR) 31 29)).dmem = true ∧
      stWdnMemRun.dev.bit Off.WDN_CTL (getBits (stWdnMemRun.dev.rd Off.WDN_MEM_ADDR) 31 29) = true) := by
  and_intros <;> first
   
    | exact ready_of (by decide +kernel)
    | exact trusts_of (by decide +kernel)
    | exact open_of (by decide +kernel)
    | exact sound_of (by decide +kernel)
    | decide +kernel

theorem witness_KerbsAndCompletions :
    (stKerbBusy.Ready ∧ 1 < 32 ∧ mwf (fun _ => Square.init) stKerbBusy.dev.icx.squares = true ∧
      mwf (fun _ => []) stKerbBusy.dev.icx.ready = true ∧ (stKerbBusy.dev.square 1).serving = true ∧
      (stKerbBusy.dev.square 1).kerb = none ∧ stKerbBusy.dev.quarterGated (1 / 8) = false ∧ stKerbBusy.dev.takeList (1 / 8) = some 2 ∧
      stKerbBusy.dev.readyList 2 = [JobKey.mk 3 7 0 0] ∧
      stKerbBusy.dev.job (JobKey.mk 3 7 0 0) = some (jobOf stKerbBusy (JobKey.mk 3 7 0 0)) ∧
      (¬((jobOf stKerbBusy (JobKey.mk 3 7 0 0)).split = true ∧ 0 < 3 ∧ 3 < (jobOf stKerbBusy (JobKey.mk 3 7 0 0)).count ∧
        stKerbBusy.dev.inFlight < 512)) ∧ (stKerbBusy.dev.square 1).busy = true) ∧
    (stKerbBusy.Ready ∧ 2 < 32 ∧ mwf (fun _ => Square.init) stKerbBusy.dev.icx.squares = true ∧
      mwf (fun _ => []) stKerbBusy.dev.icx.ready = true ∧ (stKerbBusy.dev.square 2).serving = true ∧
      (stKerbBusy.dev.square 2).kerb = none ∧ stKerbBusy.dev.quarterGated (2 / 8) = false ∧ stKerbBusy.dev.takeList (2 / 8) = some 2 ∧
      stKerbBusy.dev.readyList 2 = [JobKey.mk 3 7 0 0] ∧
      stKerbBusy.dev.job (JobKey.mk 3 7 0 0) = some (jobOf stKerbBusy (JobKey.mk 3 7 0 0)) ∧
      (¬((jobOf stKerbBusy (JobKey.mk 3 7 0 0)).split = true ∧ 0 < 2 ∧ 2 < (jobOf stKerbBusy (JobKey.mk 3 7 0 0)).count ∧
        stKerbBusy.dev.inFlight < 512)) ∧ (stKerbBusy.dev.square 2).busy = false) ∧
    (stKerbSplit.Ready ∧ 1 < 32 ∧ mwf (fun _ => Square.init) stKerbSplit.dev.icx.squares = true ∧
      mwf (fun _ => []) stKerbSplit.dev.icx.ready = true ∧ (stKerbSplit.dev.square 1).serving = true ∧
      (stKerbSplit.dev.square 1).kerb = none ∧ stKerbSplit.dev.quarterGated (1 / 8) = false ∧ stKerbSplit.dev.takeList (1 / 8) = some 2 ∧
      stKerbSplit.dev.readyList 2 = [JobKey.mk 3 7 0 0] ∧
      stKerbSplit.dev.job (JobKey.mk 3 7 0 0) = some (jobOf stKerbSplit (JobKey.mk 3 7 0 0)) ∧
      (jobOf stKerbSplit (JobKey.mk 3 7 0 0)).split = true ∧ 0 < 3 ∧ 3 < (jobOf stKerbSplit (JobKey.mk 3 7 0 0)).count ∧
      stKerbSplit.dev.inFlight < 512 ∧ (stKerbSplit.dev.square 1).busy = true ∧ stKerbSplit.dev.job (JobKey.mk 3 7 0 (0 + 3)) = none) ∧
    (stRunBlocked.Ready ∧ 1 < 32 ∧ mwf (fun _ => Square.init) stRunBlocked.dev.icx.squares = true ∧ stRunBlocked.dev.Settled ∧
      (stRunBlocked.dev.square 1).run = some (JobKey.mk 3 7 0 0) ∧
      stRunBlocked.dev.job (JobKey.mk 3 7 0 0) = some (jobOf stRunBlocked (JobKey.mk 3 7 0 0)) ∧ (stRunBlocked.dev.square 1).blocked = true) ∧
    (stAwait.Ready ∧ 1 < 32 ∧ mwf (fun _ => Square.init) stAwait.dev.icx.squares = true ∧ stAwait.dev.Settled ∧
      (stAwait.dev.square 1).run = some (JobKey.mk 3 7 0 1) ∧
      stAwait.dev.job (JobKey.mk 3 7 0 1) = some (jobOf stAwait (JobKey.mk 3 7 0 1)) ∧
      (¬∀ (i : Nat), i < (jobOf stAwait (JobKey.mk 3 7 0 1)).count → stAwait.dev.itemAwaits (jobOf stAwait (JobKey.mk 3 7 0 1)) ((jobOf
        stAwait (JobKey.mk 3 7 0 1)).key.first + i) = false) ∧ stAwait.dev.jobBad (jobOf stAwait (JobKey.mk 3 7 0 1)) = false) ∧
    (stRun.Ready ∧ 1 < 32 ∧ mwf (fun _ => Square.init) stRun.dev.icx.squares = true ∧ stRun.dev.Settled ∧
      (stRun.dev.square 1).run = some ka ∧ stRun.dev.job ka = some (jobOf stRun ka) ∧ (stRun.dev.square 1).blocked = false ∧
      (stRun.dev.square 1).kerb = none ∧ stRun.dev.jobBad (jobOf stRun ka) = false ∧
      (∀ (i : Nat), i < (jobOf stRun ka).count → stRun.dev.itemAwaits (jobOf stRun ka) ((jobOf stRun ka).key.first + i) = false) ∧
      (jobOf stRun ka).grant = none ∧ (jobOf stRun ka).st = JState.running) ∧
    (stGranted.Ready ∧ 1 < 32 ∧ mwf (fun _ => Square.init) stGranted.dev.icx.squares = true ∧ stGranted.dev.Settled ∧
      (stGranted.dev.square 1).run = some ka ∧ stGranted.dev.job ka = some (jobOf stGranted ka) ∧
      (stGranted.dev.square 1).blocked = false ∧ (stGranted.dev.square 1).kerb = none ∧ stGranted.dev.jobBad (jobOf stGranted ka) = false ∧
      (∀ (i : Nat), i < (jobOf stGranted ka).count → stGranted.dev.itemAwaits (jobOf stGranted ka) ((jobOf stGranted ka).key.first + i) =
        false) ∧ (jobOf stGranted ka).grant.isSome = true) ∧
    (stRun.Ready ∧ 1 < 32 ∧ mwf (fun _ => Square.init) stRun.dev.icx.squares = true ∧ stRun.dev.Settled ∧
      (stRun.dev.square 1).run = some ka ∧ stRun.dev.job ka = some (jobOf stRun ka) ∧ (stRun.dev.square 1).blocked = false ∧
      (stRun.dev.square 1).kerb = none ∧ (jobOf stRun ka).st = JState.running ∧ (jobOf stRun ka).grant = none ∧ stRun.dev.icx.held = []) ∧
    (stRunTwice.Ready ∧ 1 < 32 ∧ mwf (fun _ => Square.init) stRunTwice.dev.icx.squares = true ∧ stRunTwice.dev.Settled ∧
      (stRunTwice.dev.square 1).run = some ka ∧ stRunTwice.dev.job ka = some (jobOf stRunTwice ka) ∧ 2 < 32 ∧ 2 ≠ 1 ∧
      (stRunTwice.dev.square 2).run = some ka ∧ (stRunTwice.dev.square 1).blocked = false ∧ (stRunTwice.dev.square 2).blocked = false ∧
      (stRunTwice.dev.square 1).kerb = none ∧ (stRunTwice.dev.square 2).kerb = none ∧ stRunTwice.dev.jobBad (jobOf stRunTwice ka) = false ∧
      (∀ (i : Nat), i < (jobOf stRunTwice ka).count → stRunTwice.dev.itemAwaits (jobOf stRunTwice ka) ((jobOf stRunTwice ka).key.first + i)
        = false) ∧ (jobOf stRunTwice ka).grant = none ∧ (jobOf stRunTwice ka).st = JState.running) := by
  and_intros <;> first
   
    | exact ready_of (by decide +kernel)
    | exact trusts_of (by decide +kernel)
    | exact open_of (by decide +kernel)
    | exact settled_of (by decide +kernel)
    | decide +kernel

theorem witness_WriteBackCancelMigrate :
    (stWriting2.Ready ∧ 3 < 256 ∧ stWriting2.dev.Settled ∧ stWriting2.dev.icx.held = [] ∧
      stWriting2.dev.job (JobKey.mk 3 7 1 0) = some (jobOf stWriting2 (JobKey.mk 3 7 1 0)) ∧
      (jobOf stWriting2 (JobKey.mk 3 7 1 0)).st = JState.writing ∧ (jobOf stWriting2 (JobKey.mk 3 7 1 0)).written = false ∧
      (∀ (x : Job), x ∈ stWriting2.dev.icx.jobs → ∀ (y : Job), y ∈ stWriting2.dev.icx.jobs → x.key = y.key → x = y) ∧
      (∃ x, x ∈ stWriting2.dev.icx.jobs ∧ x.key.flow = 3 ∧ x.st.over = false ∧ x.written = false ∧ (x.key.tick < 7 ∨ x.key.tick = 7 ∧
        x.key.sub < 1) ∧ stWriting2.dev.firstSeq 3 = some (x.key.tick, x.key.sub))) ∧
    (stGranted.Ready ∧ 3 < 256 ∧ stGranted.dev.Settled ∧ stGranted.dev.icx.held = [] ∧
      stGranted.dev.job (JobKey.mk 3 7 0 0) = some (jobOf stGranted (JobKey.mk 3 7 0 0)) ∧
      (jobOf stGranted (JobKey.mk 3 7 0 0)).st = JState.writing ∧ (jobOf stGranted (JobKey.mk 3 7 0 0)).written = false ∧
      (∀ (x : Job), x ∈ stGranted.dev.icx.jobs → ∀ (y : Job), y ∈ stGranted.dev.icx.jobs → x.key = y.key → x = y) ∧
      stGranted.dev.firstSeq 3 = some (7, 0) ∧
      (∀ (x : Job), x ∈ stGranted.dev.icx.jobs → x.key.flow = 3 → x.key.tick = 7 → x.key.sub = 0 → x.key.first ≠ 0 → x.written = true ∨
        x.st.over = true)) ∧
    ((mk up).Ready ∧ (mk up).Trusts (Master.steward true) Off.ICX_CANCEL ∧ (mk up).Trusts (Master.steward true) Off.ICX_MIGRATE ∧
      3 < 4096 ∧ (mk up).dev.Settled ∧ (mk up).dev.instanceOf 3 = []) ∧
    (stKerbBusy.Ready ∧ stKerbBusy.Trusts Master.spi Off.ICX_CANCEL ∧ stKerbBusy.Trusts Master.spi Off.ICX_MIGRATE ∧ 7 < 4096 ∧
      stKerbBusy.dev.Settled ∧
      (∃ j, j ∈ stKerbBusy.dev.instanceOf 7 ∧ (j.st = JState.running ∨ j.st = JState.writing ∨ j.st = JState.released ∨ j.st =
        JState.retired ∨ j.st = JState.faulted))) ∧
    (stKerbIdle.Ready ∧ stKerbIdle.Trusts Master.spi Off.ICX_CANCEL ∧ stKerbIdle.Trusts Master.spi Off.ICX_MIGRATE ∧ 7 < 4096 ∧
      stKerbIdle.dev.instanceOf 7 ≠ [] ∧
      (∀ (j : Job), j ∈ stKerbIdle.dev.instanceOf 7 → j.st = JState.waiting ∨ j.st = JState.held ∨ j.st = JState.ready ∨ j.st = JState.kerb)) ∧
    ((mk up).Ready ∧ (mk up).Trusts (Master.steward true) Off.ICX_CANCEL ∧ (mk up).Trusts (Master.steward true) Off.ICX_MIGRATE ∧
      3 < 4096 ∧ 0 < 4) := by
  and_intros <;> first
   
    | exact ready_of (by decide +kernel)
    | exact trusts_of (by decide +kernel)
    | exact open_of (by decide +kernel)
    | exact settled_of (by decide +kernel)
    | decide +kernel

theorem witness_FencesAndSpares :
    ((mk up).Ready ∧ 0 < 32 ∧ mwf (fun _ => Square.init) (mk up).dev.icx.squares = true ∧ mwf (fun _ => []) (mk up).dev.icx.ready = true ∧
      (mk up).dev.Settled ∧ ((mk up).dev.square 0).fenced = false ∧ (mk up).Trusts Master.loader Off.ICX_FENCE) ∧
    (stWatch.Ready ∧ 1 < 32 ∧ mwf (fun _ => Square.init) stWatch.dev.icx.squares = true ∧ mwf (fun _ => []) stWatch.dev.icx.ready = true ∧
      stWatch.dev.Settled ∧ (stWatch.dev.square 1).fenced = false ∧ 0 < stWatch.dev.fld (Off.SQ_WDOG 1) 3 0 ∧
      stWatch.dev.fld (Off.SQ_WDOG 1) 3 0 ≤ (stWatch.dev.square 1).crossed ∧ (stWatch.dev.square 1).run.isSome = true) ∧
    (stKerbIdle.Ready ∧ 0 < 32 ∧ mwf (fun _ => Square.init) stKerbIdle.dev.icx.squares = true ∧
      mwf (fun _ => []) stKerbIdle.dev.icx.ready = true ∧ stKerbIdle.dev.Settled ∧ (stKerbIdle.dev.square 0).fenced = false ∧
      stKerbIdle.Trusts Master.spi Off.ICX_FENCE ∧ 2 < 4) ∧
    (stSpare.Ready ∧ 1 < 32 ∧ mwf (fun _ => Square.init) stSpare.dev.icx.squares = true ∧ stSpare.dev.icx.jobs = [] ∧
      (stSpare.dev.square 1).serving = true ∧ (stSpare.dev.square 1).spare = false ∧ stSpare.dev.pickSpare 1 = some 3 ∧ 3 < 32 ∧
      (stSpare.dev.square 3).idleSpare = true ∧ 3 / 8 = 1 / 8 ∧ 3 / 8 = 1 / 8) ∧
    (stSpare.Ready ∧ 1 < 32 ∧ mwf (fun _ => Square.init) stSpare.dev.icx.squares = true ∧ stSpare.dev.icx.jobs = [] ∧
      (stSpare.dev.square 1).serving = true ∧ (stSpare.dev.square 1).spare = false ∧ stSpare.dev.pickSpare 1 = some 3 ∧ 3 < 32 ∧
      (stSpare.dev.square 3).idleSpare = true ∧ 3 / 8 = 1 / 8) ∧
    ((mk up).Ready ∧ (mk up).Trusts Master.ledger Off.ICX_FENCE ∧ mwf (fun _ => Square.init) (mk up).dev.icx.squares = true ∧
      (mk up).dev.Settled ∧ 1 < 32) ∧
    ((mk up).Ready ∧ (mk up).Trusts Master.ledger Off.ICX_FENCE ∧ mwf (fun _ => Square.init) (mk up).dev.icx.squares = true ∧
      (mk up).dev.Settled ∧ 0 < 4) ∧
    (stFenced.Ready ∧ stFenced.Trusts Master.ledger Off.ICX_FENCE ∧ mwf (fun _ => Square.init) stFenced.dev.icx.squares = true ∧
      stFenced.dev.Settled ∧ 1 < 32 ∧ (stFenced.dev.square 1).fenced = true ∧ 2 ≤ (stFenced.dev.square 1).fenceAge) := by
  and_intros <;> first
   
    | exact ready_of (by decide +kernel)
    | exact trusts_of (by decide +kernel)
    | exact open_of (by decide +kernel)
    | exact settled_of (by decide +kernel)
    | decide +kernel

theorem witness_SwapsAndBiquads :
    ((mk up).Ready ∧ (mk up).Trusts (Master.steward true) (Off.RCF_F_CTL 3) ∧ 3 < 512 ∧ (mk up).dev.bit (Off.RCF_F_CTL 3) 30 = false ∧
      (mk up).dev.swapAccepted 3 = false) ∧
    (stSwap.Ready ∧ stSwap.Trusts (Master.dma true) (Off.RCF_F_CTL 1) ∧ 1 < 512 ∧ stSwap.dev.bit (Off.RCF_F_CTL 1) 30 = true) ∧
    (stSwapAcc.Ready ∧ stSwapAcc.Trusts (Master.dma true) (Off.RCF_F_CTL 1) ∧ 1 < 512 ∧ stSwapAcc.dev.bit (Off.RCF_F_CTL 1) 30 = false ∧
      stSwapAcc.dev.swapAccepted 1 = true) ∧
    (stSwap.Ready ∧ stSwap.Trusts (Master.dma true) (Off.RCF_F_CTL 1) ∧ 1 < 512 ∧ (stSwap.dev.bankFade 1).snd ≠ 0 ∧
      (stSwap.dev.bankFade 1).fst + (stSwap.dev.bankFade 1).snd + 1 ≤ stSwap.dev.clk.tick ∧
      mwf (fun _ => (0, 0)) stSwap.dev.conv.fade = true) ∧
    ((mk up).Ready ∧ (mk up).Trusts Master.loader Off.OUT_BQ_SEL) ∧
    ((mk up).Ready ∧ (mk up).Trusts Master.loader Off.OUT_BQ_CMT) := by
  and_intros <;> first
   
    | exact ready_of (by decide +kernel)
    | exact trusts_of (by decide +kernel)
    | exact open_of (by decide +kernel)
    | decide +kernel

theorem witness_MovesTimeoutsAsrc :
    ((mk up).Ready ∧ (mk up).Trusts (Master.steward true) Off.RBT_MOVE_CMD ∧ (mk up).dev.fld Off.RBT_MOVE_CMD 30 28 ≠ 1 ∧
      (mk up).dev.fld Off.RBT_MOVE_CMD 30 28 ≠ 2) ∧
    (stMove.Ready ∧ stMove.Trusts (Master.steward true) Off.RBT_MOVE_CMD ∧
      (stMove.dev.fld Off.RBT_MOVE_CMD 30 28 = 1 ∨ stMove.dev.fld Off.RBT_MOVE_CMD 30 28 = 2)) ∧
    (stXp.Ready ∧ 2 < 16384 ∧ mwf (fun _ => Xp.init) stXp.dev.rbt.xp = true ∧ (stXp.dev.xp 2).pending = true ∧
      (stXp.dev.xp 2).force = false ∧ stXp.dev.zcLimit ≤ (stXp.dev.xp 2).cand ∧ stXp.dev.rbt.move = none) ∧
    (stAsrc.Ready ∧ 1 < 64 ∧ mwf (fun _ => Asrc.init) stAsrc.dev.rbt.asrc = true ∧ stAsrc.dev.asrcEn 1 = true ∧
      stAsrc.dev.asrcInputOk 1 = true ∧ stAsrc.dev.asrcValid 1 = true ∧ (stAsrc.dev.asrcCh 1).locked = false ∧ 2 ^ 22 ≤ 33554432 ∧
      33554432 ≤ 2 ^ 26 ∧ 32000 * 2 ^ 24 ≤ 33554432 * stAsrc.dev.fs ∧ 33554432 * stAsrc.dev.fs ≤ 192000 * 2 ^ 24 ∧
      mwf (fun _ => 0) stAsrc.dev.rbt.phase = true) ∧
    (stAsrcOn.Ready ∧ 2 < 16 ∧ 1 < 4 ∧ (1 = 1 → stAsrcOn.dev.asrcFails 1 = true) ∧ mwf (fun _ => Asrc.init) stAsrcOn.dev.rbt.asrc = true ∧
      1 < 64 ∧ (stAsrcOn.dev.asrcCh 1).locked = true ∧ stAsrcOn.dev.asrcGroup 1 = 2) := by
  and_intros <;> first
   
    | exact ready_of (by decide +kernel)
    | exact trusts_of (by decide +kernel)
    | exact open_of (by decide +kernel)
    | decide +kernel

theorem witness_PortConfigurationAndMasks :
    ((mk up).Ready ∧ (mk up).Trusts (Master.steward true) (Off.PRT_CFG 1) ∧ 1 < 16 ∧ (mk up).dev.sys.phase = 2 ∧
      cfgFormat (1113053179 &&& 4294967280) ≤ 1 ∧ cfgWlen (1113053179 &&& 4294967280) ≤ cfgSlotW (1113053179 &&& 4294967280) ∧
      cfgBpf (1113053179 &&& 4294967280) * (mk up).dev.fs ≤ 49152000) ∧
    ((mk up).Ready ∧ (mk up).Trusts (Master.steward true) (Off.PRT_CFG 3) ∧ 3 < 16 ∧ (mk up).dev.sys.phase = 2 ∧
      cfgFormat (3212836864 &&& 4294967280) = 3 ∧ cfgWlen (3212836864 &&& 4294967280) ≤ cfgSlotW (3212836864 &&& 4294967280) ∧
      cfgBpf (keepBits (3212836864 &&& 4294967280) ((mk up).dev.rd (Off.PRT_CFG 3)) 27 26) * (mk up).dev.fs ≤ 49152000) ∧
    ((mk up).Ready ∧ (mk up).Trusts (Master.steward true) (Off.PRT_CFG 0) ∧ 0 < 16 ∧ (mk up).dev.sys.phase = 2 ∧
      cfgFormat (2560132988 &&& 4294967280) = 2 ∧ cfgWlen (2560132988 &&& 4294967280) ≤ cfgSlotW (2560132988 &&& 4294967280) ∧
      cfgBpf (keepBits (2560132988 &&& 4294967280) ((mk up).dev.rd (Off.PRT_CFG 0)) 27 26) * (mk up).dev.fs ≤ 49152000) ∧
    (stArmed.Ready ∧ stArmed.Trusts Master.loader (Off.PRT_CFG 1) ∧ 1 < 16 ∧ stArmed.dev.sys.phase = 2 ∧
      cfgFormat (2281701376 &&& 4294967280) = 2 ∧ cfgWlen (2281701376 &&& 4294967280) ≤ cfgSlotW (2281701376 &&& 4294967280) ∧
      cfgBpf (keepBits (2281701376 &&& 4294967280) (stArmed.dev.rd (Off.PRT_CFG 1)) 27 26) * stArmed.dev.fs ≤ 49152000) ∧
    (stArmed.Ready ∧ stArmed.Trusts Master.loader (Off.PRT_CFG 1) ∧ 1 < 16 ∧ stArmed.dev.sys.phase = 2 ∧
      cfgFormat (2147495936 &&& 4294967280) ≤ 1 ∧ cfgSlotW (2147495936 &&& 4294967280) < cfgWlen (2147495936 &&& 4294967280) ∧
      cfgBpf (keepBits (2147495936 &&& 4294967280) (stArmed.dev.rd (Off.PRT_CFG 1)) 15 12) * stArmed.dev.fs ≤ 49152000) ∧
    ((rate96 stArmed).Ready ∧ (rate96 stArmed).Trusts Master.loader (Off.PRT_CFG 1) ∧ 1 < 16 ∧ (rate96 stArmed).dev.sys.phase = 2 ∧
      cfgFormat (3223318528 &&& 4294967280) ≤ 1 ∧ cfgWlen (3223318528 &&& 4294967280) ≤ cfgSlotW (3223318528 &&& 4294967280) ∧
      (¬cfgBpf (3223318528 &&& 4294967280) * (rate96 stArmed).dev.fs ≤ 49152000)) ∧
    ((mk up).Ready ∧ 2 < 16 ∧ mwf (fun _ => Port.init) (mk up).dev.net.ports = true ∧
      (mk up).Trusts (Master.steward true) (Off.PRT_SMASK_COMMIT 2) ∧ (mk up).dev.bit (Off.PRT_SMASK_COMMIT 2) 30 = false) ∧
    (stMask.Ready ∧ 1 < 16 ∧ mwf (fun _ => Port.init) stMask.dev.net.ports = true ∧
      stMask.Trusts (Master.steward true) (Off.PRT_SMASK_COMMIT 1) ∧ stMask.dev.bit (Off.PRT_SMASK_COMMIT 1) 30 = true) ∧
    (stMask.Ready ∧ 1 < 16 ∧ mwf (fun _ => Port.init) stMask.dev.net.ports = true ∧ (stMask.dev.port 1).commit = some 3 ∧
      ((stMask.dev.port 1).commitRun = true ∧ stMask.dev.portSt 1 = 3 ∨ stMask.dev.portSt 1 = 1 ∧ (stMask.dev.port 1).fresh = true)) ∧
    (stMask.Ready ∧ 1 < 16 ∧ mwf (fun _ => Port.init) stMask.dev.net.ports = true ∧ (stMask.dev.port 1).ltFail = false ∧
      256 ≤ (stMask.dev.port 1).ltRun ∧ stMask.dev.bit (Off.PRT_STAT 1) 26 = false) ∧
    (stLinkFail.Ready ∧ 1 < 16 ∧ mwf (fun _ => Port.init) stLinkFail.dev.net.ports = true ∧ (stLinkFail.dev.port 1).ltFail = true) := by
  and_intros <;> first
   
    | exact ready_of (by decide +kernel)
    | exact trusts_of (by decide +kernel)
    | exact open_of (by decide +kernel)
    | decide +kernel

theorem witness_SerialFrames :
    ((mk up).Ready ∧ 0 < 16 ∧ mwf (fun _ => Port.init) (mk up).dev.net.ports = true ∧ (mk up).dev.portSt 0 = 0) ∧
    (stArmed.Ready ∧ 1 < 16 ∧ mwf (fun _ => Port.init) stArmed.dev.net.ports = true ∧ stArmed.dev.portSt 1 = 1 ∧
      cfgForeign (stArmed.dev.re (Off.PRT_CFG 1)) = false ∧ frameStarts (serial 0) (stArmed.dev.re (Off.PRT_CFG 1)) ≠ [] ∧
      frameBclkOk (serial 0) (stArmed.dev.re (Off.PRT_CFG 1)) = true ∧ framePeriodOk (serial 0) stArmed.dev.fs = true ∧
      (stArmed.dev.port 1).astray = false ∧ (stArmed.dev.port 1).atDue = false ∧
      stArmed.dev.frameErr (serial 0).errNs ≤ ↑(10 * max 1 (stArmed.dev.fld Off.PRT_FCLK_CTL 15 8)) ∧
      -↑(10 * max 1 (stArmed.dev.fld Off.PRT_FCLK_CTL 15 8)) ≤ stArmed.dev.frameErr (serial 0).errNs ∧ (stArmed.dev.port 1).next = none ∧
      (stArmed.dev.port 1).top ≤ stArmed.dev.nearestIndex (serial 0).errNs) ∧
    (stArmed2.Ready ∧ 1 < 16 ∧ mwf (fun _ => Port.init) stArmed2.dev.net.ports = true ∧ stArmed2.dev.portSt 1 = 1 ∧
      cfgForeign (stArmed2.dev.re (Off.PRT_CFG 1)) = false ∧ frameStarts (serial 2000) (stArmed2.dev.re (Off.PRT_CFG 1)) ≠ [] ∧
      frameBclkOk (serial 2000) (stArmed2.dev.re (Off.PRT_CFG 1)) = true ∧ framePeriodOk (serial 2000) stArmed2.dev.fs = true ∧
      (stArmed2.dev.port 1).astray = false ∧ (stArmed2.dev.port 1).atDue = false ∧
      ↑(10 * max 1 (stArmed2.dev.fld Off.PRT_FCLK_CTL 15 8)) < stArmed2.dev.frameErr (serial 2000).errNs ∧
      2 * stArmed2.dev.frameErr (serial 2000).errNs * ↑stArmed2.dev.fs ≤ 1000000000 ∧ (stArmed2.dev.port 1).next = some 112 ∧
      (stArmed2.dev.port 1).top ≤ 112) ∧
    (stArmedSlip.Ready ∧ 1 < 16 ∧ mwf (fun _ => Port.init) stArmedSlip.dev.net.ports = true ∧ stArmedSlip.dev.portSt 1 = 1 ∧
      cfgForeign (stArmedSlip.dev.re (Off.PRT_CFG 1)) = false ∧ frameStarts (serial 20833) (stArmedSlip.dev.re (Off.PRT_CFG 1)) ≠ [] ∧
      frameBclkOk (serial 20833) (stArmedSlip.dev.re (Off.PRT_CFG 1)) = true ∧ framePeriodOk (serial 20833) stArmedSlip.dev.fs = true ∧
      (stArmedSlip.dev.port 1).astray = false ∧ (stArmedSlip.dev.port 1).atDue = false ∧
      1000000000 < 2 * stArmedSlip.dev.frameErr (serial 20833).errNs * ↑stArmedSlip.dev.fs ∧
      2 * stArmedSlip.dev.frameErr (serial 20833).errNs * ↑stArmedSlip.dev.fs < 3000000000 ∧
      -↑(10 * max 1 (stArmedSlip.dev.fld Off.PRT_FCLK_CTL 15 8)) ≤ stArmedSlip.dev.frameRest (serial 20833).errNs ∧
      stArmedSlip.dev.frameRest (serial 20833).errNs ≤ ↑(10 * max 1 (stArmedSlip.dev.fld Off.PRT_FCLK_CTL 15 8)) ∧
      stArmedSlip.dev.coherent (cfgGroup (stArmedSlip.dev.re (Off.PRT_CFG 1))) = false ∧ (stArmedSlip.dev.port 1).next = some 112 ∧
      (stArmedSlip.dev.port 1).top ≤ 112) ∧
    (stArmedSlip.Ready ∧ 1 < 16 ∧ mwf (fun _ => Port.init) stArmedSlip.dev.net.ports = true ∧ stArmedSlip.dev.portSt 1 = 1 ∧
      cfgForeign (stArmedSlip.dev.re (Off.PRT_CFG 1)) = false ∧ frameStarts (serial 21000) (stArmedSlip.dev.re (Off.PRT_CFG 1)) ≠ [] ∧
      frameBclkOk (serial 21000) (stArmedSlip.dev.re (Off.PRT_CFG 1)) = true ∧ framePeriodOk (serial 21000) stArmedSlip.dev.fs = true ∧
      (stArmedSlip.dev.port 1).astray = false ∧ (stArmedSlip.dev.port 1).atDue = false ∧
      1000000000 < 2 * stArmedSlip.dev.frameErr (serial 21000).errNs * ↑stArmedSlip.dev.fs ∧
      2 * stArmedSlip.dev.frameErr (serial 21000).errNs * ↑stArmedSlip.dev.fs < 3000000000 ∧
      -↑(10 * max 1 (stArmedSlip.dev.fld Off.PRT_FCLK_CTL 15 8)) ≤ stArmedSlip.dev.frameRest (serial 21000).errNs ∧
      stArmedSlip.dev.frameRest (serial 21000).errNs ≤ ↑(10 * max 1 (stArmedSlip.dev.fld Off.PRT_FCLK_CTL 15 8)) ∧
      stArmedSlip.dev.coherent (cfgGroup (stArmedSlip.dev.re (Off.PRT_CFG 1))) = false ∧ (stArmedSlip.dev.port 1).next = some 112 ∧
      (stArmedSlip.dev.port 1).top ≤ 112) ∧
    (stArmedSlip.Ready ∧ 1 < 16 ∧ mwf (fun _ => Port.init) stArmedSlip.dev.net.ports = true ∧ stArmedSlip.dev.portSt 1 = 1 ∧
      cfgForeign (stArmedSlip.dev.re (Off.PRT_CFG 1)) = false ∧ frameStarts (serial (-20833)) (stArmedSlip.dev.re (Off.PRT_CFG 1)) ≠ [] ∧
      frameBclkOk (serial (-20833)) (stArmedSlip.dev.re (Off.PRT_CFG 1)) = true ∧
      framePeriodOk (serial (-20833)) stArmedSlip.dev.fs = true ∧ (stArmedSlip.dev.port 1).astray = false ∧
      (stArmedSlip.dev.port 1).atDue = false ∧ 2 * stArmedSlip.dev.frameErr (serial (-20833)).errNs * ↑stArmedSlip.dev.fs < -1000000000 ∧
      -3000000000 < 2 * stArmedSlip.dev.frameErr (serial (-20833)).errNs * ↑stArmedSlip.dev.fs ∧
      -↑(10 * max 1 (stArmedSlip.dev.fld Off.PRT_FCLK_CTL 15 8)) ≤ stArmedSlip.dev.frameRest (serial (-20833)).errNs ∧
      stArmedSlip.dev.frameRest (serial (-20833)).errNs ≤ ↑(10 * max 1 (stArmedSlip.dev.fld Off.PRT_FCLK_CTL 15 8)) ∧
      stArmedSlip.dev.coherent (cfgGroup (stArmedSlip.dev.re (Off.PRT_CFG 1))) = false ∧ (stArmedSlip.dev.port 1).next = some (111 + 1)) := by
  and_intros <;> first
   
    | exact ready_of (by decide +kernel)
    | exact trusts_of (by decide +kernel)
    | exact open_of (by decide +kernel)
    | decide +kernel

theorem witness_PortStatesAndFclk :
    (stArmed.Ready ∧ 1 < 16 ∧ mwf (fun _ => Port.init) stArmed.dev.net.ports = true ∧ stArmed.dev.portSt 1 = 1 ∧
      cfgEn (stArmed.dev.re (Off.PRT_CFG 1)) = true ∧ 64 ≤ (stArmed.dev.port 1).good ∧ cfgLink (stArmed.dev.re (Off.PRT_CFG 1)) = false ∧
      BitVec.getLsbD (stArmed.dev.port 1).mask 0 = true) ∧
    ((mk up).Ready ∧ 0 < 16 ∧ mwf (fun _ => Port.init) (mk up).dev.net.ports = true) ∧
    (stRunPort.Ready ∧ 1 < 16 ∧ mwf (fun _ => Port.init) stRunPort.dev.net.ports = true ∧ 0 < 4 ∧ 1 ≤ stRunPort.dev.portSt 1 ∧
      (0 = 1 ∨ 2 ≤ (stRunPort.dev.port 1).bad) ∧ cfgForeign (stRunPort.dev.re (Off.PRT_CFG 1)) = true) ∧
    (stFclkOff.Ready ∧ [none, none, some (2000 : Int), none, none, none, none, none] ≠ [] ∧
      (∀ (e : Option Int), e ∈ [none, none, some 2000, none, none, none, none, none] → ¬∃ o, e = some o ∧ o.natAbs ≤ 1000) ∧
      (8 : Nat) ≤ stFclkOff.dev.net.fclkMiss + [none, none, some (2000 : Int), none, none, none, none, none].length ∧
      stFclkOff.dev.bit Off.PRT_FCLK_CTL 0 = false ∧ stFclkOff.dev.bit Off.PRT_FCLK_STAT 30 = false) ∧
    (stFclk.Ready ∧ [none, none, some (2000 : Int), none, none, none, none, none] ≠ [] ∧
      (∀ (e : Option Int), e ∈ [none, none, some 2000, none, none, none, none, none] → ¬∃ o, e = some o ∧ o.natAbs ≤ 1000) ∧
      (8 : Nat) ≤ stFclk.dev.net.fclkMiss + [none, none, some (2000 : Int), none, none, none, none, none].length ∧
      stFclk.dev.bit Off.PRT_FCLK_CTL 0 = true) ∧
    (stFclk.Ready ∧ List.replicate 64 (some (-3)) ≠ [] ∧
      (∀ (e : Option Int), e ∈ List.replicate 64 (some (-3)) → ∃ o, e = some o ∧ o.natAbs ≤ 1000) ∧
      64 ≤ stFclk.dev.net.fclkGood + (List.replicate 64 (some (-3))).length) := by
  and_intros <;> first
   
    | exact ready_of (by decide +kernel)
    | exact trusts_of (by decide +kernel)
    | exact open_of (by decide +kernel)
    | decide +kernel

theorem witness_Aes3 :
    (stAes.Ready ∧ 1 < 8 ∧ mwf (fun _ => AesRx.init) stAes.dev.net.aesRx = true ∧ stAes.dev.bit (Off.AES_RX_CFG 1) 31 = true) ∧
    (stAesReady.Ready ∧ 1 < 8 ∧ mwf (fun _ => AesRx.init) stAesReady.dev.net.aesRx = true ∧
      stAesReady.dev.bit (Off.AES_RX_CFG 1) 31 = true ∧ stAesReady.dev.bit (Off.AES_RX_STAT 1) 31 = false ∧
      (stAesReady.dev.aesRx 1).ready = true ∧ 32000 ≤ 192000 ∧ 192000 ≤ 192000) ∧
    (stAesOn.Ready ∧ 1 < 8 ∧ mwf (fun _ => AesRx.init) stAesOn.dev.net.aesRx = true ∧ stAesOn.dev.bit (Off.AES_RX_STAT 1) 31 = true ∧
      8 ≤ (stAesOn.dev.aesRx 1).bad + 12) ∧
    (stAesReady.Ready ∧ 1 < 8 ∧ mwf (fun _ => AesRx.init) stAesReady.dev.net.aesRx = true ∧
      mwf (fun _ => AesTx.init) stAesReady.dev.net.aesTx = true ∧ (stAesReady.dev.aesRx 1).doneA = some (bits192 true, bits192 false) ∧
      (bitBytes 24 (bits192 true)).getD 0 0 % 2 = 1 ∧
      crcc (List.take 23 (bitBytes 24 (bits192 true))) ≠ (bitBytes 24 (bits192 true)).getD 23 0) ∧
    (stAesOn.Ready ∧ 1 < 8 ∧ mwf (fun _ => AesRx.init) stAesOn.dev.net.aesRx = true ∧
      mwf (fun _ => AesTx.init) stAesOn.dev.net.aesTx = true ∧ (stAesOn.dev.aesRx 1).doneA = some (bits192 false, bits192 false) ∧
      (bitBytes 24 (bits192 false)).getD 0 0 % 2 = 0) ∧
    (stArmed.Ready ∧ 1 < 8 ∧ mwf (fun _ => AesRx.init) stArmed.dev.net.aesRx = true ∧
      mwf (fun _ => AesTx.init) stArmed.dev.net.aesTx = true ∧ stArmed.Trusts Master.spi (Off.AES_TX_CFG 1)) ∧
    (stAes.Ready ∧ 1 < 8 ∧ mwf (fun _ => AesRx.init) stAes.dev.net.aesRx = true ∧ mwf (fun _ => AesTx.init) stAes.dev.net.aesTx = true ∧
      stAes.dev.nextIsZ = false) ∧
    (stAesZ.Ready ∧ 1 < 8 ∧ mwf (fun _ => AesRx.init) stAesZ.dev.net.aesRx = true ∧ mwf (fun _ => AesTx.init) stAesZ.dev.net.aesTx = true ∧
      (stAesZ.dev.aesTx 1).staged = true ∧ stAesZ.dev.nextIsZ = true ∧ stAesZ.dev.bit (Off.AES_TX_CFG 1) 29 = false) := by
  and_intros <;> first
   
    | exact ready_of (by decide +kernel)
    | exact trusts_of (by decide +kernel)
    | exact open_of (by decide +kernel)
    | decide +kernel

theorem witness_StreamConfiguration :
    (stRxPath.Ready ∧ 3 < 128 ∧ stRxPath.Trusts (Master.steward true) (Off.NET_RX_CTL 3) ∧ BitVec.getLsbD (3212836864 : Word) 31 = true ∧
      stRxPath.dev.streamRefusal false (3212836864 : Word) = some 2) ∧
    (stRx.Ready ∧ 1 < 128 ∧ stRx.Trusts Master.loader (Off.NET_TX_CTL 1) ∧ BitVec.getLsbD ((2619340800 : Word) &&& 3693084671) 31 = true ∧
      8960 < stRx.dev.ctlPayload true ((2619340800 : Word) &&& 3693084671)) ∧
    ((mk up).Ready ∧ 1 < 128 ∧ (mk up).Trusts (Master.steward true) (Off.NET_TX_CTL 1) ∧
      (BitVec.getLsbD ((1183824466 : Word) &&& 3693084671) 31 = false ∨ (mk up).dev.streamRefusal true ((1183824466 : Word) &&& 3693084671)
        = none)) ∧
    ((mk up).Ready ∧ 11 < 128 ∧ (mk up).Trusts Master.icx (Off.NET_RX_CTL 11) ∧ BitVec.getLsbD (2147483651 : Word) 31 = true ∧
      (mk up).dev.streamRefusal false (2147483651 : Word) = none ∧ (mk up).dev.rxEn 11 = false ∧
      mwf (fun _ => RxStream.init) (mk up).dev.net.rx = true) ∧
    (stRx.Ready ∧ 1 < 128 ∧ stRx.Trusts Master.loader (Off.NET_RX_CTL 1) ∧ BitVec.getLsbD (2147485696 : Word) 31 = true ∧
      stRx.dev.streamRefusal false (2147485696 : Word) = none ∧ stRx.dev.rxEn 1 = true) ∧
    ((mk up).Ready ∧ 1 < 128 ∧ (mk up).Trusts (Master.steward true) (Off.NET_RX_CTL 1) ∧ BitVec.getLsbD (2143289344 : Word) 31 = false ∧
      mwf (fun _ => RxStream.init) (mk up).dev.net.rx = true) := by
  and_intros <;> first
   
    | exact ready_of (by decide +kernel)
    | exact trusts_of (by decide +kernel)
    | exact open_of (by decide +kernel)
    | decide +kernel

theorem witness_StreamReception :
    ((mk up).Ready ∧ pktIn.port < 4 ∧ 0 < 128 ∧ mwf (fun _ => RxStream.init) (mk up).dev.net.rx = true ∧
      ((mk up).dev.linkUp pktIn.port && (mk up).dev.tagTaken pktIn.port pktIn.vlan && pktIn.whole) = false) ∧
    ((mk up).Ready ∧ 1 < 4 ∧ 1 < 128 ∧ mwf (fun _ => RxStream.init) (mk up).dev.net.rx = true ∧ pktIn.port < 1) ∧
    (stRx.Ready ∧ 0 < 4 ∧ 1 < 128 ∧ mwf (fun _ => RxStream.init) stRx.dev.net.rx = true ∧
      (stRx.dev.linkUp 0 && stRx.dev.tagTaken 0 none && true) = true ∧
      (∀ (j : Nat), j < 128 → stRx.dev.packetFor j (RtpPacket.mk 0 none true pktIn.srcIp pktIn.dstIp pktIn.udpPort pktIn.version pktIn.pt 0
        []) = decide (j = 1)) ∧
      (0 : Nat) ≠ ctlChannels (stRx.dev.rd (Off.NET_RX_CTL 1)) * stRx.dev.ctlSamples false (stRx.dev.rd (Off.NET_RX_CTL 1)) * ctlBytes
        (stRx.dev.rd (Off.NET_RX_CTL 1))) ∧
    (stRx.Ready ∧ pktVar.port < 4 ∧ 1 < 128 ∧ mwf (fun _ => RxStream.init) stRx.dev.net.rx = true ∧
      (stRx.dev.linkUp pktVar.port && stRx.dev.tagTaken pktVar.port pktVar.vlan && pktVar.whole) = true ∧
      (∀ (j : Nat), j < 128 → stRx.dev.packetFor j pktVar = decide (j = 1)) ∧
      pktVar.payload.length = ctlChannels (stRx.dev.rd (Off.NET_RX_CTL 1)) * stRx.dev.ctlSamples false (stRx.dev.rd (Off.NET_RX_CTL 1)) *
        ctlBytes (stRx.dev.rd (Off.NET_RX_CTL 1)) ∧ BitVec.getLsbD (stRx.dev.rd (Off.NET_RX_CTL 1)) 30 = false ∧
      mwf (fun _ => []) stRx.dev.samp = true ∧ (∀ (g : Nat), mwf (fun _ => 0) (mget (fun _ => []) stRx.dev.samp g) = true) ∧
      mwf (fun _ => 0) (stRx.dev.rxStream 1).have_ = true ∧
      (∀ (k : Nat), k < stRx.dev.ctlSamples false (stRx.dev.rd (Off.NET_RX_CTL 1)) → mget (fun _ => 0) (stRx.dev.rxStream 1).have_
        (extendStamp (stRx.dev.nowIndex (stRx.dev.rxRate 1)) pktVar.timestamp + stRx.dev.rxLofs 1 + k) = 0 ∧ ↑(stRx.dev.clk.tick *
        (stRx.dev.rxRate 1 / 3000)) ≤ ↑(extendStamp (stRx.dev.nowIndex (stRx.dev.rxRate 1)) pktVar.timestamp + stRx.dev.rxLofs 1 + k) +
        stRx.dev.rxEps 1 ∧ ↑(extendStamp (stRx.dev.nowIndex (stRx.dev.rxRate 1)) pktVar.timestamp + stRx.dev.rxLofs 1 + k) + stRx.dev.rxEps
        1 < ↑(stRx.dev.nowIndex (stRx.dev.rxRate 1) + 512)) ∧ (stRx.dev.rxStream 1).count < 63 ∧ (stRx.dev.rxStream 1).redLost = false ∧
      (stRx.dev.rxStream 1).blueLost = false) := by
  and_intros <;> first
   
    | exact ready_of (by decide +kernel)
    | exact trusts_of (by decide +kernel)
    | exact open_of (by decide +kernel)
    | exact gate_of (by decide +kernel)
    | decide +kernel

theorem witness_StreamPathsAndSteward :
    (stRxPath.Ready ∧ 1 < 128 ∧ mwf (fun _ => RxStream.init) stRxPath.dev.net.rx = true ∧ stRxPath.dev.rxEn 1 = true ∧
      (∃ e, e ∈ stRxPath.dev.rxPorts 1 ∧ stRxPath.dev.portNet e = 0) ∧ (stRxPath.dev.rxStream 1).redLost = false ∧
      (stRxPath.dev.rxStream 1).red - 1 + 3000 ≤ stRxPath.dev.clk.tick) ∧
    ((mk up).Ready ∧ 0 < 128 ∧
      ((mk up).dev.txEn 0 = false ∨ (mk up).dev.txDue ((mk up).dev.ctlSamples true ((mk up).dev.rd (Off.NET_TX_CTL 0))) 65535 = false)) ∧
    (stArp.Ready ∧ 1 < 128 ∧ stArp.dev.txEn 1 = true ∧
      stArp.dev.txDue (stArp.dev.ctlSamples true (stArp.dev.rd (Off.NET_TX_CTL 1))) 3 = true ∧
      List.filter (fun e => stArp.dev.linkUp e) (stArp.dev.txPorts 1) = [0] ∧
      stArp.dev.destMac 0 (BitVec.toNat (stArp.dev.rd (Off.NET_TX_DST_IP 1))) = some 77) ∧
    (stTx.Ready ∧ 1 < 128 ∧ stTx.dev.txEn 1 = true ∧ stTx.dev.txDue (stTx.dev.ctlSamples true (stTx.dev.rd (Off.NET_TX_CTL 1))) 3 = true ∧
      List.filter (fun e => stTx.dev.linkUp e) (stTx.dev.txPorts 1) = [0] ∧
      stTx.dev.destMac 0 (BitVec.toNat (stTx.dev.rd (Off.NET_TX_DST_IP 1))) = some (groupMac 4009754626)) ∧
    (stTxUni.Ready ∧ 1 < 128 ∧ stTxUni.dev.txEn 1 = true ∧
      stTxUni.dev.txDue (stTxUni.dev.ctlSamples true (stTxUni.dev.rd (Off.NET_TX_CTL 1))) 1 = true ∧
      List.filter (fun e => stTxUni.dev.linkUp e) (stTxUni.dev.txPorts 1) = [0] ∧
      stTxUni.dev.destMac 0 (BitVec.toNat (stTxUni.dev.rd (Off.NET_TX_DST_IP 1))) = none ∧
      stTxUni.dev.nextHop 0 (BitVec.toNat (stTxUni.dev.rd (Off.NET_TX_DST_IP 1))) ≠ 0) ∧
    (stLinkDown.Ready ∧ 1 < 4 ∧ stLinkDown.dev.bit (Off.NET_PORT_CFG 1) 31 = true ∧ stLinkDown.dev.linkUp 1 = !true ∧
      stLinkDown.dev.portIp 1 = 0 ∧ mwf (fun _ => false) stLinkDown.dev.net.phys = true) ∧
    ((mk up).Ready ∧ 2 < 4 ∧ ((mk up).dev.linkUp 2 = false ∨ (mk up).dev.portIp 2 = 0 ∨ (mk up).dev.tagTaken 2 none = false)) ∧
    (stTx.Ready ∧ 0 < 4 ∧ stTx.dev.linkUp 0 = true ∧ stTx.dev.portIp 0 ≠ 0 ∧ stTx.dev.tagTaken 0 none = true ∧ 0 ≠ stTx.dev.portIp 0) ∧
    (stTx.Ready ∧ 0 < 4 ∧ stTx.dev.linkUp 0 = true ∧ stTx.dev.portIp 0 ≠ 0 ∧ stTx.dev.tagTaken 0 none = true ∧
      [7#8, 7#8, 7#8, 7#8, 7#8, 7#8, 7#8, 7#8, 7#8, 7#8, 7#8, 7#8].length ≤ 1472) ∧
    (stTx.Ready ∧ 0 < 4 ∧ stTx.dev.linkUp 0 = true ∧ stTx.dev.portIp 0 ≠ 0 ∧ stTx.dev.tagTaken 0 none = true ∧
      mwf (fun _ => 0) stTx.dev.net.arp = true) ∧
    ((mk up).Ready ∧ (mk up).dev.bit Off.NET_NOTICE_CFG 31 = false) ∧
    (stNotice.Ready ∧ stNotice.dev.evt.notice ≠ [] ∧ stNotice.dev.fld Off.NET_NOTICE_CFG 15 0 ≠ 0 ∧
      List.find? (fun e => BitVec.getLsbD (stNotice.dev.rd Off.NET_NOTICE_CFG) (16 + e) && stNotice.dev.linkUp e) netPorts = some 0 ∧
      stNotice.dev.destMac 0 (BitVec.toNat (stNotice.dev.rd Off.NET_NOTICE_IP)) = some (groupMac 4009754627)) := by
  and_intros <;> first
   
    | exact ready_of (by decide +kernel)
    | exact trusts_of (by decide +kernel)
    | exact open_of (by decide +kernel)
    | decide +kernel

theorem witness_PtpMessagesSlewsAndSteps :
    ((mk up).Ready ∧ 0 < 2 ∧ 1 < 4 ∧
      (¬((mk up).dev.domPort 0 1 = true ∧ (mk up).dev.tagTaken 1 none = true ∧ 127 = (mk up).dev.fld (Off.PTP_DOM_CFG 0) 7 0))) ∧
    (stPtpM.Ready ∧ 0 < 2 ∧ 1 < 4 ∧ stPtpM.dev.domPort 0 1 = true ∧ stPtpM.dev.domMaster 0 = true) ∧
    ((mk up).Ready ∧ 0 < 2 ∧ 1 < 4 ∧ ((mk up).dev.domPort 0 1 = false ∨ (mk up).dev.domMaster 0 = false)) ∧
    (stPtp.Ready ∧ 0 < 2 ∧ 1 < 4 ∧
      stPtp.dev.domPort 0 1 = true ∧ stPtp.dev.tagTaken 1 none = true ∧ 127 = stPtp.dev.fld (Off.PTP_DOM_CFG 0) 7 0 ∧ 999999999 < 2 ^ 32 ∧
      0 < 2 ^ 32) ∧
    (stPtpM.Ready ∧ 0 < 2 ∧ 0 < 4 ∧
      stPtpM.dev.domPort 0 0 = true ∧ stPtpM.dev.tagTaken 0 none = true ∧ 127 = stPtpM.dev.fld (Off.PTP_DOM_CFG 0) 7 0 ∧
      (stPtpM.dev.dom 0).t3 = some (0, 9) ∧ 77 = (stPtpM.dev.dom 0).master) ∧
    (stPtp.Ready ∧ 0 < 2 ∧ 1 < 4 ∧
      stPtp.dev.domPort 0 1 = true ∧ stPtp.dev.tagTaken 1 none = true ∧ 127 = stPtp.dev.fld (Off.PTP_DOM_CFG 0) 7 0 ∧
      (∀ (t3 : Int), (stPtp.dev.dom 0).t3 = some (1, t3) → 77 ≠ (stPtp.dev.dom 0).master)) ∧
    (stPtp.Ready ∧ 0 < 2 ∧ 1 < 4 ∧
      stPtp.dev.domPort 0 1 = true ∧ stPtp.dev.tagTaken 1 none = true ∧ 127 = stPtp.dev.fld (Off.PTP_DOM_CFG 0) 7 0 ∧
      (stPtp.dev.domMaster (0 : Nat) = false ∨ (77 : Nat) ≠ (stPtp.dev.dom (0 : Nat)).master ∨ (1 : Int) < (2 : Int))) ∧
    (stPtpM.Ready ∧ 0 < 2 ∧ 0 < 4 ∧
      stPtpM.dev.domPort 0 0 = true ∧ stPtpM.dev.tagTaken 0 none = true ∧ 127 = stPtpM.dev.fld (Off.PTP_DOM_CFG 0) 7 0 ∧
      stPtpM.dev.domMaster 0 = true ∧ 77 = (stPtpM.dev.dom 0).master ∧ -8 < -7) ∧
    (stPtpM.Ready ∧ 0 < 2 ∧ 1 < 4 ∧
      stPtpM.dev.domPort 0 1 = true ∧ stPtpM.dev.tagTaken 1 none = true ∧ 127 = stPtpM.dev.fld (Off.PTP_DOM_CFG 0) 7 0 ∧
      stPtpM.dev.domMaster 0 = true ∧ 77 = (stPtpM.dev.dom 0).master ∧ -7 ≤ -3 ∧ -3 ≤ 1 ∧ (stPtpM.dev.dom 0).sm = some 5000000 ∧
      (stPtpM.dev.ptp.src = 0 + 1 → stPtpM.dev.ptp.first = false ∧ -↑stPtpM.dev.stepThresh ≤ ptpNet stPtpM.dev 0 (ptpTheta
        (stPtpM.dev.hwStamp (-50331648) - stPtpM.dev.asym Off.PTP_ASYM_IN 1 - 0 - 0) 5000000) (stPtpM.dev.dom 0).est ∧ ptpNet stPtpM.dev 0
        (ptpTheta (stPtpM.dev.hwStamp (-50331648) - stPtpM.dev.asym Off.PTP_ASYM_IN 1 - 0 - 0) 5000000) (stPtpM.dev.dom 0).est ≤
        ↑stPtpM.dev.stepThresh) ∧
      (stPtpM.dev.domLocked 0 = true ∨ (if (ptpNet stPtpM.dev 0 (ptpTheta (stPtpM.dev.hwStamp (-50331648) - stPtpM.dev.asym Off.PTP_ASYM_IN
        1 - 0 - 0) 5000000) (stPtpM.dev.dom 0).est).floor.natAbs ≤ getBits (stPtpM.dev.rd (Off.PTP_DOM_SERVO 0)) 15 0 * 65536 then
        (stPtpM.dev.dom 0).good + 1 else 0) < 16)) ∧
    (stPtpM.Ready ∧ 0 < 2 ∧ 0 < 4 ∧
      stPtpM.dev.domPort 0 0 = true ∧ stPtpM.dev.tagTaken 0 none = true ∧ 127 = stPtpM.dev.fld (Off.PTP_DOM_CFG 0) 7 0 ∧
      (stPtpM.dev.dom 0).sync = some (1, 700, 3) ∧ 77 = (stPtpM.dev.dom 0).master ∧ -7 ≤ -1 ∧ -1 ≤ 1 ∧
      (stPtpM.dev.dom 0).sm = some 5000000 ∧
      (stPtpM.dev.ptp.src = 0 + 1 → stPtpM.dev.ptp.first = false ∧ -↑stPtpM.dev.stepThresh ≤ ptpNet stPtpM.dev 0 (ptpTheta (700 - 100 - (3
        + 0)) 5000000) (stPtpM.dev.dom 0).est ∧ ptpNet stPtpM.dev 0 (ptpTheta (700 - 100 - (3 + 0)) 5000000) (stPtpM.dev.dom 0).est ≤
        ↑stPtpM.dev.stepThresh) ∧
      (stPtpM.dev.domLocked 0 = true ∨ (if (ptpNet stPtpM.dev 0 (ptpTheta (700 - 100 - (3 + 0)) 5000000) (stPtpM.dev.dom
        0).est).floor.natAbs ≤ getBits (stPtpM.dev.rd (Off.PTP_DOM_SERVO 0)) 15 0 * 65536 then (stPtpM.dev.dom 0).good + 1 else 0) < 16)) ∧
    (stSlewEnd.Ready ∧ stSlewEnd.dev.ptp.slewing = true ∧ stSlewEnd.dev.ptp.slew = 0) ∧
    ((mk up).Ready ∧ ((mk up).dev.ptp.slewing = false ∨ (mk up).dev.ptp.slew ≠ 0)) ∧
    ((mk up).Ready ∧
      ((mk up).dev.ptp.step = none ∨ ∃ a dec, (mk up).dev.ptp.step = some (a, dec) ∧ (mk up).dev.clk.tick < if (mk up).dev.rendering = true
        then dec + 1 else dec)) ∧
    (stStep.Ready ∧ stStep.dev.ptp.step = some (196608000000, 4) ∧
      (¬stStep.dev.clk.tick < if stStep.dev.rendering = true then 4 + 1 else 4)) := by
  and_intros <;> first
   
    | exact ready_of (by decide +kernel)
    | decide +kernel
    | exact fun _ _ => by decide +kernel
    | exact .inl (by decide +kernel)

theorem witness_TimeSourcesAndWclk :
    ((mk up).Ready ∧ 0 < 2 ∧
      ((mk up).dev.domMaster 0 = false ∨ ¬((mk up).dev.dom 0).annAt + 3 * logSecs ((mk up).dev.dom 0).annInt * ↑secUnits ≤ (mk
        up).dev.clk.time)) ∧
    (stLost.Ready ∧ 0 < 2 ∧ stLost.dev.domMaster 0 = true ∧
      (stLost.dev.dom 0).annAt + 3 * logSecs (stLost.dev.dom 0).annInt * ↑secUnits ≤ stLost.dev.clk.time ∧ stLost.dev.domLocked 0 = true ∧
      stLost.dev.ptp.src = 0 + 1 ∧ stLost.dev.domLocked (1 - 0) = false ∧ stLost.dev.clk.valid = true ∧ stLost.dev.ptp.wclk = false ∧
      getBits stLost.dev.ptpSel 1 0 = 0) ∧
    (stRevert.Ready ∧ 0 < 2 ∧ getBits stRevert.dev.ptpSel 2 2 = 0 ∧ getBits stRevert.dev.ptpSel 1 0 = 0 ∧
      BitVec.getLsbD stRevert.dev.ptpSel 4 = true ∧ stRevert.dev.domLocked 0 = true ∧
      (stRevert.dev.dom 0).since + 60000000000 ≤ stRevert.dev.nsNow ∧ stRevert.dev.clk.valid = true ∧ stRevert.dev.ptp.src = 2 - 0 ∧
      stRevert.dev.ptp.slewing = true ∧ stRevert.dev.ptp.slew ≠ 0) ∧
    ((mk up).Ready ∧ 0 < 4 ∧ (mk up).Trusts (Master.steward true) (Off.PTP_TIME_SEC_LO + 4 * 0) ∧ (mk up).dev.clk.valid = false ∧
      (0 ≠ 2 ∨ 2147483651 ≤ 999999999)) ∧
    (stPtpS.Ready ∧ 1 < 4 ∧ stPtpS.Trusts Master.spi (Off.PTP_TIME_SEC_LO + 4 * 1) ∧ stPtpS.dev.clk.valid = true) ∧
    (stPtpS.Ready ∧ near64 ≠ [] ∧ (∀ (p : Int), p ∈ near64 → p.natAbs ≤ 100000) ∧ 64 ≤ stPtpS.dev.ptp.wGood + near64.length ∧
      stPtpS.dev.ptp.wclk = false ∧ stPtpS.dev.domLocked 0 = true ∧ stPtpS.dev.ptp.src = 1 ∧ getBits stPtpS.dev.ptpSel 1 0 = 0) ∧
    (stWSteer.Ready ∧ far8 ≠ [] ∧ (∀ (p : Int), p ∈ far8 → 100000 < p.natAbs) ∧ 8 ≤ stWSteer.dev.ptp.wBad + far8.length ∧
      stWSteer.dev.ptp.wclk = true ∧ stWSteer.dev.ptp.src = 3 ∧ getBits stWSteer.dev.ptpSel 1 0 = 3 ∧ stWSteer.dev.clk.valid = true) ∧
    (stWAdopt.Ready ∧ stWAdopt.dev.clk.valid = false ∧ stWAdopt.dev.ptp.wclk = true ∧ stWAdopt.dev.ptp.written = true ∧
      getBits stWAdopt.dev.ptpSel 1 0 = 3) := by
  and_intros <;> first
   
    | exact ready_of (by decide +kernel)
    | exact trusts_of (by decide +kernel)
    | exact open_of (by decide +kernel)
    | decide +kernel

theorem witness_ListeningPost :
    ((mk up).Ready ∧ mwf (fun _ => LpCh.init) (mk up).dev.lpo.ch = true ∧ (mk up).dev.bit Off.LPO_SYNC 30 = true) ∧
    (stLpNoExt.Ready ∧ mwf (fun _ => LpCh.init) stLpNoExt.dev.lpo.ch = true ∧ stLpNoExt.dev.bit Off.LPO_SYNC 30 = false) ∧
    ((mk up).Ready ∧ mwf (fun _ => LpCh.init) (mk up).dev.lpo.ch = true ∧ (mk up).Trusts (Master.steward true) Off.LPO_SYNC) ∧
    ((mk up).Ready ∧ mwf (fun _ => LpCh.init) (mk up).dev.lpo.ch = true ∧ 3 < 16 ∧ (mk up).dev.settling 3 = false) ∧
    ((mk up).Ready ∧ 1 < 16 ∧ (mk up).Trusts (Master.steward true) (Off.LPO_CH_CTL 1) ∧ (mk up).dev.bit (Off.LPO_CH_CTL 1) 30 = false ∧
      (mk up).dev.pendW.any (Pend.isLpoSwap 1) = false) ∧
    (stLpFade.Ready ∧ 3 < 16 ∧ stLpFade.Trusts Master.icx (Off.LPO_CH_CTL 3) ∧
      (stLpFade.dev.bit (Off.LPO_CH_CTL 3) 30 = true ∨ stLpFade.dev.pendW.any (Pend.isLpoSwap 3) = true)) ∧
    (stLpFade.Ready ∧ 3 < 16 ∧ mwf (fun _ => LpCh.init) stLpFade.dev.lpo.ch = true ∧ (stLpFade.dev.lpCh 3).fade.snd ≠ 0 ∧
      (stLpFade.dev.lpCh 3).fade.fst + (stLpFade.dev.lpCh 3).fade.snd + 1 ≤ stLpFade.dev.clk.tick) ∧
    ((mk up).Ready ∧ 1 < 16 ∧ (mk up).Trusts (Master.steward true) Off.LPO_MEAS_CMD) := by
  and_intros <;> first
   
    | exact ready_of (by decide +kernel)
    | exact trusts_of (by decide +kernel)
    | exact open_of (by decide +kernel)
    | decide +kernel

theorem witness_DriveSamplesAndStart :
    ((mk up).Ready ∧ 0 < 65536 ∧ (∀ (c : Nat), c < 12 → ((mk up).dev.drvCh c).ph = 0) ∧ (mk up).dev.bit Off.DRV_STAT 27 = false) ∧
    ((stDrvPh 1).Ready ∧ 3 < 12 ∧ (∀ (k : Nat), k < 12 → (((stDrvPh 1).dev.drvCh k).ph ≠ 0 ↔ k = 3)) ∧
      mwf (fun _ => DrvCh.init) (stDrvPh 1).dev.drv.ch = true) ∧
    (stDrv.Ready ∧ 3 < 12 ∧ mwf (fun _ => DrvCh.init) stDrv.dev.drv.ch = true ∧ stDrv.dev.drvWanted 3 = true ∧ stDrv.dev.drvHeld = false ∧
      stDrv.dev.drvTripped 3 = false ∧ stDrv.dev.drvLatched 3 = false ∧ (stDrv.dev.drvCh 3).ph = 0) ∧
    ((stDrvPh 1).Ready ∧ 3 < 12 ∧ mwf (fun _ => DrvCh.init) (stDrvPh 1).dev.drv.ch = true ∧ ((stDrvPh 1).dev.drvCh 3).ph = 1) ∧
    (stDrvOff.Ready ∧ 3 < 12 ∧ mwf (fun _ => DrvCh.init) stDrvOff.dev.drv.ch = true ∧ (stDrvOff.dev.drvCh 3).ph = 6 ∧
      stDrvOff.dev.drvWanted 3 = false) ∧
    (stDrvWait.Ready ∧ 3 < 12 ∧ mwf (fun _ => DrvCh.init) stDrvWait.dev.drv.ch = true ∧ (stDrvWait.dev.drvCh 3).ph = 6 ∧
      stDrvWait.dev.drvWanted 3 = true ∧ stDrvWait.dev.drvHeld = false ∧ stDrvWait.dev.drvTripped 3 = false ∧
      stDrvWait.dev.drvLatched 3 = false) := by
  and_intros <;> first
   
    | exact ready_of (by decide +kernel)
    | exact trusts_of (by decide +kernel)
    | exact open_of (by decide +kernel)
    | decide +kernel

theorem witness_DriveTripsAndShutdowns :
    ((stDrvPh 4).Ready ∧ 3 < 12 ∧ mwf (fun _ => DrvCh.init) (stDrvPh 4).dev.drv.ch = true ∧ ((stDrvPh 4).dev.drvCh 3).ph ≠ 0 ∧
      currentRun (2000 + 500 * min 10 ((stDrvPh 4).dev.efld (Off.DRV_CH_CFG 3) 25 22)) [] ((stDrvPh 4).dev.drvCh 3).limited = ([], 0, none)) ∧
    ((mk up).Ready ∧ 0 < 12 ∧ mwf (fun _ => DrvCh.init) (mk up).dev.drv.ch = true ∧ (decide (3 ≤ 2) || decide (3 ≤ 142)) = true ∧
      2 ≤ 10000 ∧ 142 ≤ 10000) ∧
    (stDrv.Ready ∧ 0 < 12 ∧ mwf (fun _ => DrvCh.init) stDrv.dev.drv.ch = true ∧ (10000 < 2 ∨ 10000 < 65535)) ∧
    (stDrvLast.Ready ∧ 3 < 12 ∧ mwf (fun _ => DrvCh.init) stDrvLast.dev.drv.ch = true ∧ (stDrvLast.dev.drvCh 3).ph ≠ 0 ∧
      (currentRun (2000 + 500 * min 10 (stDrvLast.dev.efld (Off.DRV_CH_CFG 3) 25 22)) [(2, 50331648)] (stDrvLast.dev.drvCh
        3).limited).snd.snd = some 2) ∧
    ((stDrvPh 1).Ready ∧ 3 < 12 ∧ mwf (fun _ => DrvCh.init) (stDrvPh 1).dev.drv.ch = true ∧ (stDrvPh 1).dev.bit Off.DRV_CTL 30 = true ∧
      ((stDrvPh 1).dev.drvCh 3).ph ≠ 0) ∧
    (stDrvTrip.Ready ∧ 3 < 12 ∧ mwf (fun _ => DrvCh.init) stDrvTrip.dev.drv.ch = true ∧ stDrvTrip.dev.drvTripped 3 = true ∧
      stDrvTrip.dev.drvWanted 3 = true ∧ stDrvTrip.dev.fld Off.DRV_RETRY 7 0 ≠ 0 ∧
      (stDrvTrip.dev.drvCh 3).tripAt + 100000000 * min 100 (stDrvTrip.dev.fld Off.DRV_RETRY 7 0) ≤ stDrvTrip.dev.nsNow ∧
      stDrvTrip.dev.drvHeld = false) ∧
    (stDrvTripHeld.Ready ∧ 3 < 12 ∧ mwf (fun _ => DrvCh.init) stDrvTripHeld.dev.drv.ch = true ∧ stDrvTripHeld.dev.drvTripped 3 = true ∧
      stDrvTripHeld.dev.drvWanted 3 = true ∧ stDrvTripHeld.dev.fld Off.DRV_RETRY 7 0 ≠ 0 ∧
      (stDrvTripHeld.dev.drvCh 3).tripAt + 100000000 * min 100 (stDrvTripHeld.dev.fld Off.DRV_RETRY 7 0) ≤ stDrvTripHeld.dev.nsNow ∧
      stDrvTripHeld.dev.drvHeld = true) ∧
    ((stDrvPh 4).Ready ∧ 3 < 12 ∧ mwf (fun _ => DrvCh.init) (stDrvPh 4).dev.drv.ch = true ∧ ((stDrvPh 4).dev.drvCh 3).ph = 4 ∧
      ((stDrvPh 4).dev.drvCh 3).runAt + 10000000000 ≤ (stDrvPh 4).dev.nsNow) ∧
    (stDrvLatchOff.Ready ∧ 3 < 12 ∧ mwf (fun _ => DrvCh.init) stDrvLatchOff.dev.drv.ch = true ∧
      stDrvLatchOff.Trusts Master.loader (Off.DRV_CH_STAT 3) ∧ stDrvLatchOff.dev.drvLatched 3 = true ∧
      stDrvLatchOff.dev.drvWanted 3 = false) ∧
    (stDrvLatch.Ready ∧ 3 < 12 ∧ mwf (fun _ => DrvCh.init) stDrvLatch.dev.drv.ch = true ∧
      stDrvLatch.Trusts Master.pcie (Off.DRV_CH_STAT 3) ∧ stDrvLatch.dev.drvLatched 3 = true ∧ stDrvLatch.dev.drvWanted 3 = true ∧
      stDrvLatch.dev.drvTripped 3 = false ∧ stDrvLatch.dev.drvHeld = false ∧ (stDrvLatch.dev.drvCh 3).ph = 0) ∧
    ((mk up).Ready ∧ mwf (fun _ => DrvCh.init) (mk up).dev.drv.ch = true ∧ (mk up).dev.bit Off.DRV_STAT 29 = false) ∧
    ((mk up).Ready ∧ mwf (fun _ => DrvCh.init) (mk up).dev.drv.ch = true ∧ (mk up).dev.bit Off.DRV_STAT 31 = false) ∧
    (stDrvTripHeld.Ready ∧ mwf (fun _ => DrvCh.init) stDrvTripHeld.dev.drv.ch = true ∧ stDrvTripHeld.dev.bit Off.DRV_STAT 29 = true ∧
      stDrvTripHeld.dev.bit Off.DRV_STAT 30 = false ∧ stDrvTripHeld.dev.bit Off.DRV_STAT 31 = false) ∧
    (stDrvSup.Ready ∧ mwf (fun _ => DrvCh.init) stDrvSup.dev.drv.ch = true ∧ stDrvSup.dev.bit Off.DRV_STAT 31 = true ∧
      stDrvSup.dev.bit Off.DRV_STAT 29 = false ∧ stDrvSup.dev.bit Off.DRV_STAT (if false = true then 31 else 30) = false) ∧
    (stDrvOvp.Ready ∧ mwf (fun _ => DrvCh.init) stDrvOvp.dev.drv.ch = true ∧ stDrvOvp.dev.bit Off.DRV_STAT 31 = true ∧
      (stDrvOvp.dev.bit Off.DRV_STAT 29 = true ∨ stDrvOvp.dev.bit Off.DRV_STAT (if false = true then 31 else 30) = true)) ∧
    (stDrv.Ready ∧ mwf (fun _ => DrvCh.init) stDrv.dev.drv.ch = true ∧ stDrv.Trusts (Master.steward true) Off.DRV_CTL) := by
  and_intros <;> first
   
    | exact ready_of (by decide +kernel)
    | exact trusts_of (by decide +kernel)
    | exact open_of (by decide +kernel)
    | decide +kernel

theorem witness_BellPartnerAndJoining :
    ((mk up).Ready ∧ (mk up).Trusts (Master.steward true) Off.TWN_CTL) ∧
    (stAlone.Ready ∧ stAlone.dev.twnOn = true ∧ stAlone.dev.twn.st ≤ 4 ∧ stAlone.dev.twn.bellSeq < 4096) ∧
    ((mk up).Ready ∧ (mk up).dev.twnOn = false) ∧
    (stAlone.Ready ∧ stAlone.dev.twnOn = true ∧ crc8 (beBytes 7 (6797834533718716637 / 256)) ≠ 6797834533718716637 % 256) ∧
    (stPair.Ready ∧ stPair.dev.twnOn = true ∧ crc8 (beBytes 7 (2436327611878563131 / 256)) = 2436327611878563131 % 256 ∧
      bitsOf 2436327611878563131 49 49 ≠ stPair.dev.unitNo) ∧
    (stEntry.Ready ∧ stEntry.dev.twnOn = true ∧ crc8 (beBytes 7 (0 / 256)) = 0 % 256 ∧ bitsOf 0 49 49 = stEntry.dev.unitNo) ∧
    (stPair.Ready ∧ stPair.dev.twnOn = true ∧ stPair.dev.twn.present = true ∧
      (stPair.dev.twn.pFailing = true ∨ stPair.dev.bellUp = false ∧ stPair.dev.courUp = false)) ∧
    (stAlone.Ready ∧ stAlone.dev.twnOn = true ∧
      (stAlone.dev.twn.present = false ∨ stAlone.dev.twn.pFailing = false ∧ (stAlone.dev.bellUp = true ∨ stAlone.dev.courUp = true))) ∧
    (stBellLost.Ready ∧ stBellLost.dev.twnOn = true ∧ stBellLost.dev.twn.present = true ∧
      (if false = true then stBellLost.dev.twn.courAlarm else stBellLost.dev.twn.bellAlarm) = false ∧
      (if false = true then stBellLost.dev.twn.courAt else stBellLost.dev.twn.bellAt) + stBellLost.dev.tmoNs (if false = true then
        Off.TWN_COURIER_TMO else Off.TWN_BELL_TMO) < if false = true then stBellLost.dev.twn.bellAt else stBellLost.dev.twn.courAt) ∧
    (stCourBack.Ready ∧ stCourBack.dev.twnOn = true ∧
      (if true = true then stCourBack.dev.twn.courAlarm else stCourBack.dev.twn.bellAlarm) = true ∧
      (if true = true then stCourBack.dev.courUp else stCourBack.dev.bellUp) = true) ∧
    (stBackNew.Ready ∧ stBackNew.dev.twnOn = true ∧ stBackNew.dev.twn.present = false ∧ stBackNew.dev.twn.pFailing = false ∧
      stBackNew.dev.twn.sameId = false ∧ stBackNew.dev.twn.since ≠ 0 ∧ (stBackNew.dev.bellUp = true ∨ stBackNew.dev.courUp = true) ∧
      stBackNew.dev.twn.since + 10000000 ≤ stBackNew.dev.nsNow + 1) ∧
    (stPair.Ready ∧ stPair.dev.twnOn = true ∧ 1 < 2 ∧ stPair.dev.twn.lanes < 4 ∧ stPair.dev.twn.lanes / 2 ^ 1 % 2 ≠ b2n true) ∧
    (stJoin.Ready ∧ stJoin.dev.twnOn = true ∧ stJoin.dev.twn.present = true ∧ stJoin.dev.twn.inStep = false ∧ 3000 ≤ stJoin.dev.twn.run) ∧
    (stJoinEnd.Ready ∧ stJoinEnd.dev.twn.holdEnd = some 7 ∧ stJoinEnd.dev.twn.st = 2 ∧ stJoinEnd.dev.twn.inStep = true ∧
      7 ≤ stJoinEnd.dev.clk.tick) := by
  and_intros <;> first
   
    | exact ready_of (by decide +kernel)
    | exact trusts_of (by decide +kernel)
    | exact open_of (by decide +kernel)
    | decide +kernel

theorem witness_PartnerFrames :
    (stPair.Ready ∧ stPair.dev.twn.present = true ∧ stPair.dev.Receives 1 fCourier (fr fCourier) ∧ (fr fCourier).body.length = 48 ∧
      fWord (fr fCourier).body 10 2 / 16 % 2 = 0) ∧
    (stPair.Ready ∧ stPair.dev.twn.present = true ∧ stPair.dev.Receives 2 fGate (fr fGate) ∧ 0 < fWord (fr fGate).body 2 2 ∧
      fWord (fr fGate).body 2 2 ≤ 64 ∧ (fr fGate).body.length = 24 + 4 * fWord (fr fGate).body 2 2 * stPair.dev.L ∧
      mwf (fun _ => []) stPair.dev.twn.gateRx = true ∧
      (∀ (n : Nat), mwf (fun _ => GateRx.mk false false []) (mget (fun _ => []) stPair.dev.twn.gateRx n) = true)) ∧
    (stPair.Ready ∧ stPair.dev.twn.present = true ∧ stPair.dev.Receives 3 fShare (fr fShare) ∧ 1 ≤ fByte (fr fShare).body 0 ∧
      fByte (fr fShare).body 0 ≤ 3 ∧ 1 ≤ fWord (fr fShare).body 4 2 ∧ fWord (fr fShare).body 4 2 ≤ 64 ∧
      fWord (fr fShare).body 6 2 = stPair.dev.shareNs (fByte (fr fShare).body 0) ∧
      (fr fShare).body.length = 16 + 4 * fWord (fr fShare).body 4 2 * stPair.dev.shareNs (fByte (fr fShare).body 0) ∧
      mwf (fun _ => 0) stPair.dev.twn.shareAt = true ∧ mwf (fun _ => []) stPair.dev.samp = true ∧
      (∀ (g : Nat), mwf (fun _ => 0) (mget (fun _ => []) stPair.dev.samp g) = true) ∧ stPair.dev.clk.tick ≤ (fr fShare).tick) ∧
    (stBellLost.Ready ∧ stBellLost.dev.twn.present = true ∧ stBellLost.dev.Receives 3 fShare (fr fShare) ∧ 1 ≤ fByte (fr fShare).body 0 ∧
      fByte (fr fShare).body 0 ≤ 3 ∧ 1 ≤ fWord (fr fShare).body 4 2 ∧ fWord (fr fShare).body 4 2 ≤ 64 ∧
      fWord (fr fShare).body 6 2 = stBellLost.dev.shareNs (fByte (fr fShare).body 0) ∧
      (fr fShare).body.length = 16 + 4 * fWord (fr fShare).body 4 2 * stBellLost.dev.shareNs (fByte (fr fShare).body 0) ∧
      mwf (fun _ => 0) stBellLost.dev.twn.shareAt = true ∧ mwf (fun _ => []) stBellLost.dev.samp = true ∧
      (∀ (g : Nat), mwf (fun _ => 0) (mget (fun _ => []) stBellLost.dev.samp g) = true) ∧
      ((fr fShare).tick + 1 < stBellLost.dev.clk.tick ∨ (fr fShare).tick + 1 = stBellLost.dev.clk.tick ∧ stBellLost.dev.clk.past = true)) ∧
    (stPair.Ready ∧ stPair.dev.twn.present = true ∧ stPair.dev.Receives 7 fCompare (fr fCompare) ∧
      mwf (fun _ => []) stPair.dev.twn.compares = true ∧ (fr fCompare).body.length = 4 + 4 * fWord (fr fCompare).body 0 2) ∧
    (stPair.Ready ∧ stPair.dev.twn.present = true ∧ stPair.dev.Receives 7 fCompareBad (fr fCompareBad) ∧
      mwf (fun _ => []) stPair.dev.twn.compares = true ∧ (fr fCompareBad).body.length ≠ 4 + 4 * fWord (fr fCompareBad).body 0 2) ∧
    (stAlone.Ready ∧ 1 ≤ 2 ∧ 2 ≤ 7 ∧ (stAlone.dev.twnOn = true ∨ stAlone.dev.sys.waitTwin = true) ∧ parseFrame [] = none) ∧
    (stPairLate.Ready ∧ 1 ≤ 7 ∧ 7 ≤ 7 ∧ (stPairLate.dev.twnOn = true ∨ stPairLate.dev.sys.waitTwin = true) ∧
      parseFrame fCompare = some (fr fCompare) ∧ (fr fCompare).type = 7 ∧
      ((fr fCompare).unit ≠ stPairLate.dev.unitNo ∨ stPairLate.dev.twnOn = false) ∧ stPairLate.dev.twn.expect = some 9 ∧
      2 ^ 31 ≤ ((fr fCompare).fseq + 2 ^ 32 - 9) % 2 ^ 32) ∧
    (stPairGap.Ready ∧ 1 ≤ 7 ∧ 7 ≤ 7 ∧ (stPairGap.dev.twnOn = true ∨ stPairGap.dev.sys.waitTwin = true) ∧
      parseFrame fCompare = some (fr fCompare) ∧ (fr fCompare).type = 7 ∧
      ((fr fCompare).unit ≠ stPairGap.dev.unitNo ∨ stPairGap.dev.twnOn = false) ∧ stPairGap.dev.twn.expect = some 2 ∧
      0 < ((fr fCompare).fseq + 2 ^ 32 - 2) % 2 ^ 32 ∧ ((fr fCompare).fseq + 2 ^ 32 - 2) % 2 ^ 32 < 2 ^ 31) ∧
    (stPairNew.Ready ∧ 1 ≤ 7 ∧ 7 ≤ 7 ∧ (stPairNew.dev.twnOn = true ∨ stPairNew.dev.sys.waitTwin = true) ∧
      parseFrame fCompare = some (fr fCompare) ∧ (fr fCompare).type = 7 ∧
      ((fr fCompare).unit ≠ stPairNew.dev.unitNo ∨ stPairNew.dev.twnOn = false) ∧ stPairNew.dev.twn.expect = none ∧
      (fr fCompare).fseq < 2 ^ 32) := by
  and_intros <;> first
   
    | exact ready_of (by decide +kernel)
    | exact trusts_of (by decide +kernel)
    | exact open_of (by decide +kernel)
    | exact receives_of (by decide +kernel)
    | exact gate_of (by decide +kernel)
    | decide +kernel

theorem witness_LedgerEntries :
    (stAlone.Ready ∧ stAlone.dev.Receives 4 fEntry (fr fEntry) ∧ parseEntry (fr fEntry).body = some (entryOf (fr fEntry)) ∧
      (stAlone.dev.twn.present = false ∨ stAlone.dev.planMatch = false)) ∧
    (stEntryB.Ready ∧ stEntryB.dev.Receives 4 (fRelayed 0) (fr (fRelayed 0)) ∧
      parseEntry (fr (fRelayed 0)).body = some (entryOf (fr (fRelayed 0))) ∧ stEntryB.dev.twn.present = true ∧
      stEntryB.dev.planMatch = true ∧ (entryOf (fr (fRelayed 0))).seq = 0 ∧ stEntryB.dev.primary = false) ∧
    (stEntry.Ready ∧ stEntry.dev.Receives 4 (fRelayed 1) (fr (fRelayed 1)) ∧
      parseEntry (fr (fRelayed 1)).body = some (entryOf (fr (fRelayed 1))) ∧ stEntry.dev.twn.present = true ∧
      stEntry.dev.planMatch = true ∧ (entryOf (fr (fRelayed 1))).seq = 0 ∧ stEntry.dev.primary = true ∧
      (entryOf (fr (fRelayed 1))).ekind = 2 ∧
      (stEntry.dev.clk.tick + 2 ≤ if (entryOf (fr (fRelayed 1))).apply = 0 then stEntry.dev.clk.tick + 2 else (entryOf (fr (fRelayed
        1))).apply) ∧ stEntry.dev.twn.nextSeq < 2 ^ 64 ∧ (ldgLive stEntry.dev).length < 256) ∧
    (stEntryKnown.Ready ∧ stEntryKnown.dev.Receives 4 (fSeq 3) (fr (fSeq 3)) ∧
      parseEntry (fr (fSeq 3)).body = some (entryOf (fr (fSeq 3))) ∧ stEntryKnown.dev.twn.present = true ∧
      stEntryKnown.dev.planMatch = true ∧ (entryOf (fr (fSeq 3))).seq ≠ 0 ∧
      ((entryOf (fr (fSeq 3))).seq ≤ stEntryKnown.dev.ledgerSeq ∨ (stEntryKnown.dev.twn.held.any fun y => y.seq == (entryOf (fr (fSeq
        3))).seq) = true) ∧ (entryOf (fr (fSeq 3))).origin ≠ stEntryKnown.dev.unitNo) ∧
    (stEntryKnown.Ready ∧ stEntryKnown.dev.Receives 4 (fSeq 9) (fr (fSeq 9)) ∧
      parseEntry (fr (fSeq 9)).body = some (entryOf (fr (fSeq 9))) ∧ stEntryKnown.dev.twn.present = true ∧
      stEntryKnown.dev.planMatch = true ∧ (entryOf (fr (fSeq 9))).seq ≠ 0 ∧
      (¬((entryOf (fr (fSeq 9))).seq ≤ stEntryKnown.dev.ledgerSeq ∨ (stEntryKnown.dev.twn.held.any fun y => y.seq == (entryOf (fr (fSeq
        9))).seq) = true)) ∧ (entryOf (fr (fSeq 9))).origin ≠ stEntryKnown.dev.unitNo ∧
      (stEntryKnown.dev.needsEpoch = true ∨ (entryOf (fr (fSeq 9))).seq ≠ stEntryKnown.dev.ledgerSeq + 1 ∧ (stEntryKnown.dev.twn.held.any
        fun y => y.seq == stEntryKnown.dev.ledgerSeq + 1) = false)) ∧
    (stEntry.Ready ∧ stEntry.dev.Receives 4 fEntry (fr fEntry) ∧ parseEntry (fr fEntry).body = some (entryOf (fr fEntry)) ∧
      stEntry.dev.twn.present = true ∧ stEntry.dev.planMatch = true ∧ (entryOf (fr fEntry)).seq ≠ 0 ∧
      (¬((entryOf (fr fEntry)).seq ≤ stEntry.dev.ledgerSeq ∨ (stEntry.dev.twn.held.any fun y => y.seq == (entryOf (fr fEntry)).seq) =
        true)) ∧ (entryOf (fr fEntry)).origin ≠ stEntry.dev.unitNo ∧ stEntry.dev.needsEpoch = false ∧ (entryOf (fr fEntry)).ekind = 2 ∧
      (entryOf (fr fEntry)).seq = stEntry.dev.ledgerSeq + 1 ∧ (entryOf (fr fEntry)).seq < 2 ^ 64 ∧ stEntry.dev.twn.held = []) ∧
    (stEntryKnown.Ready ∧ stEntryKnown.dev.Receives 4 (fSeq 5) (fr (fSeq 5)) ∧
      parseEntry (fr (fSeq 5)).body = some (entryOf (fr (fSeq 5))) ∧ stEntryKnown.dev.twn.present = true ∧
      stEntryKnown.dev.planMatch = true ∧ (entryOf (fr (fSeq 5))).seq ≠ 0 ∧
      (¬((entryOf (fr (fSeq 5))).seq ≤ stEntryKnown.dev.ledgerSeq ∨ (stEntryKnown.dev.twn.held.any fun y => y.seq == (entryOf (fr (fSeq
        5))).seq) = true)) ∧ (entryOf (fr (fSeq 5))).origin ≠ stEntryKnown.dev.unitNo ∧ stEntryKnown.dev.needsEpoch = false ∧
      (entryOf (fr (fSeq 5))).ekind = 2 ∧ (entryOf (fr (fSeq 5))).seq = stEntryKnown.dev.ledgerSeq + 1 ∧
      (entryOf (fr (fSeq 5))).seq < 2 ^ 64 ∧ stEntryKnown.dev.twn.held = []) ∧
    (stAnswered.Ready ∧ stAnswered.dev.Receives 4 fOwn (fr fOwn) ∧ parseEntry (fr fOwn).body = some (entryOf (fr fOwn)) ∧
      stAnswered.dev.twn.present = true ∧ stAnswered.dev.planMatch = true ∧ (entryOf (fr fOwn)).seq ≠ 0 ∧
      ((entryOf (fr fOwn)).seq ≤ stAnswered.dev.ledgerSeq ∨ (stAnswered.dev.twn.held.any fun y => y.seq == (entryOf (fr fOwn)).seq) = true)
        ∧ (entryOf (fr fOwn)).origin = stAnswered.dev.unitNo ∧ (entryOf (fr fOwn)).seq < 2 ^ 64 ∧
      List.find? (fun r => r.rtag == (entryOf (fr fOwn)).rtag) stAnswered.dev.twn.relays = some (Relay.mk 0 0 0 5)) ∧
    (stRelay.Ready ∧ stRelay.Trusts (Master.steward true) Off.TWN_LDG_CMD ∧ stRelay.dev.bit Off.TWN_LDG_CMD 28 = true) ∧
    (stSubmitBad.Ready ∧ stSubmitBad.Trusts Master.spi Off.TWN_LDG_CMD ∧ stSubmitBad.dev.bit Off.TWN_LDG_CMD 28 = false ∧
      stSubmitBad.dev.fld Off.TWN_LDG_CMD 13 0 ≤ 8192 ∧
      stSubmitBad.dev.bodyCheck (stSubmitBad.dev.fld Off.TWN_LDG_CMD 30 29) (ldgBody stSubmitBad.dev) = some 4) ∧
    (stSubmitBad.Ready ∧ stSubmitBad.Trusts Master.spi Off.TWN_LDG_CMD ∧ stSubmitBad.dev.bit Off.TWN_LDG_CMD 28 = false ∧
      stSubmitBad.dev.fld Off.TWN_LDG_CMD 13 0 ≤ 8192 ∧ stSubmitBad.dev.fld Off.TWN_LDG_CMD 30 29 = 2 ∧
      stSubmitBad.dev.checkFrame false (ldgBody stSubmitBad.dev) = FrameRes.crc) ∧
    (stSubLate.Ready ∧ stSubLate.Trusts Master.loader Off.TWN_LDG_CMD ∧ stSubLate.dev.bit Off.TWN_LDG_CMD 28 = false ∧
      stSubLate.dev.fld Off.TWN_LDG_CMD 13 0 ≤ 8192 ∧
      stSubLate.dev.bodyCheck (stSubLate.dev.fld Off.TWN_LDG_CMD 30 29) (ldgBody stSubLate.dev) = none ∧
      stSubLate.dev.twn.nextSeq < 2 ^ 64 ∧ stSubLate.dev.primary = true ∧ stSubLate.dev.fld Off.TWN_LDG_CMD 30 29 ≠ 3 ∧
      ldgTick stSubLate.dev < stSubLate.dev.clk.tick + 2) ∧
    (stSubDivLate.Ready ∧ stSubDivLate.Trusts Master.loader Off.TWN_LDG_CMD ∧ stSubDivLate.dev.bit Off.TWN_LDG_CMD 28 = false ∧
      stSubDivLate.dev.fld Off.TWN_LDG_CMD 13 0 ≤ 8192 ∧
      stSubDivLate.dev.bodyCheck (stSubDivLate.dev.fld Off.TWN_LDG_CMD 30 29) (ldgBody stSubDivLate.dev) = none ∧
      stSubDivLate.dev.twn.nextSeq < 2 ^ 64 ∧ stSubDivLate.dev.primary = true ∧ stSubDivLate.dev.fld Off.TWN_LDG_CMD 30 29 = 3 ∧
      fByte (ldgBody stSubDivLate.dev) 1 = 0 ∧ ldgTick stSubDivLate.dev < stSubDivLate.dev.clk.tick + 2) ∧
    (stSubFull.Ready ∧ stSubFull.Trusts Master.loader Off.TWN_LDG_CMD ∧ stSubFull.dev.bit Off.TWN_LDG_CMD 28 = false ∧
      stSubFull.dev.fld Off.TWN_LDG_CMD 13 0 ≤ 8192 ∧
      stSubFull.dev.bodyCheck (stSubFull.dev.fld Off.TWN_LDG_CMD 30 29) (ldgBody stSubFull.dev) = none ∧
      stSubFull.dev.twn.nextSeq < 2 ^ 64 ∧ stSubFull.dev.primary = true ∧ stSubFull.dev.fld Off.TWN_LDG_CMD 30 29 ≠ 3 ∧
      stSubFull.dev.clk.tick + 2 ≤ ldgTick stSubFull.dev ∧
      (256 ≤ (ldgLive stSubFull.dev).length ∨ stSubFull.dev.fld Off.TWN_LDG_CMD 30 29 = 1 ∧ 16384 < ldgSize stSubFull.dev)) ∧
    ((mk up).Ready ∧ (mk up).Trusts (Master.steward true) Off.TWN_LDG_CMD ∧ (mk up).dev.bit Off.TWN_LDG_CMD 28 = false ∧
      (mk up).dev.fld Off.TWN_LDG_CMD 13 0 ≤ 8192 ∧
      (mk up).dev.bodyCheck ((mk up).dev.fld Off.TWN_LDG_CMD 30 29) (ldgBody (mk up).dev) = none ∧ (mk up).dev.twn.nextSeq < 2 ^ 64 ∧
      (mk up).dev.primary = true ∧ (mk up).dev.fld Off.TWN_LDG_CMD 30 29 ≠ 3 ∧ (mk up).dev.clk.tick + 2 ≤ ldgTick (mk up).dev ∧
      (¬(256 ≤ (ldgLive (mk up).dev).length ∨ (mk up).dev.fld Off.TWN_LDG_CMD 30 29 = 1 ∧ 16384 < ldgSize (mk up).dev))) ∧
    (stSubDiv.Ready ∧ stSubDiv.Trusts Master.loader Off.TWN_LDG_CMD ∧ stSubDiv.dev.bit Off.TWN_LDG_CMD 28 = false ∧
      stSubDiv.dev.fld Off.TWN_LDG_CMD 13 0 ≤ 8192 ∧
      stSubDiv.dev.bodyCheck (stSubDiv.dev.fld Off.TWN_LDG_CMD 30 29) (ldgBody stSubDiv.dev) = none ∧ stSubDiv.dev.twn.nextSeq < 2 ^ 64 ∧
      stSubDiv.dev.primary = true ∧ stSubDiv.dev.fld Off.TWN_LDG_CMD 30 29 = 3 ∧ fByte (ldgBody stSubDiv.dev) 1 = 0 ∧
      stSubDiv.dev.clk.tick + 2 ≤ ldgTick stSubDiv.dev ∧ (ldgLive stSubDiv.dev).length < 256 ∧
      (∀ (e : LEntry), e ∈ stSubDiv.dev.twn.ledger → ¬(e.ekind = 3 ∧ e.apply = ldgTick stSubDiv.dev ∧ e.body = ldgBody stSubDiv.dev))) ∧
    (stSubDivNo.Ready ∧ stSubDivNo.Trusts Master.loader Off.TWN_LDG_CMD ∧ stSubDivNo.dev.bit Off.TWN_LDG_CMD 28 = false ∧
      stSubDivNo.dev.fld Off.TWN_LDG_CMD 13 0 ≤ 8192 ∧
      stSubDivNo.dev.bodyCheck (stSubDivNo.dev.fld Off.TWN_LDG_CMD 30 29) (ldgBody stSubDivNo.dev) = none ∧
      stSubDivNo.dev.twn.nextSeq < 2 ^ 64 ∧ stSubDivNo.dev.primary = true ∧ stSubDivNo.dev.fld Off.TWN_LDG_CMD 30 29 = 3 ∧
      fByte (ldgBody stSubDivNo.dev) 1 = 0 ∧ stSubDivNo.dev.clk.tick + 2 ≤ ldgTick stSubDivNo.dev ∧ (ldgLive stSubDivNo.dev).length < 256 ∧
      (∀ (e : LEntry), e ∈ stSubDivNo.dev.twn.ledger → ¬(e.ekind = 3 ∧ e.apply = ldgTick stSubDivNo.dev ∧ e.body = ldgBody stSubDivNo.dev))) ∧
    (stSubB.Ready ∧ stSubB.Trusts Master.loader Off.TWN_LDG_CMD ∧ stSubB.dev.bit Off.TWN_LDG_CMD 28 = false ∧
      stSubB.dev.fld Off.TWN_LDG_CMD 13 0 ≤ 8192 ∧
      stSubB.dev.bodyCheck (stSubB.dev.fld Off.TWN_LDG_CMD 30 29) (ldgBody stSubB.dev) = none ∧ stSubB.dev.twn.nextSeq < 2 ^ 64 ∧
      stSubB.dev.primary = false) := by
  and_intros <;> first
   
    | exact ready_of (by decide +kernel)
    | exact trusts_of (by decide +kernel)
    | exact open_of (by decide +kernel)
    | exact receives_of (by decide +kernel)
    | decide +kernel

theorem witness_TwinTransfers_1 :
    (stEpoch.Ready ∧
      (2 ≤ stEpoch.dev.twn.st ∧ stEpoch.dev.twn.present = true ∧ stEpoch.dev.planMatch = true) ∧ stEpoch.dev.primary = true ∧
        stEpoch.dev.twn.pFlags.testBit 2 = true) ∧
    ((mk up).Ready ∧
      (¬((2 ≤ (mk up).dev.twn.st ∧ (mk up).dev.twn.present = true ∧ (mk up).dev.planMatch = true) ∧ (mk up).dev.primary = true ∧ (mk
        up).dev.twn.pFlags.testBit 2 = true))) ∧
    (stSeed.Ready ∧
      (2 ≤ stSeed.dev.twn.st ∧ stSeed.dev.twn.present = true ∧ stSeed.dev.planMatch = true) ∧ bitsOf stSeed.dev.twn.pHealth.toNat 63 61 = 2
        ∧ stSeed.dev.twn.pFlags.testBit 2 = false ∧ stSeed.dev.playing = true ∧ stSeed.dev.tickDone = true) ∧
    ((mk up).Ready ∧
      (¬((2 ≤ (mk up).dev.twn.st ∧ (mk up).dev.twn.present = true ∧ (mk up).dev.planMatch = true) ∧ bitsOf (mk up).dev.twn.pHealth.toNat 63
        61 = 2 ∧ (mk up).dev.twn.pFlags.testBit 2 = false ∧ (mk up).dev.playing = true ∧ (mk up).dev.tickDone = true))) ∧
    (stAsk.Ready ∧
      stAsk.dev.twn.present = true ∧ stAsk.dev.twn.pFlags.testBit 1 = true ∧ stAsk.dev.planValid = true ∧ stAsk.dev.div.plan ≠ []) ∧
    ((mk up).Ready ∧
      (¬((mk up).dev.twn.present = true ∧ (mk up).dev.twn.pFlags.testBit 1 = true ∧ (mk up).dev.planValid = true ∧ (mk up).dev.div.plan ≠
        []))) ∧
    (stAskFw.Ready ∧ stAskFw.dev.twnOn = true ∧ stAskFw.dev.twn.pFlags.testBit 4 = true ∧ stAskFw.dev.div.firmware ≠ []) := by
  and_intros <;> first
   
    | exact ready_of (by decide +kernel)
    | exact trusts_of (by decide +kernel)
    | exact open_of (by decide +kernel)
    | exact accepts_of (by decide +kernel)
    | decide +kernel

theorem witness_TwinTransfers_2 :
    ((mk up).Ready ∧ (¬((mk up).dev.twnOn = true ∧ (mk up).dev.twn.pFlags.testBit 4 = true ∧ (mk up).dev.div.firmware ≠ []))) ∧
    (stRom.Ready ∧ stRom.dev.sys.waitTwin = true) ∧
    ((mk up).Ready ∧ (mk up).dev.sys.waitTwin = false) ∧
    (stAlone.Ready ∧ stAlone.dev.Accepts 5 fChunk (fr fChunk) ∧
      (16 ≤ (fr fChunk).body.length ∧ (List.drop 16 (fr fChunk).body).length ≤ 8192 ∧ fWord (fr fChunk).body 2 2 = 0 ∧ 1 ≤ fByte (fr
        fChunk).body 0 ∧ fByte (fr fChunk).body 0 ≤ 5 ∧ (stAlone.dev.twnOn = true ∨ fByte (fr fChunk).body 0 = 5))) ∧
    (stPair.Ready ∧ stPair.dev.Accepts 5 (chunkIn 0 3 0 wordsIn) (fr (chunkIn 0 3 0 wordsIn)) ∧
      (¬(16 ≤ (fr (chunkIn 0 3 0 wordsIn)).body.length ∧ (List.drop 16 (fr (chunkIn 0 3 0 wordsIn)).body).length ≤ 8192 ∧ fWord (fr
        (chunkIn 0 3 0 wordsIn)).body 2 2 = 0 ∧ 1 ≤ fByte (fr (chunkIn 0 3 0 wordsIn)).body 0 ∧ fByte (fr (chunkIn 0 3 0 wordsIn)).body 0 ≤
        5 ∧ (stPair.dev.twnOn = true ∨ fByte (fr (chunkIn 0 3 0 wordsIn)).body 0 = 5)))) ∧
    (stAlone.Ready ∧ stAlone.dev.Accepts 6 fCommit (fr fCommit) ∧
      List.find? (fun y => decide (y.content = fByte (fr fCommit).body 0 ∧ y.part = fByte (fr fCommit).body 1 ∧ y.id = fWord (fr
        fCommit).body 4 4)) stAlone.dev.twn.xfers = none) ∧
    (stXfer.Ready ∧ stXfer.dev.Accepts 6 fCommitBad (fr fCommitBad) ∧
      List.find? (fun y => decide (y.content = fByte (fr fCommitBad).body 0 ∧ y.part = fByte (fr fCommitBad).body 1 ∧ y.id = fWord (fr
        fCommitBad).body 4 4)) stXfer.dev.twn.xfers = some (xferOf stXfer) ∧
      (¬((fr fCommitBad).body.length = 48 ∧ fWord (fr fCommitBad).body 8 8 = (xferOf stXfer).count ∧ crc32c (getBytes (xferOf stXfer).data
        0 (xferOf stXfer).count) = fWord (fr fCommitBad).body 16 4))) := by
  and_intros <;> first
   
    | exact ready_of (by decide +kernel)
    | exact trusts_of (by decide +kernel)
    | exact open_of (by decide +kernel)
    | exact accepts_of (by decide +kernel)
    | decide +kernel

theorem witness_TwinTransfers_3 :
    (stGetEpoch.Ready ∧ stGetEpoch.dev.Accepts 6 (commitOf 1 0 wordsIn) (fr (commitOf 1 0 wordsIn)) ∧
      List.find? (fun y => decide (y.content = fByte (fr (commitOf 1 0 wordsIn)).body 0 ∧ y.part = fByte (fr (commitOf 1 0 wordsIn)).body 1
        ∧ y.id = fWord (fr (commitOf 1 0 wordsIn)).body 4 4)) stGetEpoch.dev.twn.xfers = some (xferOf stGetEpoch) ∧
      (fr (commitOf 1 0 wordsIn)).body.length = 48 ∧ fWord (fr (commitOf 1 0 wordsIn)).body 8 8 = (xferOf stGetEpoch).count ∧ crc32c
        (getBytes (xferOf stGetEpoch).data 0 (xferOf stGetEpoch).count) = fWord (fr (commitOf 1 0 wordsIn)).body 16 4 ∧
      fByte (fr (commitOf 1 0 wordsIn)).body 0 = 1) ∧
    (stGetNoEpoch.Ready ∧ stGetNoEpoch.dev.Accepts 6 (commitOf 1 0 wordsIn) (fr (commitOf 1 0 wordsIn)) ∧
      List.find? (fun y => decide (y.content = fByte (fr (commitOf 1 0 wordsIn)).body 0 ∧ y.part = fByte (fr (commitOf 1 0 wordsIn)).body 1
        ∧ y.id = fWord (fr (commitOf 1 0 wordsIn)).body 4 4)) stGetNoEpoch.dev.twn.xfers = some (xferOf stGetNoEpoch) ∧
      (fr (commitOf 1 0 wordsIn)).body.length = 48 ∧ fWord (fr (commitOf 1 0 wordsIn)).body 8 8 = (xferOf stGetNoEpoch).count ∧ crc32c
        (getBytes (xferOf stGetNoEpoch).data 0 (xferOf stGetNoEpoch).count) = fWord (fr (commitOf 1 0 wordsIn)).body 16 4 ∧
      fByte (fr (commitOf 1 0 wordsIn)).body 0 = 1) ∧
    (stXfer.Ready ∧ stXfer.dev.Accepts 6 fCommit (fr fCommit) ∧
      List.find? (fun y => decide (y.content = fByte (fr fCommit).body 0 ∧ y.part = fByte (fr fCommit).body 1 ∧ y.id = fWord (fr
        fCommit).body 4 4)) stXfer.dev.twn.xfers = some (xferOf stXfer) ∧
      (fr fCommit).body.length = 48 ∧ fWord (fr fCommit).body 8 8 = (xferOf stXfer).count ∧ crc32c (getBytes (xferOf stXfer).data 0 (xferOf
        stXfer).count) = fWord (fr fCommit).body 16 4 ∧ fByte (fr fCommit).body 0 = 2) ∧
    (stGetPlan.Ready ∧ stGetPlan.dev.Accepts 6 (commitOf 3 0 planImage) (fr (commitOf 3 0 planImage)) ∧
      List.find? (fun y => decide (y.content = fByte (fr (commitOf 3 0 planImage)).body 0 ∧ y.part = fByte (fr (commitOf 3 0
        planImage)).body 1 ∧ y.id = fWord (fr (commitOf 3 0 planImage)).body 4 4)) stGetPlan.dev.twn.xfers = some (xferOf stGetPlan) ∧
      (fr (commitOf 3 0 planImage)).body.length = 48 ∧ fWord (fr (commitOf 3 0 planImage)).body 8 8 = (xferOf stGetPlan).count ∧ crc32c
        (getBytes (xferOf stGetPlan).data 0 (xferOf stGetPlan).count) = fWord (fr (commitOf 3 0 planImage)).body 16 4 ∧
      (fByte (fr (commitOf 3 0 planImage)).body 0 = 3 ∨ fByte (fr (commitOf 3 0 planImage)).body 0 = 4) ∧
      (stGetPlan.dev.straps.bootSel = 2 ∧ stGetPlan.dev.sys.phase = 2 ∧ stGetPlan.dev.imgBusy = false ∧ (fByte (fr (commitOf 3 0
        planImage)).body 0 = 3 ∧ stGetPlan.dev.planValid = false ∨ fByte (fr (commitOf 3 0 planImage)).body 0 = 4))) ∧
    (stGetPlanNo.Ready ∧ stGetPlanNo.dev.Accepts 6 (commitOf 3 0 planImage) (fr (commitOf 3 0 planImage)) ∧
      List.find? (fun y => decide (y.content = fByte (fr (commitOf 3 0 planImage)).body 0 ∧ y.part = fByte (fr (commitOf 3 0
        planImage)).body 1 ∧ y.id = fWord (fr (commitOf 3 0 planImage)).body 4 4)) stGetPlanNo.dev.twn.xfers = some (xferOf stGetPlanNo) ∧
      (fr (commitOf 3 0 planImage)).body.length = 48 ∧ fWord (fr (commitOf 3 0 planImage)).body 8 8 = (xferOf stGetPlanNo).count ∧ crc32c
        (getBytes (xferOf stGetPlanNo).data 0 (xferOf stGetPlanNo).count) = fWord (fr (commitOf 3 0 planImage)).body 16 4 ∧
      (fByte (fr (commitOf 3 0 planImage)).body 0 = 3 ∨ fByte (fr (commitOf 3 0 planImage)).body 0 = 4) ∧
      (¬(stGetPlanNo.dev.straps.bootSel = 2 ∧ stGetPlanNo.dev.sys.phase = 2 ∧ stGetPlanNo.dev.imgBusy = false ∧ (fByte (fr (commitOf 3 0
        planImage)).body 0 = 3 ∧ stGetPlanNo.dev.planValid = false ∨ fByte (fr (commitOf 3 0 planImage)).body 0 = 4)))) ∧
    (stGetDiv.Ready ∧ stGetDiv.dev.Accepts 6 (commitOf 4 1 badDiv) (fr (commitOf 4 1 badDiv)) ∧
      List.find? (fun y => decide (y.content = fByte (fr (commitOf 4 1 badDiv)).body 0 ∧ y.part = fByte (fr (commitOf 4 1 badDiv)).body 1 ∧
        y.id = fWord (fr (commitOf 4 1 badDiv)).body 4 4)) stGetDiv.dev.twn.xfers = some (xferOf stGetDiv) ∧
      (fr (commitOf 4 1 badDiv)).body.length = 48 ∧ fWord (fr (commitOf 4 1 badDiv)).body 8 8 = (xferOf stGetDiv).count ∧ crc32c (getBytes
        (xferOf stGetDiv).data 0 (xferOf stGetDiv).count) = fWord (fr (commitOf 4 1 badDiv)).body 16 4 ∧
      fByte (fr (commitOf 4 1 badDiv)).body 0 = 4 ∧
      (stGetDiv.dev.straps.bootSel = 2 ∧ stGetDiv.dev.sys.phase = 2 ∧ stGetDiv.dev.imgBusy = false ∧ (fByte (fr (commitOf 4 1 badDiv)).body
        0 = 3 ∧ stGetDiv.dev.planValid = false ∨ fByte (fr (commitOf 4 1 badDiv)).body 0 = 4)) ∧
      headerOk (getBytes (xferOf stGetDiv).data 0 (xferOf stGetDiv).count) = false ∧
      imgKind (getBytes (xferOf stGetDiv).data 0 (xferOf stGetDiv).count) = 2) ∧
    (stGetFwNo.Ready ∧ stGetFwNo.dev.Accepts 6 (commitOf 5 0 planImage) (fr (commitOf 5 0 planImage)) ∧
      List.find? (fun y => decide (y.content = fByte (fr (commitOf 5 0 planImage)).body 0 ∧ y.part = fByte (fr (commitOf 5 0
        planImage)).body 1 ∧ y.id = fWord (fr (commitOf 5 0 planImage)).body 4 4)) stGetFwNo.dev.twn.xfers = some (xferOf stGetFwNo) ∧
      (fr (commitOf 5 0 planImage)).body.length = 48 ∧ fWord (fr (commitOf 5 0 planImage)).body 8 8 = (xferOf stGetFwNo).count ∧ crc32c
        (getBytes (xferOf stGetFwNo).data 0 (xferOf stGetFwNo).count) = fWord (fr (commitOf 5 0 planImage)).body 16 4 ∧
      fByte (fr (commitOf 5 0 planImage)).body 0 = 5 ∧
      (¬((stGetFwNo.dev.twn.xfers.any fun z => z.content == 5 && z.inOrder) = true ∧ stGetFwNo.dev.sys.waitTwin = true))) := by
  and_intros <;> first
   
    | exact ready_of (by decide +kernel)
    | exact trusts_of (by decide +kernel)
    | exact open_of (by decide +kernel)
    | exact accepts_of (by decide +kernel)
    | decide +kernel

set_option maxRecDepth 20000 in
theorem witness_TwinTransfers_4 :
    (stGetFw.Ready ∧ stGetFw.dev.Accepts 6 fwCommit (fr fwCommit) ∧
      List.find? (fun y => decide (y.content = fByte (fr fwCommit).body 0 ∧ y.part = fByte (fr fwCommit).body 1 ∧ y.id = fWord (fr
        fwCommit).body 4 4)) stGetFw.dev.twn.xfers = some (xferOf stGetFw) ∧
      (fr fwCommit).body.length = 48 ∧ fWord (fr fwCommit).body 8 8 = (xferOf stGetFw).count ∧ crc32c (getBytes (xferOf stGetFw).data 0
        (xferOf stGetFw).count) = fWord (fr fwCommit).body 16 4 ∧ fByte (fr fwCommit).body 0 = 5 ∧
      (stGetFw.dev.twn.xfers.any fun z => z.content == 5 && z.inOrder) = true ∧ stGetFw.dev.sys.waitTwin = true ∧
      stGetFw.dev.sys.phase = 0 ∧
      ((leftOf stGetFw (fr fwCommit)).takeFirmware 2 0 (some (getBytes (xferOf stGetFw).data 0 (xferOf stGetFw).count))).snd.status =
        stImgDone) ∧
    (stGetFwBad.Ready ∧ stGetFwBad.dev.Accepts 6 (commitOf 5 0 badDiv) (fr (commitOf 5 0 badDiv)) ∧
      List.find? (fun y => decide (y.content = fByte (fr (commitOf 5 0 badDiv)).body 0 ∧ y.part = fByte (fr (commitOf 5 0 badDiv)).body 1 ∧
        y.id = fWord (fr (commitOf 5 0 badDiv)).body 4 4)) stGetFwBad.dev.twn.xfers = some (xferOf stGetFwBad) ∧
      (fr (commitOf 5 0 badDiv)).body.length = 48 ∧ fWord (fr (commitOf 5 0 badDiv)).body 8 8 = (xferOf stGetFwBad).count ∧ crc32c
        (getBytes (xferOf stGetFwBad).data 0 (xferOf stGetFwBad).count) = fWord (fr (commitOf 5 0 badDiv)).body 16 4 ∧
      fByte (fr (commitOf 5 0 badDiv)).body 0 = 5 ∧
      (stGetFwBad.dev.twn.xfers.any fun z => z.content == 5 && z.inOrder) = true ∧ stGetFwBad.dev.sys.waitTwin = true ∧
      stGetFwBad.dev.sys.phase = 0 ∧ imgKind (getBytes (xferOf stGetFwBad).data 0 (xferOf stGetFwBad).count) < 4 ∧
      ((leftOf stGetFwBad (fr (commitOf 5 0 badDiv))).takeFirmware 2 0 (some (getBytes (xferOf stGetFwBad).data 0 (xferOf
        stGetFwBad).count))).snd.status ≠ stImgDone) ∧
    (stGetFw1.Ready ∧ stGetFw1.dev.Accepts 6 fwCommit (fr fwCommit) ∧
      List.find? (fun y => decide (y.content = fByte (fr fwCommit).body 0 ∧ y.part = fByte (fr fwCommit).body 1 ∧ y.id = fWord (fr
        fwCommit).body 4 4)) stGetFw1.dev.twn.xfers = some (xferOf stGetFw1) ∧
      (fr fwCommit).body.length = 48 ∧ fWord (fr fwCommit).body 8 8 = (xferOf stGetFw1).count ∧ crc32c (getBytes (xferOf stGetFw1).data 0
        (xferOf stGetFw1).count) = fWord (fr fwCommit).body 16 4 ∧ fByte (fr fwCommit).body 0 = 5 ∧
      (stGetFw1.dev.twn.xfers.any fun z => z.content == 5 && z.inOrder) = true ∧ stGetFw1.dev.sys.waitTwin = true ∧
      stGetFw1.dev.sys.phase = 1 ∧ stGetFw1.dev.populated ≠ 0) ∧
    ((mk up).Ready ∧ (mk up).dev.twn.putOff = none) ∧
    (stPutOff.Ready ∧ stPutOff.dev.twn.putOff = some []) := by
  and_intros <;> first
   
    | exact ready_of (by decide +kernel)
    | exact trusts_of (by decide +kernel)
    | exact open_of (by decide +kernel)
    | exact accepts_of (by decide +kernel)
    | decide +kernel

theorem witness_DistrictMembers :
    (stDst.Ready ∧ stDst.dev.dstOn = true ∧ (fDistrict 3).length = 36 + 4 * fWord (fDistrict 3) 26 2 * stDst.dev.L ∧
      fWord (fDistrict 3) 26 2 ≤ 64 ∧ fWord (fDistrict 3) 0 4 = 1178881091 ∧ fWord (fDistrict 3) 4 2 = 1 ∧ fByte (fDistrict 3) 6 < 8 ∧
      fByte (fDistrict 3) 6 ≠ stDst.dev.dstMember ∧ fWord (fDistrict 3) 10 2 = stDst.dev.fld Off.TWN_DST_CFG 15 0 ∧
      crc32c (List.take (32 + 4 * fWord (fDistrict 3) 26 2 * stDst.dev.L) (fDistrict 3)) = fWord (fDistrict 3) (32 + 4 * fWord (fDistrict
        3) 26 2 * stDst.dev.L) 4 ∧ fWord (fDistrict 3) 28 4 % 256 = 0 ∧ stDst.dev.twn.lead ≠ fByte (fDistrict 3) 6 + 1 ∧
      fByte (fDistrict 3) 9 % 2 = 0 ∧ (∃ e, e < 4 ∧ stDst.dev.linkUp e = true) ∧ mwf (fun _ => 0) stDst.dev.twn.memberAt = true ∧
      mwf (fun _ => 0) stDst.dev.twn.memberHealth = true) ∧
    (stDst.Ready ∧ stDst.dev.dstOn = true ∧
      ((fDistrict 0).length < 36 ∨ fWord (fDistrict 0) 0 4 ≠ 1178881091 ∨ 8 ≤ fByte (fDistrict 0) 6 ∨ fByte (fDistrict 0) 6 =
        stDst.dev.dstMember ∨ ∀ (e : Nat), e < 4 → stDst.dev.linkUp e = false)) ∧
    (stDstQuiet.Ready ∧ stDstQuiet.dev.dstOn = true ∧ 3 < 8 ∧ mget (fun _ => 0) stDstQuiet.dev.twn.memberAt 3 ≠ 0 ∧
      (¬3 ∈ stDstQuiet.dev.twn.absent) ∧ mget (fun _ => 0) stDstQuiet.dev.twn.memberAt 3 + 7 ≤ stDstQuiet.dev.clk.tick) ∧
    (stDstBack.Ready ∧ stDstBack.dev.dstOn = true ∧ 3 < 8 ∧ mget (fun _ => 0) stDstBack.dev.twn.memberAt 3 ≠ 0 ∧
      3 ∈ stDstBack.dev.twn.absent ∧ stDstBack.dev.clk.tick < mget (fun _ => 0) stDstBack.dev.twn.memberAt 3 + 7) := by
  and_intros <;> first
   
    | exact ready_of (by decide +kernel)
    | exact trusts_of (by decide +kernel)
    | exact open_of (by decide +kernel)
    | decide +kernel

theorem witness_SdramEnableAndUpkeep :
    ((mk up).Ready ∧ 1 < 2 ∧ mwf (fun _ => DmcCh.init) (mk up).dev.dmc = true ∧ (mk up).Trusts (Master.steward true) (Off.DMC_CTL 1) ∧
      BitVec.getLsbD (4286578688 : Word) 31 = true ∧ (∃ w, w < 16 ∧ (mk up).dev.tsetWord (mk up).dev.dmcSetB 1 w = 0)) ∧
    (stTset0.Ready ∧ 0 < 2 ∧ mwf (fun _ => DmcCh.init) stTset0.dev.dmc = true ∧ stTset0.Trusts (Master.dma true) (Off.DMC_CTL 0) ∧
      BitVec.getLsbD (2147483649 : Word) 31 = true ∧ stTset0.dev.dmcEn 0 = false ∧
      (∀ (w : Nat), w < 16 → stTset0.dev.tsetWord stTset0.dev.dmcSetB 0 w ≠ 0) ∧
      dmcConfigOk (getBits 2147483649 25 24) (getBits 2147483649 23 23) = true ∧
      (stTset0.dev.dmcEn (1 - 0) = false ∨ getBits 2147483649 25 23 = stTset0.dev.fld (Off.DMC_CTL (1 - 0)) 25 23) ∧
      (stTset0.dev.dch 0).stalled = []) ∧
    (stTset.Ready ∧ 0 < 2 ∧ mwf (fun _ => DmcCh.init) stTset.dev.dmc = true ∧ stTset.Trusts (Master.steward true) (Off.DMC_CTL 0) ∧
      BitVec.getLsbD (3190839028 : Word) 31 = true ∧ stTset.dev.dmcEn 0 = false ∧
      (∀ (w : Nat), w < 16 → stTset.dev.tsetWord stTset.dev.dmcSetB 0 w ≠ 0) ∧
      (dmcConfigOk (getBits 3190839028 25 24) (getBits 3190839028 23 23) = false ∨ stTset.dev.dmcEn (1 - 0) = true ∧ getBits 3190839028 25
        23 ≠ stTset.dev.fld (Off.DMC_CTL (1 - 0)) 25 23)) ∧
    (stDmc.Ready ∧ 0 < 2 ∧ mwf (fun _ => DmcCh.init) stDmc.dev.dmc = true ∧ stDmc.Trusts (Master.steward true) (Off.DMC_CTL 0) ∧
      BitVec.getLsbD (2155872256 : Word) 31 = true ∧ stDmc.dev.dmcEn 0 = true ∧
      (dmcConfigOk (getBits 2155872256 25 24) (getBits 2155872256 23 23) = false ∨ stDmc.dev.dmcEn (1 - 0) = true ∧ getBits 2155872256 25
        23 ≠ stDmc.dev.fld (Off.DMC_CTL (1 - 0)) 25 23)) ∧
    (stDmc.Ready ∧ 0 < 2 ∧ mwf (fun _ => DmcCh.init) stDmc.dev.dmc = true ∧ stDmc.Trusts (Master.steward true) (Off.DMC_CTL 0) ∧
      BitVec.getLsbD (2181038080 : Word) 31 = true ∧ stDmc.dev.dmcEn 0 = true ∧
      (dmcConfigOk (getBits 2181038080 25 24) (getBits 2181038080 23 23) = false ∨ stDmc.dev.dmcEn (1 - 0) = true ∧ getBits 2181038080 25
        23 ≠ stDmc.dev.fld (Off.DMC_CTL (1 - 0)) 25 23)) ∧
    (stDmc.Ready ∧ 0 < 2 ∧ mwf (fun _ => DmcCh.init) stDmc.dev.dmc = true ∧ stDmc.Trusts (Master.steward true) (Off.DMC_CTL 0) ∧
      BitVec.getLsbD (3221225472 : Word) 31 = true ∧ stDmc.dev.dmcEn 0 = true ∧
      (∀ (w : Nat), w < 16 → stDmc.dev.tsetWord stDmc.dev.dmcSetB 0 w ≠ 0) ∧
      dmcConfigOk (getBits 3221225472 25 24) (getBits 3221225472 23 23) = true ∧
      (stDmc.dev.dmcEn (1 - 0) = false ∨ getBits 3221225472 25 23 = stDmc.dev.fld (Off.DMC_CTL (1 - 0)) 25 23)) ∧
    (stDmc.Ready ∧ 1 < 2 ∧ mwf (fun _ => DmcCh.init) stDmc.dev.dmc = true ∧ stDmc.Trusts (Master.steward true) (Off.DMC_CTL 1) ∧
      BitVec.getLsbD (3 : Word) 31 = false) ∧
    (stDmcPwr.Ready ∧ 1 < 2 ∧ mwf (fun _ => DmcCh.init) stDmcPwr.dev.dmc = true ∧ stDmcPwr.Trusts (Master.steward true) (Off.DMC_PWR 0) ∧
      stDmcPwr.dev.dmcSetB = !true ∧ stDmcPwr.dev.bit (Off.DMC_PWR 0) 0 = true ∧ stDmcPwr.dev.rendering = false) ∧
    (stDmcPwrB.Ready ∧ 1 < 2 ∧ mwf (fun _ => DmcCh.init) stDmcPwrB.dev.dmc = true ∧
      stDmcPwrB.Trusts (Master.steward true) (Off.DMC_PWR 0) ∧ stDmcPwrB.dev.dmcSetB = !false ∧
      stDmcPwrB.dev.bit (Off.DMC_PWR 0) 0 = true ∧ stDmcPwrB.dev.rendering = true) ∧
    (stDmc.Ready ∧ 1 < 2 ∧ mwf (fun _ => DmcCh.init) stDmc.dev.dmc = true ∧ stDmc.dev.dmcEn 1 = true ∧ stDmc.dev.dmcRefDue 1 1 = false) ∧
    (stRefOwed.Ready ∧ 0 < 2 ∧ mwf (fun _ => DmcCh.init) stRefOwed.dev.dmc = true ∧ stRefOwed.dev.dmcEn 0 = true ∧
      stRefOwed.dev.dmcRefDue 0 0 = true ∧ mwf (fun _ => 0) (stRefOwed.dev.dch 0).owed = true ∧
      mwf (fun _ => 0) (stRefOwed.dev.dch 0).refAt = true ∧ (stRefOwed.dev.dch 0).holdTo ≤ stRefOwed.dev.nsNow ∧
      ((¬∃ r, r ∈ (stRefOwed.dev.dch 0).rq ++ (stRefOwed.dev.dch 0).wq ∧ stRefOwed.dev.dmcRank 0 r.granule = 0) ∨ 4 ≤ mget (fun _ => 0)
        (stRefOwed.dev.dch 0).owed 0)) ∧
    (stRefresh.Ready ∧ 0 < 2 ∧ mwf (fun _ => DmcCh.init) stRefresh.dev.dmc = true ∧ stRefresh.dev.dmcEn 0 = true ∧
      stRefresh.dev.dmcRefDue 0 0 = true ∧ mwf (fun _ => 0) (stRefresh.dev.dch 0).owed = true ∧
      mwf (fun _ => 0) (stRefresh.dev.dch 0).refAt = true ∧ (stRefresh.dev.dch 0).holdTo ≤ stRefresh.dev.nsNow ∧
      ((¬∃ r, r ∈ (stRefresh.dev.dch 0).rq ++ (stRefresh.dev.dch 0).wq ∧ stRefresh.dev.dmcRank 0 r.granule = 0) ∨ 4 ≤ mget (fun _ => 0)
        (stRefresh.dev.dch 0).owed 0)) ∧
    (stRefBusy.Ready ∧ 0 < 2 ∧ mwf (fun _ => DmcCh.init) stRefBusy.dev.dmc = true ∧ stRefBusy.dev.dmcEn 0 = true ∧
      stRefBusy.dev.dmcRefDue 0 0 = true ∧ mwf (fun _ => 0) (stRefBusy.dev.dch 0).owed = true ∧
      mwf (fun _ => 0) (stRefBusy.dev.dch 0).refAt = true ∧
      (stRefBusy.dev.nsNow < (stRefBusy.dev.dch 0).holdTo ∨ (∃ r, r ∈ (stRefBusy.dev.dch 0).rq ++ (stRefBusy.dev.dch 0).wq ∧
        stRefBusy.dev.dmcRank 0 r.granule = 0) ∧ mget (fun _ => 0) (stRefBusy.dev.dch 0).owed 0 < 4)) ∧
    (stRefHeld.Ready ∧ 0 < 2 ∧ mwf (fun _ => DmcCh.init) stRefHeld.dev.dmc = true ∧ stRefHeld.dev.dmcEn 0 = true ∧
      stRefHeld.dev.dmcRefDue 0 0 = true ∧ mwf (fun _ => 0) (stRefHeld.dev.dch 0).owed = true ∧
      mwf (fun _ => 0) (stRefHeld.dev.dch 0).refAt = true ∧
      (stRefHeld.dev.nsNow < (stRefHeld.dev.dch 0).holdTo ∨ (∃ r, r ∈ (stRefHeld.dev.dch 0).rq ++ (stRefHeld.dev.dch 0).wq ∧
        stRefHeld.dev.dmcRank 0 r.granule = 0) ∧ mget (fun _ => 0) (stRefHeld.dev.dch 0).owed 0 < 4)) ∧
    (stRefresh.Ready ∧ 0 < 2 ∧ mwf (fun _ => DmcCh.init) stRefresh.dev.dmc = true ∧ stRefresh.dev.dmcEn 0 = true ∧ 3 < 256 ∧
      mget (fun _ => 0) (stRefresh.dev.dch 0).mr4At 0 + ms32 ≤ stRefresh.dev.nsNow ∧ mwf (fun _ => 0) (stRefresh.dev.dch 0).mr4 = true) ∧
    (stDmc.Ready ∧ 1 < 2 ∧ mwf (fun _ => DmcCh.init) stDmc.dev.dmc = true ∧ stDmc.dev.dmcEn 1 = true ∧ 1 < 256 ∧
      (¬mget (fun _ => 0) (stDmc.dev.dch 1).mr4At 1 + ms32 ≤ stDmc.dev.nsNow)) ∧
    (stDmc.Ready ∧ 1 < 2 ∧ mwf (fun _ => DmcCh.init) stDmc.dev.dmc = true ∧ stDmc.dev.dmcEn 1 = true ∧
      stDmc.dev.nsNow < (stDmc.dev.dch 1).winAt + ms32) ∧
    (stRefBusy.Ready ∧ 0 < 2 ∧ mwf (fun _ => DmcCh.init) stRefBusy.dev.dmc = true ∧ stRefBusy.dev.dmcEn 0 = true ∧
      (stRefBusy.dev.dch 0).winAt + ms32 ≤ stRefBusy.dev.nsNow) ∧
    (stDmc.Ready ∧ 1 < 2 ∧ mwf (fun _ => DmcCh.init) stDmc.dev.dmc = true ∧ stDmc.dev.dmcEn 1 = true ∧
      stDmc.dev.nsNow < (stDmc.dev.dch 1).trackAt + stDmc.dev.dmcTrackNs 1) ∧
    (stRefresh.Ready ∧ 0 < 2 ∧ mwf (fun _ => DmcCh.init) stRefresh.dev.dmc = true ∧ stRefresh.dev.dmcEn 0 = true ∧
      (stRefresh.dev.dch 0).trackAt + stRefresh.dev.dmcTrackNs 0 ≤ stRefresh.dev.nsNow) ∧
    (stDmc.Ready ∧ 1 < 2 ∧ mwf (fun _ => DmcCh.init) stDmc.dev.dmc = true ∧ stDmc.dev.dmcEn 1 = true ∧
      (stDmc.dev.bit (Off.DMC_CTL 1) 28 = false ∨ stDmc.dev.dmcScrubDue 1 = false)) ∧
    (stScrub.Ready ∧ 0 < 2 ∧ mwf (fun _ => DmcCh.init) stScrub.dev.dmc = true ∧ stScrub.dev.dmcEn 0 = true ∧
      stScrub.dev.bit (Off.DMC_CTL 0) 28 = true ∧ stScrub.dev.dmcScrubDue 0 = true ∧
      (∀ (w : DmcStall), w ∈ (stScrub.dev.dch 0).stalled → w.req ≠ 13) ∧ (stScrub.dev.dch 0).rq.length < 64) ∧
    (stDmc.Ready ∧ 1 < 2 ∧ mwf (fun _ => DmcCh.init) stDmc.dev.dmc = true ∧ stDmc.dev.dmcEn 1 = true ∧
      (stDmc.dev.dmcIdle 1 1 = false ∨ (∃ r, r ∈ (stDmc.dev.dch 1).rq ++ (stDmc.dev.dch 1).wq ∧ stDmc.dev.dmcRank 1 r.granule = 1) ∨ ∃ w, w
        ∈ (stDmc.dev.dch 1).stalled ∧ stDmc.dev.dmcRank 1 w.granule = 1)) ∧
    (stDown.Ready ∧ 0 < 2 ∧ mwf (fun _ => DmcCh.init) stDown.dev.dmc = true ∧ stDown.dev.dmcEn 0 = true ∧
      stDown.dev.bit (Off.DMC_PWR 0) 0 = true ∧ stDown.dev.dmcIdle 0 0 = true ∧
      (¬((∃ r, r ∈ (stDown.dev.dch 0).rq ++ (stDown.dev.dch 0).wq ∧ stDown.dev.dmcRank 0 r.granule = 0) ∨ ∃ w, w ∈ (stDown.dev.dch
        0).stalled ∧ stDown.dev.dmcRank 0 w.granule = 0)) ∧ (¬0 ∈ (stDown.dev.dch 0).pd)) := by
  and_intros <;> first
   
    | exact ready_of (by decide +kernel)
    | exact trusts_of (by decide +kernel)
    | exact open_of (by decide +kernel)
    | decide +kernel

theorem witness_SdramRequestsAndReturns :
    (stDmc.Ready ∧ 0 < 2 ∧ 1 < 14 ∧ mwf (fun _ => DmcCh.init) stDmc.dev.dmc = true ∧ mwf (fun _ => 0) stDmc.dev.sdram = true ∧
      (stDmc.dev.dmcEn (granuleCh 65535) = true ∧ ∀ (w : DmcStall), w ∈ (stDmc.dev.dch (granuleCh 65535)).stalled → w.req ≠ 1) ∧
      (stDmc.dev.dch (granuleCh 65535)).rq.length < 64) ∧
    ((mk up).Ready ∧ 0 < 2 ∧ 1 < 14 ∧ mwf (fun _ => DmcCh.init) (mk up).dev.dmc = true ∧ mwf (fun _ => 0) (mk up).dev.sdram = true ∧
      (¬((mk up).dev.dmcEn (granuleCh 65535) = true ∧ ∀ (w : DmcStall), w ∈ ((mk up).dev.dch (granuleCh 65535)).stalled → w.req ≠ 1) ∨ 64 ≤
        ((mk up).dev.dch (granuleCh 65535)).rq.length)) ∧
    (stDmc.Ready ∧ 0 < 2 ∧ 1 < 14 ∧ mwf (fun _ => DmcCh.init) stDmc.dev.dmc = true ∧ mwf (fun _ => 0) stDmc.dev.sdram = true ∧
      seq128.length = 128 ∧
      (stDmc.dev.dmcEn (granuleCh 65535) = true ∧ ∀ (w : DmcStall), w ∈ (stDmc.dev.dch (granuleCh 65535)).stalled → w.req ≠ 1) ∧
      (∀ (r : DmcReq), r ∈ (stDmc.dev.dch (granuleCh 65535)).wq → joinable 65535 r = false) ∧
      (stDmc.dev.dch (granuleCh 65535)).wq.length < 32) ∧
    (stJoinable.Ready ∧ 0 < 2 ∧ 3 < 14 ∧ mwf (fun _ => DmcCh.init) stJoinable.dev.dmc = true ∧
      mwf (fun _ => 0) stJoinable.dev.sdram = true ∧ seq128.length = 128 ∧
      (stJoinable.dev.dmcEn (granuleCh 4) = true ∧ ∀ (w : DmcStall), w ∈ (stJoinable.dev.dch (granuleCh 4)).stalled → w.req ≠ 3) ∧
      (∃ r, r ∈ (stJoinable.dev.dch (granuleCh 4)).wq ∧ joinable 4 r = true)) ∧
    ((mk up).Ready ∧ 0 < 2 ∧ 1 < 14 ∧ mwf (fun _ => DmcCh.init) (mk up).dev.dmc = true ∧ mwf (fun _ => 0) (mk up).dev.sdram = true ∧
      seq128.length = 128 ∧
      (¬((mk up).dev.dmcEn (granuleCh 65535) = true ∧ ∀ (w : DmcStall), w ∈ ((mk up).dev.dch (granuleCh 65535)).stalled → w.req ≠ 1) ∨ (∀
        (r : DmcReq), r ∈ ((mk up).dev.dch (granuleCh 65535)).wq → joinable 65535 r = false) ∧ 32 ≤ ((mk up).dev.dch (granuleCh
        65535)).wq.length)) ∧
    (stDmcQ.Ready ∧ 0 < 2 ∧ mwf (fun _ => DmcCh.init) stDmcQ.dev.dmc = true ∧ stDmcQ.dev.dmcEn 0 = true ∧
      (stDmcQ.dev.dch 0).holdTo ≤ stDmcQ.dev.nsNow ∧ (∀ (k : Nat), mget (fun _ => 0) (stDmcQ.dev.dch 0).owed k ≤ 4) ∧
      (stDmcQ.dev.dch 0).stalled = [] ∧ stDmcQ.dev.fld (Off.DMC_RH_TH 0) 15 0 = 0 ∧ mwf (fun _ => 0) (stDmcQ.dev.dch 0).open_ = true ∧
      (stDmcQ.dev.dch 0).drain = false ∧ stDmcQ.dev.dmcPickRead 0 = some (rqOf stDmcQ 0)) ∧
    ((stWrites whole).Ready ∧ 0 < 2 ∧ mwf (fun _ => DmcCh.init) (stWrites whole).dev.dmc = true ∧ (stWrites whole).dev.dmcEn 0 = true ∧
      ((stWrites whole).dev.dch 0).holdTo ≤ (stWrites whole).dev.nsNow ∧
      (∀ (k : Nat), mget (fun _ => 0) ((stWrites whole).dev.dch 0).owed k ≤ 4) ∧ ((stWrites whole).dev.dch 0).stalled = [] ∧
      (stWrites whole).dev.fld (Off.DMC_RH_TH 0) 15 0 = 0 ∧ mwf (fun _ => 0) ((stWrites whole).dev.dch 0).open_ = true ∧
      ((stWrites whole).dev.dch 0).drain = true ∧ ((stWrites whole).dev.dch 0).wq = [whole, dq 3 9 1] ∧
      (stWrites whole).dev.dmcHeld 0 whole = false ∧ (whole.begun = true ∨ partBeats whole.strobes = [])) ∧
    ((stWrites part).Ready ∧ 0 < 2 ∧ mwf (fun _ => DmcCh.init) (stWrites part).dev.dmc = true ∧ (stWrites part).dev.dmcEn 0 = true ∧
      ((stWrites part).dev.dch 0).holdTo ≤ (stWrites part).dev.nsNow ∧
      (∀ (k : Nat), mget (fun _ => 0) ((stWrites part).dev.dch 0).owed k ≤ 4) ∧ ((stWrites part).dev.dch 0).stalled = [] ∧
      (stWrites part).dev.fld (Off.DMC_RH_TH 0) 15 0 = 0 ∧ mwf (fun _ => 0) ((stWrites part).dev.dch 0).open_ = true ∧
      ((stWrites part).dev.dch 0).drain = true ∧ ((stWrites part).dev.dch 0).wq = [part, dq 3 9 1] ∧
      (stWrites part).dev.dmcHeld 0 part = false ∧ part.begun = false ∧ partBeats part.strobes ≠ [] ∧
      (∀ (b : Nat), b < 16 → ¬16 * part.granule + b ∈ (stWrites part).dev.poison)) ∧
    (stRefBusy.Ready ∧ 0 < 2 ∧ mwf (fun _ => DmcCh.init) stRefBusy.dev.dmc = true ∧ stRefBusy.dev.dmcPickRead 0 = some (rqOf stRefBusy 0) ∧
      rqOf stRefBusy 1 ∈ (stRefBusy.dev.dch 0).rq ∧ (stRefBusy.dev.dch 0).waits (rqOf stRefBusy 1) = false ∧
      stRefBusy.dev.dmcHeld 0 (rqOf stRefBusy 1) = false ∧ (rqOf stRefBusy 1).at_ + 1000 ≤ stRefBusy.dev.nsNow) ∧
    (stDmcOpen.Ready ∧ 0 < 2 ∧ mwf (fun _ => DmcCh.init) stDmcOpen.dev.dmc = true ∧ stDmcOpen.dev.dmcPickRead 0 = some (rqOf stDmcOpen 1) ∧
      rqOf stDmcOpen 1 ∈ (stDmcOpen.dev.dch 0).rq ∧ (stDmcOpen.dev.dch 0).waits (rqOf stDmcOpen 1) = false ∧
      stDmcOpen.dev.dmcHeld 0 (rqOf stDmcOpen 1) = false ∧ stDmcOpen.dev.dmcOpen 0 (rqOf stDmcOpen 1) = true) ∧
    (stDmcFly.Ready ∧ 0 < 2 ∧ mwf (fun _ => DmcCh.init) stDmcFly.dev.dmc = true ∧
      (stDmcFly.dev.dch 0).nextReturn = some (rqOf stDmcFly 0) ∧
      (∀ (b : Nat), b < 16 → ¬16 * (rqOf stDmcFly 0).granule + b ∈ stDmcFly.dev.poison) ∧ (rqOf stDmcFly 0).granule < 2 ^ 29 ∧
      stDmcFly.dev.bit (Off.DMC_ECC_ADDR 0) 31 = false) ∧
    (mwf (fun _ => 0) act16 = true ∧ (mget (fun _ => 0) act16 3 ≠ 0 ∨ List.length act16 < 16)) ∧
    (mwf (fun _ => 0) act15 = true ∧ (mget (fun _ => 0) act15 99 ≠ 0 ∨ List.length act15 < 16) ∧ 3 ≠ 99) ∧
    (mwf (fun _ => 0) act16 = true ∧ mget (fun _ => 0) act16 99 = 0 ∧ 16 ≤ List.length act16) ∧
    ((stRows 1 0 [] []).Ready ∧ 0 < 2 ∧ mwf (fun _ => DmcCh.init) (stRows 1 0 [] []).dev.dmc = true ∧
      (stRows 1 0 [] []).dev.dmcEn 0 = true ∧ ((stRows 1 0 [] []).dev.dch 0).holdTo ≤ (stRows 1 0 [] []).dev.nsNow ∧
      (∀ (k : Nat), mget (fun _ => 0) ((stRows 1 0 [] []).dev.dch 0).owed k ≤ 4) ∧ ((stRows 1 0 [] []).dev.dch 0).stalled = [] ∧
      ((stRows 1 0 [] []).dev.dch 0).drain = false ∧ (stRows 1 0 [] []).dev.dmcPickRead 0 = some (dq 0 4 3) ∧
      (stRows 1 0 [] []).dev.dmcOpen 0 (dq 0 4 3) = false ∧ (stRows 1 0 [] []).dev.fld (Off.DMC_RH_TH 0) 15 0 ≠ 0 ∧ (dq 0 4 3).req < 14 ∧
      mwf (fun _ => []) ((stRows 1 0 [] []).dev.dch 0).acts = true ∧ mwf (fun _ => 0) ((stRows 1 0 [] []).dev.dch 0).lastIss = true ∧
      (stRows 1 0 [] []).dev.nsNow < ((stRows 1 0 [] []).dev.dch 0).winAt + ms32 ∧
      mget (fun _ => 0) (rhCount (mget (fun _ => []) ((stRows 1 0 [] []).dev.dch 0).acts ((stRows 1 0 [] []).dev.dmcBank 0 (dq 0 4
        3).granule)) ((stRows 1 0 [] []).dev.dmcRow 0 (dq 0 4 3).granule)) ((stRows 1 0 [] []).dev.dmcRow 0 (dq 0 4 3).granule) = (stRows 1
        0 [] []).dev.fld (Off.DMC_RH_TH 0) 15 0 ∧ (dq 0 4 3).req ≠ 13 ∧ ¬(stRows 1 0 [] []).dev.dmcPair 0 (dq 0 4 3) ∈ ((stRows 1 0 []
        []).dev.dch 0).thr) ∧
    ((stRows 5 95 [(0, [(0, 4)])] []).Ready ∧ 0 < 2 ∧ mwf (fun _ => DmcCh.init) (stRows 5 95 [(0, [(0, 4)])] []).dev.dmc = true ∧
      (stRows 5 95 [(0, [(0, 4)])] []).dev.dmcEn 0 = true ∧
      ((stRows 5 95 [(0, [(0, 4)])] []).dev.dch 0).holdTo ≤ (stRows 5 95 [(0, [(0, 4)])] []).dev.nsNow ∧
      (∀ (k : Nat), mget (fun _ => 0) ((stRows 5 95 [(0, [(0, 4)])] []).dev.dch 0).owed k ≤ 4) ∧
      ((stRows 5 95 [(0, [(0, 4)])] []).dev.dch 0).stalled = [] ∧ ((stRows 5 95 [(0, [(0, 4)])] []).dev.dch 0).drain = false ∧
      (stRows 5 95 [(0, [(0, 4)])] []).dev.dmcPickRead 0 = some (dq 0 4 3) ∧
      (stRows 5 95 [(0, [(0, 4)])] []).dev.dmcOpen 0 (dq 0 4 3) = false ∧
      (stRows 5 95 [(0, [(0, 4)])] []).dev.fld (Off.DMC_RH_TH 0) 15 0 ≠ 0 ∧ (dq 0 4 3).req < 14 ∧
      mwf (fun _ => []) ((stRows 5 95 [(0, [(0, 4)])] []).dev.dch 0).acts = true ∧
      mwf (fun _ => 0) ((stRows 5 95 [(0, [(0, 4)])] []).dev.dch 0).lastIss = true ∧
      (stRows 5 95 [(0, [(0, 4)])] []).dev.nsNow < ((stRows 5 95 [(0, [(0, 4)])] []).dev.dch 0).winAt + ms32 ∧
      mget (fun _ => 0) (rhCount (mget (fun _ => []) ((stRows 5 95 [(0, [(0, 4)])] []).dev.dch 0).acts ((stRows 5 95 [(0, [(0, 4)])]
        []).dev.dmcBank 0 (dq 0 4 3).granule)) ((stRows 5 95 [(0, [(0, 4)])] []).dev.dmcRow 0 (dq 0 4 3).granule)) ((stRows 5 95 [(0, [(0,
        4)])] []).dev.dmcRow 0 (dq 0 4 3).granule) = (stRows 5 95 [(0, [(0, 4)])] []).dev.fld (Off.DMC_RH_TH 0) 15 0 ∧ (dq 0 4 3).req ≠ 13
        ∧ ¬(stRows 5 95 [(0, [(0, 4)])] []).dev.dmcPair 0 (dq 0 4 3) ∈ ((stRows 5 95 [(0, [(0, 4)])] []).dev.dch 0).thr) ∧
    ((stRows 1 95 [] [192]).Ready ∧ 0 < 2 ∧ mwf (fun _ => DmcCh.init) (stRows 1 95 [] [192]).dev.dmc = true ∧
      (stRows 1 95 [] [192]).dev.dmcEn 0 = true ∧ ((stRows 1 95 [] [192]).dev.dch 0).holdTo ≤ (stRows 1 95 [] [192]).dev.nsNow ∧
      (∀ (k : Nat), mget (fun _ => 0) ((stRows 1 95 [] [192]).dev.dch 0).owed k ≤ 4) ∧ ((stRows 1 95 [] [192]).dev.dch 0).stalled = [] ∧
      ((stRows 1 95 [] [192]).dev.dch 0).drain = false ∧ (stRows 1 95 [] [192]).dev.dmcPickRead 0 = some (dq 0 4 3) ∧
      (stRows 1 95 [] [192]).dev.dmcOpen 0 (dq 0 4 3) = false ∧ (stRows 1 95 [] [192]).dev.fld (Off.DMC_RH_TH 0) 15 0 ≠ 0 ∧
      (dq 0 4 3).req < 14 ∧ mwf (fun _ => []) ((stRows 1 95 [] [192]).dev.dch 0).acts = true ∧
      mwf (fun _ => 0) ((stRows 1 95 [] [192]).dev.dch 0).lastIss = true ∧
      (stRows 1 95 [] [192]).dev.nsNow < ((stRows 1 95 [] [192]).dev.dch 0).winAt + ms32 ∧
      (¬(mget (fun _ => 0) (rhCount (mget (fun _ => []) ((stRows 1 95 [] [192]).dev.dch 0).acts ((stRows 1 95 [] [192]).dev.dmcBank 0 (dq 0
        4 3).granule)) ((stRows 1 95 [] [192]).dev.dmcRow 0 (dq 0 4 3).granule)) ((stRows 1 95 [] [192]).dev.dmcRow 0 (dq 0 4 3).granule) =
        (stRows 1 95 [] [192]).dev.fld (Off.DMC_RH_TH 0) 15 0 ∧ (dq 0 4 3).req ≠ 13 ∧ ¬(stRows 1 95 [] [192]).dev.dmcPair 0 (dq 0 4 3) ∈
        ((stRows 1 95 [] [192]).dev.dch 0).thr))) ∧
    ((stRows 2 95 [] []).Ready ∧ 0 < 2 ∧ mwf (fun _ => DmcCh.init) (stRows 2 95 [] []).dev.dmc = true ∧
      (stRows 2 95 [] []).dev.dmcEn 0 = true ∧ ((stRows 2 95 [] []).dev.dch 0).holdTo ≤ (stRows 2 95 [] []).dev.nsNow ∧
      (∀ (k : Nat), mget (fun _ => 0) ((stRows 2 95 [] []).dev.dch 0).owed k ≤ 4) ∧ ((stRows 2 95 [] []).dev.dch 0).stalled = [] ∧
      ((stRows 2 95 [] []).dev.dch 0).drain = false ∧ (stRows 2 95 [] []).dev.dmcPickRead 0 = some (dq 0 4 3) ∧
      (stRows 2 95 [] []).dev.dmcOpen 0 (dq 0 4 3) = false ∧ (stRows 2 95 [] []).dev.fld (Off.DMC_RH_TH 0) 15 0 ≠ 0 ∧ (dq 0 4 3).req < 14 ∧
      mwf (fun _ => []) ((stRows 2 95 [] []).dev.dch 0).acts = true ∧ mwf (fun _ => 0) ((stRows 2 95 [] []).dev.dch 0).lastIss = true ∧
      (stRows 2 95 [] []).dev.nsNow < ((stRows 2 95 [] []).dev.dch 0).winAt + ms32 ∧
      (¬(mget (fun _ => 0) (rhCount (mget (fun _ => []) ((stRows 2 95 [] []).dev.dch 0).acts ((stRows 2 95 [] []).dev.dmcBank 0 (dq 0 4
        3).granule)) ((stRows 2 95 [] []).dev.dmcRow 0 (dq 0 4 3).granule)) ((stRows 2 95 [] []).dev.dmcRow 0 (dq 0 4 3).granule) = (stRows
        2 95 [] []).dev.fld (Off.DMC_RH_TH 0) 15 0 ∧ (dq 0 4 3).req ≠ 13 ∧ ¬(stRows 2 95 [] []).dev.dmcPair 0 (dq 0 4 3) ∈ ((stRows 2 95 []
        []).dev.dch 0).thr))) ∧
    ((stRows 1 96 [] []).Ready ∧ 0 < 2 ∧ mwf (fun _ => DmcCh.init) (stRows 1 96 [] []).dev.dmc = true ∧
      (stRows 1 96 [] []).dev.dmcEn 0 = true ∧ ((stRows 1 96 [] []).dev.dch 0).holdTo ≤ (stRows 1 96 [] []).dev.nsNow ∧
      (∀ (k : Nat), mget (fun _ => 0) ((stRows 1 96 [] []).dev.dch 0).owed k ≤ 4) ∧ ((stRows 1 96 [] []).dev.dch 0).stalled = [] ∧
      ((stRows 1 96 [] []).dev.dch 0).drain = false ∧ (stRows 1 96 [] []).dev.dmcPickRead 0 = some (dq 0 4 3) ∧
      (stRows 1 96 [] []).dev.dmcOpen 0 (dq 0 4 3) = false ∧ (stRows 1 96 [] []).dev.fld (Off.DMC_RH_TH 0) 15 0 ≠ 0 ∧ (dq 0 4 3).req < 14 ∧
      mwf (fun _ => []) ((stRows 1 96 [] []).dev.dch 0).acts = true ∧ mwf (fun _ => 0) ((stRows 1 96 [] []).dev.dch 0).lastIss = true ∧
      (stRows 1 96 [] []).dev.nsNow = ((stRows 1 96 [] []).dev.dch 0).winAt + ms32) ∧
    (stThr.dev.dmcPickRead 0 = some (dq 0 4 3) ∧ (stThr.dev.dmcPair 0 (dq 0 4 3) ∈ (stThr.dev.dch 0).thr ∨ (dq 0 4 3).held = true)) := by
  and_intros <;> first
   
    | exact ready_of (by decide +kernel)
    | exact trusts_of (by decide +kernel)
    | exact open_of (by decide +kernel)
    | exact mget_le (by decide +kernel)
    | decide +kernel

theorem witness_ResetsAndWatchdog :
    (mwf regReset (mk up).dev.regs = true ∧ (mk up).dev.powered = true ∧ (mk up).dev.sys.failing = [] ∧ 2 < 16) ∧
    ((stFailing 8).Ready ∧ 2 ≤ 8 ∧ 8 < 16 ∧ (stFailing 8).dev.sys.failing = [8] ∧ 8 ≠ 7) ∧
    (stOsc.Ready ∧ -32768 ≤ 900 ∧ (900 : Int) < (32768 : Int) ∧ stOsc.dev.sys.warnHot = false ∧
      min 840 (signedOf 16 (stOsc.dev.fld Off.PWR_TEMP_CFG 15 0)) ≤ 900) ∧
    (stHotWarn.Ready ∧ -32768 ≤ 0 ∧ (0 : Int) < (32768 : Int) ∧ stHotWarn.dev.sys.warnHot = true ∧
      0 ≤ min 840 (signedOf 16 (stHotWarn.dev.fld Off.PWR_TEMP_CFG 15 0)) - 40) ∧
    ((mk up).Ready ∧ -32768 ≤ -4096 ∧ -4096 < 32768 ∧ (mk up).dev.sys.warnHot = false ∧
      -4096 < min 840 (signedOf 16 ((mk up).dev.fld Off.PWR_TEMP_CFG 15 0))) ∧
    ((stEnter 2).Ready ∧ (stEnter 2).dev.sys.failing = [] ∧ (stEnter 2).Trusts (Master.dma true) Off.LMP_WDOG_KICK ∧
      getBits 24301 15 0 = 24301) ∧
    ((mk up).Ready ∧ (mk up).dev.sys.failing = [] ∧ (mk up).Trusts (Master.dma true) Off.LMP_WDOG_KICK ∧ getBits 0 15 0 ≠ 24301) ∧
    (stWdog0.Ready ∧ stWdog0.dev.sys.failing = [] ∧ stWdog0.dev.bit Off.LMP_WDOG_CFG 31 = true ∧ stWdog0.dev.wdogPaused = false ∧
      stWdog0.dev.lmp.wdog = 0) ∧
    ((mk up).Ready ∧ (mk up).dev.sys.failing = [] ∧
      ((mk up).dev.bit Off.LMP_WDOG_CFG 31 = false ∨ (mk up).dev.wdogPaused = true ∨ (mk up).dev.lmp.wdog ≠ 0)) := by
  and_intros <;> first
   
    | exact ready_of (by decide +kernel)
    | exact trusts_of (by decide +kernel)
    | exact open_of (by decide +kernel)
    | decide +kernel

theorem witness_ReleaseAndLamplighter :
    (mwf regReset stHeld.dev.regs = true ∧ stHeld.dev.evt.fresh = [] ∧ stHeld.dev.lmp.pwr = Pwr.held none ∧ stHeld.dev.lmp.hot = false ∧
      1 % 4 = 1 ∧ stHeld.dev.lmp.oscSay = []) ∧
    (mwf regReset stHeldHot.dev.regs = true ∧ stHeldHot.dev.evt.fresh = [] ∧ stHeldHot.dev.lmp.pwr = Pwr.held none ∧
      stHeldHot.dev.lmp.hot = true) ∧
    (stFw1.Ready ∧ stFw1.dev.sys.phase = 1 ∧ stFw1.dev.populated ≠ 0 ∧ stFw1.dev.sys.source = 1 ∧ stFw1.dev.imgBusy = true ∧
      stFw1.dev.straps.bootSel = 1 ∧
      BitVec.toNat (stFw1.dev.rd Off.DIV_IMG_ADDR_LO) % 8 = 0 ∧ fwImage.length = BitVec.toNat (stFw1.dev.rd Off.DIV_IMG_LEN)) ∧
    (stFw1Short.Ready ∧ stFw1Short.dev.sys.phase = 1 ∧ stFw1Short.dev.populated ≠ 0 ∧ stFw1Short.dev.sys.source = 1 ∧
      stFw1Short.dev.imgBusy = true ∧ stFw1Short.dev.straps.bootSel = 1 ∧
      (¬(BitVec.toNat (stFw1Short.dev.rd Off.DIV_IMG_ADDR_LO) % 8 = 0 ∧ fwImage.length = BitVec.toNat (stFw1Short.dev.rd Off.DIV_IMG_LEN)))) ∧
    (stFw1.Ready ∧ stFw1.dev.sys.phase = 1 ∧ stFw1.dev.populated ≠ 0 ∧ stFw1.dev.sys.source = 1 ∧ stFw1.dev.imgBusy = true ∧
      stFw1.dev.straps.bootSel = 1 ∧ (stFw1.dev.firmwareCheck stFw1.otp 1 ((stFw1.dev.hostImage (some fwImage)).getD [])).snd = none) ∧
    (stFw1Div.Ready ∧ stFw1Div.dev.sys.phase = 1 ∧ stFw1Div.dev.populated ≠ 0 ∧ stFw1Div.dev.sys.source = 1 ∧ stFw1Div.dev.imgBusy = true ∧
      stFw1Div.dev.straps.bootSel = 1 ∧ imgKind ((stFw1Div.dev.hostImage (some divImage)).getD []) ≠ 3) ∧
    (stFw1Short.Ready ∧ stFw1Short.dev.sys.phase = 1 ∧ stFw1Short.dev.populated ≠ 0 ∧ stFw1Short.dev.sys.source = 1 ∧
      stFw1Short.dev.imgBusy = true ∧ stFw1Short.dev.straps.bootSel = 1 ∧ imgKind ((stFw1Short.dev.hostImage (some fwImage)).getD []) ≠ 3) ∧
    ((mk up).Ready ∧ (mk up).dev.bit Off.LMP_OSC 31 = false) ∧
    (stOsc.Ready ∧ stOsc.dev.bit Off.LMP_OSC 31 = true) ∧
    ((mk up).Ready ∧ (mk up).Trusts (Master.steward true) Off.LMP_RTC_SEC_LO) ∧
    (stGateIdle.Ready ∧ 0 < 4 ∧ stGateIdle.dev.bit Off.PWR_QGATE 0 = true ∧ stGateIdle.dev.quarterGated 0 = false ∧
      16 ≤ stGateIdle.dev.idleTicks 0 ∧ stGateIdle.dev.quarterListed 0 = false ∧
      stGateIdle.dev.slotPrefers 0 (stGateIdle.dev.clk.tick + 1) = false ∧ stGateIdle.dev.rd Off.ICX_SPARE_USE = 0) ∧
    (stGated.Ready ∧ 0 < 4 ∧ stGated.dev.quarterGated 0 = true ∧ mwf (fun _ => 0) stGated.dev.sys.idleTicks = true) ∧
    (stGatedJob.Ready ∧ 0 < 4 ∧ stGatedJob.dev.quarterGated 0 = true ∧ mwf (fun _ => 0) stGatedJob.dev.sys.idleTicks = true ∧
      stGatedJob.dev.quarterListed 0 = false ∧ stGatedJob.dev.slotPrefers 0 (stGatedJob.dev.clk.tick + 1) = true) := by
  and_intros <;> first
   
    | exact ready_of (by decide +kernel)
    | exact trusts_of (by decide +kernel)
    | exact open_of (by decide +kernel)
    | decide +kernel

theorem witness_LowPowerAndWakes :
    (stRend.Ready ∧ stRend.Trusts (Master.dma true) Off.SYS_PWR_REQ ∧ stRend.dev.sys.entering = 0 ∧ stRend.dev.rendering = true) ∧
    (stFw1.Ready ∧ stFw1.Trusts (Master.steward true) Off.SYS_PWR_REQ ∧ stFw1.dev.sys.entering = 0 ∧ stFw1.dev.rendering = false ∧
      stFw1.dev.pipe.closure = none ∧ stFw1.dev.fld Off.DIV_IMG_STAT 31 28 = 1) ∧
    ((mk up).Ready ∧ (mk up).Trusts (Master.steward true) Off.SYS_PWR_REQ ∧ (mk up).dev.sys.entering = 0 ∧ (mk up).dev.rendering = false ∧
      (mk up).dev.pipe.closure = none ∧ (mk up).dev.fld Off.DIV_IMG_STAT 31 28 ≠ 1 ∧ (mk up).dev.twn.xfers = []) ∧
    ((stEnterPhase 1 0).Ready ∧ (stEnterPhase 1 0).dev.sys.entering = 1 ∧
      ((stEnterPhase 1 0).dev.sys.phase = 0 ∨ (stEnterPhase 1 0).dev.sys.phase = 3) ∧ (stEnterPhase 1 0).dev.lmp.wakeReq = none) ∧
    ((stEnterPhase 1 3).Ready ∧ (stEnterPhase 1 3).dev.sys.entering = 1 ∧
      ((stEnterPhase 1 3).dev.sys.phase = 0 ∨ (stEnterPhase 1 3).dev.sys.phase = 3) ∧ (stEnterPhase 1 3).dev.lmp.wakeReq = none) ∧
    ((stEnter 1).Ready ∧ (stEnter 1).dev.sys.entering = 1 ∧ (stEnter 1).dev.sys.phase ≠ 0 ∧ (stEnter 1).dev.sys.phase ≠ 3 ∧
      (stEnter 1).dev.lmp.wakeReq = none) ∧
    ((stEnter 2).Ready ∧ (stEnter 2).dev.sys.entering = 2 ∧ (stEnter 2).dev.lmp.wakeReq = none) ∧
    (mwf regReset stHibernate.dev.regs = true ∧
      (stHibernate.dev.lmp.pwr = Pwr.nap none ∨ stHibernate.dev.lmp.pwr = Pwr.hibernate ∧ (none : Option Retained) = none) ∧
      stHibernate.dev.rd Off.LMP_RTC_ALARM_LO = stHibernate.dev.rd Off.LMP_RTC_SEC_LO ∧
      stHibernate.dev.rd Off.LMP_RTC_ALARM_HI = stHibernate.dev.rd Off.LMP_RTC_SEC_HI ∧ stHibernate.dev.rd Off.LMP_RTC_ALARM_LO ≠ 0) ∧
    (mwf regReset stNapDone.dev.regs = true ∧
      (stNapDone.dev.lmp.pwr = Pwr.nap none ∨ stNapDone.dev.lmp.pwr = Pwr.hibernate ∧ (none : Option Retained) = none) ∧
      stNapDone.dev.lmp.pwr = Pwr.nap none ∧ stNapDone.dev.rd Off.LMP_NAP_TIMER ≠ 0 ∧
      BitVec.toNat (stNapDone.dev.rd Off.LMP_NAP_TIMER) * 1000000000 ≤ stNapDone.dev.lmp.napNs) ∧
    (mwf regReset stNap0.dev.regs = true ∧
      (stNap0.dev.lmp.pwr = Pwr.nap none ∨ stNap0.dev.lmp.pwr = Pwr.hibernate ∧ (none : Option Retained) = none) ∧
      stNap0.dev.lmp.pwr = Pwr.nap none ∧ stNap0.dev.rd Off.LMP_NAP_TIMER ≠ 0 ∧
      stNap0.dev.lmp.napNs < BitVec.toNat (stNap0.dev.rd Off.LMP_NAP_TIMER) * 1000000000 ∧ stNap0.dev.evt.fresh = []) ∧
    (mwf regReset stHibernate.dev.regs = true ∧
      (stHibernate.dev.lmp.pwr = Pwr.nap none ∨ stHibernate.dev.lmp.pwr = Pwr.hibernate ∧ (none : Option Retained) = none) ∧
      stHibernate.dev.lmp.pwr = Pwr.hibernate ∧ stHibernate.dev.evt.fresh = []) ∧
    (stResume.Ready ∧ stResume.dev.lmp.resume = some (Retained.mk [(3, 7#8)] 1 2)) := by
  and_intros <;> first
   
    | exact ready_of (by decide +kernel)
    | exact trusts_of (by decide +kernel)
    | exact open_of (by decide +kernel)
    | decide +kernel

theorem witness_EventRecords :
    (stEvMask.Ready ∧ stEvMask.dev.evt.raised = [EvRec.mk 771 1 10 5 3] ∧ stEvMask.dev.masked 771 = true) ∧
    (stEv.Ready ∧ stEv.dev.evt.raised = [EvRec.mk 771 1 10 5 3, EvRec.mk 772 1 10 5 3] ∧ stEv.dev.masked 771 = false ∧
      stEv.dev.bit Off.EVT_CTL 31 = false ∧ stEv.dev.evt.lost = 0 ∧ stEv.dev.evt.buf.length < 64) ∧
    (stEvFull.Ready ∧ stEvFull.dev.evt.raised = [EvRec.mk 771 1 10 5 3] ∧ stEvFull.dev.masked 771 = false ∧
      stEvFull.dev.bit Off.EVT_CTL 31 = true ∧ stEvFull.dev.evtRoom = 0) ∧
    (stEvOn.Ready ∧ stEvOn.dev.evt.raised = [EvRec.mk 771 1 10 5 3] ∧ stEvOn.dev.masked 771 = false ∧
      stEvOn.dev.bit Off.EVT_CTL 31 = true ∧ stEvOn.dev.evt.lost = 0 ∧ stEvOn.dev.evtRoom ≠ 0 ∧ mwf (fun _ => 0) stEvOn.dev.sram = true ∧
      stEvOn.dev.sramOff (stEvOn.dev.evtBase + 16 * stEvOn.dev.fld Off.EVT_HEAD 11 0) = some 1264) ∧
    ((mk up).Ready ∧ (mk up).Trusts Master.loader Off.EVT_TAIL ∧ (mk up).dev.evt.lost = 0) ∧
    (stEvMask.Ready ∧ stEvMask.Trusts Master.spi Off.EVT_CTL ∧ stEvMask.dev.bit Off.EVT_CTL 31 = false ∧ stEvMask.dev.evtBaseOk = false) ∧
    (stEvBase0.Ready ∧ stEvBase0.Trusts (Master.dma true) Off.EVT_CTL ∧ stEvBase0.dev.bit Off.EVT_CTL 31 = false ∧
      stEvBase0.dev.evtBaseOk = true ∧ stEvBase0.dev.evt.buf = [] ∧ stEvBase0.dev.evt.lost = 0) ∧
    (stEvBase.Ready ∧ stEvBase.Trusts (Master.steward true) Off.EVT_CTL ∧ stEvBase.dev.bit Off.EVT_CTL 31 = false ∧
      stEvBase.dev.evtBaseOk = true ∧ stEvBase.dev.evt.lost = 0 ∧ stEvBase.dev.evt.buf.length ≤ stEvBase.dev.evtRoom ∧
      stEvBase.dev.fld Off.EVT_HEAD 11 0 < stEvBase.dev.evtSize) := by
  and_intros <;> first
   
    | exact ready_of (by decide +kernel)
    | exact trusts_of (by decide +kernel)
    | exact open_of (by decide +kernel)
    | decide +kernel

theorem witness_Aborts :
    (stAbBusy.Ready ∧ stAbBusy.Trusts (Master.steward true) Off.SYS_ABORT_CMD ∧ stAbBusy.Trusts (Master.steward true) Off.SYS_ABORT_ID ∧
      stAbBusy.dev.bit Off.SYS_ABORT_STAT 31 = true ∧ stAbBusy.dev.toSettle = [] ∧
      (stAbBusy.dev.pipe.abort = none ∨ (∃ x, stAbBusy.dev.pipe.abort = some (2, x)) ∨ (∃ j, j ∈ stAbBusy.dev.icx.jobs ∧
        stAbBusy.dev.icx.stopping.contains j.key = true ∧ j.st = JState.running) ∧ ∀ (j : Job), j ∈ stAbBusy.dev.icx.jobs →
        stAbBusy.dev.icx.stopping.contains j.key = true → j.st = JState.running ∨ abortable true j = false) ∧
      Instr.closure (Master.steward true) ∈ [Instr.closure (Master.steward true), Instr.abortJob (Master.steward true) 65535 false,
        Instr.abortWarden (Master.steward true) 65535, Instr.abortStream (Master.steward true) 65535, Instr.abortFlow (Master.steward true)
        65535, Instr.abortQuarter (Master.steward true) 65535, Instr.abortSdramFlow (Master.steward true) 65535]) ∧
    (stAbClosure.Ready ∧ stAbClosure.Trusts (Master.steward true) Off.SYS_ABORT_CMD ∧
      stAbClosure.Trusts (Master.steward true) Off.SYS_ABORT_ID ∧ stAbClosure.dev.bit Off.SYS_ABORT_STAT 31 = false ∧
      stAbClosure.dev.Settled ∧ stAbClosure.dev.pipe.closure ≠ none ∧ 4 < 6) ∧
    ((mk up).Ready ∧ (mk up).Trusts (Master.steward true) Off.SYS_ABORT_CMD ∧ (mk up).Trusts (Master.steward true) Off.SYS_ABORT_ID ∧
      (mk up).dev.bit Off.SYS_ABORT_STAT 31 = false ∧ (mk up).dev.Settled ∧ (mk up).dev.pipe.closure = none ∧
      (4096 ≤ 65535 ∨ (mk up).dev.instanceOf 65535 = [])) ∧
    (stAbWriting.Ready ∧ stAbWriting.Trusts Master.loader Off.SYS_ABORT_CMD ∧ stAbWriting.Trusts Master.loader Off.SYS_ABORT_ID ∧
      stAbWriting.dev.bit Off.SYS_ABORT_STAT 31 = false ∧ stAbWriting.dev.Settled ∧ stAbWriting.dev.pipe.closure = none ∧ 7 < 4096 ∧
      stAbWriting.dev.instanceOf 7 ≠ [] ∧ (∀ (j : Job), j ∈ stAbWriting.dev.instanceOf 7 → abortable false j = false)) ∧
    (stWriting.Ready ∧ stWriting.Trusts Master.ledger Off.SYS_ABORT_CMD ∧ stWriting.Trusts Master.ledger Off.SYS_ABORT_ID ∧
      stWriting.dev.bit Off.SYS_ABORT_STAT 31 = false ∧ stWriting.dev.Settled ∧ stWriting.dev.pipe.closure = none ∧ 7 < 4096 ∧
      stWriting.dev.instanceOf 7 ≠ [] ∧ (∀ (j : Job), j ∈ stWriting.dev.instanceOf 7 → abortable false j = false)) ∧
    (stAbReady.Ready ∧ stAbReady.Trusts Master.loader Off.SYS_ABORT_CMD ∧ stAbReady.Trusts Master.loader Off.SYS_ABORT_ID ∧
      stAbReady.dev.bit Off.SYS_ABORT_STAT 31 = false ∧ stAbReady.dev.Settled ∧ stAbReady.dev.pipe.closure = none ∧ 7 < 4096 ∧
      (∃ j, j ∈ stAbReady.dev.instanceOf 7 ∧ abortable false j = true) ∧
      (∀ (j : Job), j ∈ stAbReady.dev.instanceOf 7 → j.st ≠ JState.running)) ∧
    (stAbJob.Ready ∧ stAbJob.Trusts Master.ledger Off.SYS_ABORT_CMD ∧ stAbJob.Trusts Master.ledger Off.SYS_ABORT_ID ∧
      stAbJob.dev.bit Off.SYS_ABORT_STAT 31 = false ∧ stAbJob.dev.Settled ∧ stAbJob.dev.pipe.closure = none ∧ 7 < 4096 ∧
      (∃ j, j ∈ stAbJob.dev.instanceOf 7 ∧ abortable false j = true) ∧ (∃ j, j ∈ stAbJob.dev.instanceOf 7 ∧ j.st = JState.running)) ∧
    (stAbJob.Ready ∧ stAbJob.Trusts Master.loader Off.SYS_ABORT_CMD ∧ stAbJob.Trusts Master.loader Off.SYS_ABORT_ID ∧
      stAbJob.dev.bit Off.SYS_ABORT_STAT 31 = false ∧ stAbJob.dev.Settled ∧ stAbJob.dev.pipe.closure = none ∧ 7 < 4096 ∧
      (∃ j, j ∈ stAbJob.dev.instanceOf 7 ∧ abortable false j = true) ∧ (∃ j, j ∈ stAbJob.dev.instanceOf 7 ∧ j.st = JState.running)) ∧
    ((mk up).Ready ∧ (mk up).Trusts (Master.steward true) Off.SYS_ABORT_CMD ∧ (mk up).Trusts (Master.steward true) Off.SYS_ABORT_ID ∧
      (mk up).dev.bit Off.SYS_ABORT_STAT 31 = false ∧ (mk up).dev.Settled ∧ (mk up).dev.pipe.closure = none ∧ 8 ≤ 65535) ∧
    ((mk up).Ready ∧ (mk up).Trusts (Master.steward true) Off.SYS_ABORT_CMD ∧ (mk up).Trusts (Master.steward true) Off.SYS_ABORT_ID ∧
      (mk up).dev.bit Off.SYS_ABORT_STAT 31 = false ∧ (mk up).dev.Settled ∧ (mk up).dev.pipe.closure = none ∧ 3 < 8 ∧
      (mk up).dev.wdnBusy 3 = false) ∧
    (stAbWarden.Ready ∧ stAbWarden.Trusts Master.pcie Off.SYS_ABORT_CMD ∧ stAbWarden.Trusts Master.pcie Off.SYS_ABORT_ID ∧
      stAbWarden.dev.bit Off.SYS_ABORT_STAT 31 = false ∧ stAbWarden.dev.Settled ∧ stAbWarden.dev.pipe.closure = none ∧ 2 < 8 ∧
      stAbWarden.dev.wdnBusy 2 = true) ∧
    ((mk up).Ready ∧ (mk up).Trusts (Master.steward true) Off.SYS_ABORT_CMD ∧ (mk up).Trusts (Master.steward true) Off.SYS_ABORT_ID ∧
      (mk up).dev.bit Off.SYS_ABORT_STAT 31 = false ∧ (mk up).dev.Settled ∧ (mk up).dev.pipe.closure = none ∧
      (512 ≤ 65535 ∨ 128 ≤ 65535 % 256)) ∧
    ((mk up).Ready ∧ (mk up).Trusts (Master.steward true) Off.SYS_ABORT_CMD ∧ (mk up).Trusts (Master.steward true) Off.SYS_ABORT_ID ∧
      (mk up).dev.bit Off.SYS_ABORT_STAT 31 = false ∧ (mk up).dev.Settled ∧ (mk up).dev.pipe.closure = none ∧ 3 < 512 ∧ 3 % 256 < 128 ∧
      (if decide (256 ≤ 3) = true then (mk up).dev.txEn (3 % 256) else (mk up).dev.rxEn (3 % 256)) = false) ∧
    (stRx.Ready ∧ stRx.Trusts (Master.steward true) Off.SYS_ABORT_CMD ∧ stRx.Trusts (Master.steward true) Off.SYS_ABORT_ID ∧
      stRx.dev.bit Off.SYS_ABORT_STAT 31 = false ∧ stRx.dev.Settled ∧ stRx.dev.pipe.closure = none ∧ 1 < 512 ∧ 1 % 256 < 128 ∧
      (if decide (256 ≤ 1) = true then stRx.dev.txEn (1 % 256) else stRx.dev.rxEn (1 % 256)) = true) ∧
    ((mk up).Ready ∧ (mk up).Trusts (Master.steward true) Off.SYS_ABORT_CMD ∧ (mk up).Trusts (Master.steward true) Off.SYS_ABORT_ID ∧
      (mk up).dev.bit Off.SYS_ABORT_STAT 31 = false ∧ (mk up).dev.Settled ∧ (mk up).dev.pipe.closure = none ∧ 256 ≤ 65535) ∧
    ((mk up).Ready ∧ (mk up).Trusts (Master.steward true) Off.SYS_ABORT_CMD ∧ (mk up).Trusts (Master.steward true) Off.SYS_ABORT_ID ∧
      (mk up).dev.bit Off.SYS_ABORT_STAT 31 = false ∧ (mk up).dev.Settled ∧ (mk up).dev.pipe.closure = none ∧ 3 < 256 ∧
      List.filter (fun j => j.key.flow == 3 && !j.st.over) (mk up).dev.icx.jobs = []) ∧
    (stAbReady.Ready ∧ stAbReady.Trusts Master.loader Off.SYS_ABORT_CMD ∧ stAbReady.Trusts Master.loader Off.SYS_ABORT_ID ∧
      stAbReady.dev.bit Off.SYS_ABORT_STAT 31 = false ∧ stAbReady.dev.Settled ∧ stAbReady.dev.pipe.closure = none ∧ 4 < 256 ∧
      List.filter (fun j => j.key.flow == 4 && !j.st.over) stAbReady.dev.icx.jobs ≠ [] ∧
      (∀ (j : Job), j ∈ List.filter (fun j => j.key.flow == 4 && !j.st.over) stAbReady.dev.icx.jobs → j.st ≠ JState.running)) ∧
    (stWriting.Ready ∧ stWriting.Trusts (Master.steward true) Off.SYS_ABORT_CMD ∧ stWriting.Trusts (Master.steward true) Off.SYS_ABORT_ID ∧
      stWriting.dev.bit Off.SYS_ABORT_STAT 31 = false ∧ stWriting.dev.Settled ∧ stWriting.dev.pipe.closure = none ∧ 3 < 256 ∧
      List.filter (fun j => j.key.flow == 3 && !j.st.over) stWriting.dev.icx.jobs ≠ [] ∧
      (∀ (j : Job), j ∈ List.filter (fun j => j.key.flow == 3 && !j.st.over) stWriting.dev.icx.jobs → j.st ≠ JState.running)) ∧
    (stAbJob.Ready ∧ stAbJob.Trusts (Master.steward true) Off.SYS_ABORT_CMD ∧ stAbJob.Trusts (Master.steward true) Off.SYS_ABORT_ID ∧
      stAbJob.dev.bit Off.SYS_ABORT_STAT 31 = false ∧ stAbJob.dev.Settled ∧ stAbJob.dev.pipe.closure = none ∧ 3 < 256 ∧
      List.filter (fun j => j.key.flow == 3 && !j.st.over) stAbJob.dev.icx.jobs ≠ [] ∧
      (∃ j, j ∈ List.filter (fun j => j.key.flow == 3 && !j.st.over) stAbJob.dev.icx.jobs ∧ j.st = JState.running)) ∧
    (stAbJob.Ready ∧ stAbJob.Trusts Master.loader Off.SYS_ABORT_CMD ∧ stAbJob.Trusts Master.loader Off.SYS_ABORT_ID ∧
      stAbJob.dev.bit Off.SYS_ABORT_STAT 31 = false ∧ stAbJob.dev.Settled ∧ stAbJob.dev.pipe.closure = none ∧ 3 < 256 ∧
      List.filter (fun j => j.key.flow == 3 && !j.st.over) stAbJob.dev.icx.jobs ≠ [] ∧
      (∃ j, j ∈ List.filter (fun j => j.key.flow == 3 && !j.st.over) stAbJob.dev.icx.jobs ∧ j.st = JState.running)) ∧
    ((mk up).Ready ∧ (mk up).Trusts (Master.steward true) Off.SYS_ABORT_CMD ∧ (mk up).Trusts (Master.steward true) Off.SYS_ABORT_ID ∧
      (mk up).dev.bit Off.SYS_ABORT_STAT 31 = false ∧ (mk up).dev.Settled ∧ (mk up).dev.pipe.closure = none ∧ 4 ≤ 65535) ∧
    (stAbQuarter.Ready ∧ stAbQuarter.Trusts (Master.steward true) Off.SYS_ABORT_CMD ∧
      stAbQuarter.Trusts (Master.steward true) Off.SYS_ABORT_ID ∧ stAbQuarter.dev.bit Off.SYS_ABORT_STAT 31 = false ∧
      stAbQuarter.dev.Settled ∧ stAbQuarter.dev.pipe.closure = none ∧ 1 < 4 ∧ stAbQuarter.dev.quarterFenced 1 = true) ∧
    ((mk up).Ready ∧ (mk up).Trusts (Master.steward true) Off.SYS_ABORT_CMD ∧ (mk up).Trusts (Master.steward true) Off.SYS_ABORT_ID ∧
      (mk up).dev.bit Off.SYS_ABORT_STAT 31 = false ∧ (mk up).dev.Settled ∧ (mk up).dev.pipe.closure = none ∧ 3 < 4 ∧
      (mk up).dev.quarterFenced 3 = false) ∧
    ((mk up).Ready ∧ (mk up).Trusts Master.pcie Off.SYS_ABORT_CMD ∧ (mk up).Trusts Master.pcie Off.SYS_ABORT_ID ∧
      (mk up).dev.bit Off.SYS_ABORT_STAT 31 = false ∧ (mk up).dev.Settled ∧ (mk up).dev.pipe.closure = none ∧ (0 : Word) = (0 : Word) ∧
      (mk up).dev.rendering = false) ∧
    (stAbRend.Ready ∧ stAbRend.Trusts Master.pcie Off.SYS_ABORT_CMD ∧ stAbRend.Trusts Master.pcie Off.SYS_ABORT_ID ∧
      stAbRend.dev.bit Off.SYS_ABORT_STAT 31 = false ∧ stAbRend.dev.Settled ∧ stAbRend.dev.pipe.closure = none ∧ (0 : Word) = (0 : Word) ∧
      stAbRend.dev.rendering = true ∧ stAbRend.dev.pipe.from_ = some 3) ∧
    (stAbEnds'.Ready ∧ stAbEnds'.Trusts Master.loader Off.SYS_ABORT_CMD ∧ stAbEnds'.Trusts Master.loader Off.SYS_ABORT_ID ∧
      stAbEnds'.dev.pipe.abort = some (0, 7) ∧ 0 < 8 ∧ 0 ≠ 2 ∧ stAbEnds'.dev.icx.stopping = [ka] ∧ 1 < 32 ∧
      (stAbEnds'.dev.square 1).run = some ka ∧ (stAbEnds'.dev.square 1).kerb = none ∧ (stAbEnds'.dev.square 1).blocked = false ∧
      stAbEnds'.dev.job ka = some (jb 3 7 0 0 JState.running) ∧ (jb 3 7 0 0 JState.running).st = JState.running ∧
      (jb 3 7 0 0 JState.running).grant = none ∧ stAbEnds'.dev.toSettle = [] ∧
      (∀ (x : Job), x ∈ stAbEnds'.dev.icx.jobs → ∀ (y : Job), y ∈ stAbEnds'.dev.icx.jobs → x.key = y.key → x = y)) := by
  and_intros <;> first
   
    | exact ready_of (by decide +kernel)
    | exact trusts_of (by decide +kernel)
    | exact open_of (by decide +kernel)
    | exact settled_of (by decide +kernel)
    | decide +kernel
    | exact .inl (by decide +kernel)

theorem witness_StepTakesTheFront :
    (stOtpKeys.pending = [.secRevoke .debug 0]) ∧
    (State.reset.pending = []) := by
  and_intros <;> first
   
    | exact ready_of (by decide +kernel)
    | exact trusts_of (by decide +kernel)
    | exact open_of (by decide +kernel)
    | decide +kernel

theorem witness_WellFormedCommandsComplete :
    ((Instr.fenceSquare .loader 31).wf = true) ∧
    ((Instr.fenceSquare .loader 32).wf = false) := by
  and_intros <;> first
   
    | exact ready_of (by decide +kernel)
    | exact trusts_of (by decide +kernel)
    | exact open_of (by decide +kernel)
    | decide +kernel

theorem witness_NothingActsWhileDown :
    (stHeld.dev.isUp = false ∧ stHeld.dev.evt.fresh = [] ∧ (Instr.closure Master.loader).wf = true ∧
      (∀ (st : Straps), Instr.closure Master.loader ≠ Instr.resetRelease st) ∧
      (∀ (r : Nat), Instr.closure Master.loader ≠ Instr.railFault r) ∧
      (¬Instr.closure Master.loader ∈ [Instr.por, Instr.brownout, Instr.resetN, Instr.thermalReset, Instr.thermalRelease, Instr.refclkLoss,
        Instr.oscFallback, Instr.oscRestored, Instr.lowPowerEntryDone, Instr.wake, Instr.rtcAlarm, Instr.napTimer])) := by
  and_intros <;> first | decide +kernel | (intro _ h; cases h)

theorem witness_OtpMovesOneWay :
    (mwf (fun _ => []) stOtpKeys.otp.keys = true ∧ (∃ t, step stOtpKeys = .next t) ∧ stOtpKeys.otp.hostTrust = true ∧
      stOtpKeys.otp.dbgDisable = true ∧ stOtpKeys.otp.programmed 2 = true) := by
  and_intros <;> first
   
    | exact ready_of (by decide +kernel)
    | exact trusts_of (by decide +kernel)
    | exact open_of (by decide +kernel)
    | exact next_of (by decide +kernel)
    | decide +kernel

theorem witness_StepKeepsSound :
    (stOtpKeys.Sound ∧ (∃ t, step stOtpKeys = .next t)) := by
  and_intros <;> first
   
    | exact next_of (by decide +kernel)
    | exact ⟨by decide +kernel, by decide +kernel, by decide +kernel, by decide +kernel⟩

theorem witness_OtpChangesOnlyBySecureWrites :
    ((∃ t, exec (.otpProgram (.steward true) 3) State.reset = .next t ∧ t.otp ≠ State.reset.otp)) := by
  exact changes_of (by decide +kernel)

theorem witness_SampleWords :
    (1 ≤ 1 ∧ 1 ≤ 24 ∧ 1 < 2 ^ 1) ∧
    (3 < 2 ^ 32 ∧ isFin 859767337 = true ∧ fval 859767337 ≠ fval (sampleOf 32 3)) ∧
    (16777217 < 2 ^ 32 ∧ isFin (sampleOf 32 16777218) = true ∧ fval (sampleOf 32 16777218) ≠ fval (sampleOf 32 16777217) ∧
      (fval (sampleOf 32 16777217) * 2 ^ 31 - signedOf 32 16777217 * 2 ^ 149).natAbs = (fval (sampleOf 32 16777218) * 2 ^ 31 - signedOf 32
        16777217 * 2 ^ 149).natAbs) ∧
    (1 ≤ 24 ∧ 24 ≤ 32 ∧ isNaN 2143289345 = true) ∧
    (1 ≤ 24 ∧ 24 ≤ 32 ∧ isInf 4286578688 = true) ∧
    (1 ≤ 2 ∧ 2 ≤ 32 ∧ isFin 3212836864 = true) ∧
    (1 ≤ 2 ∧ 2 ≤ 32 ∧ isFin 1048576000 = true ∧
      (↑(signedOf (2 : Nat) (wordOf (2 : Nat) (1048576000 : F32))) - ↑(fval (1048576000 : F32)) * ↑((2 : Nat) ^ ((2 : Nat) - (1 : Nat))) /
        ↑((2 : Nat) ^ (149 : Nat)) = (1 / 2 : Rat) ∨ ↑(fval (1048576000 : F32)) * ↑((2 : Nat) ^ ((2 : Nat) - (1 : Nat))) / ↑((2 : Nat) ^
        (149 : Nat)) - ↑(signedOf (2 : Nat) (wordOf (2 : Nat) (1048576000 : F32))) = (1 / 2 : Rat)) ∧
      signedOf 2 (wordOf 2 1048576000) ≠ -2 ^ (2 - 1) ∧ signedOf 2 (wordOf 2 1048576000) ≠ 2 ^ (2 - 1) - 1) ∧
    (stRunOpen.Ready ∧ 1 < 16 ∧ mwf (fun _ => []) stRunOpen.dev.samp = true ∧
      (∀ (g : Nat), mwf (fun _ => 0) (mget (fun _ => []) stRunOpen.dev.samp g) = true) ∧
      mwf (fun _ => Port.init) stRunOpen.dev.net.ports = true ∧ stRunOpen.dev.portSt 1 = 3 ∧
      cfgForeign (stRunOpen.dev.re (Off.PRT_CFG 1)) = false ∧ cfgLink (stRunOpen.dev.re (Off.PRT_CFG 1)) = false ∧
      (stRunOpen.dev.port 1).next = some 112 ∧
      gatesAll (stRunOpen.dev.port 1).ins (stRunOpen.dev.port 1).mask (cfgFrameSlots (stRunOpen.dev.re (Off.PRT_CFG 1))) true = true ∧
      gatesAll (stRunOpen.dev.port 1).outs (stRunOpen.dev.port 1).mask (cfgFrameSlots (stRunOpen.dev.re (Off.PRT_CFG 1))) true = true ∧
      mwf (fun _ => ChGate.init) (stRunOpen.dev.port 1).ins = true ∧ mwf (fun _ => ChGate.init) (stRunOpen.dev.port 1).outs = true ∧
      frameStarts (serial 0) (stRunOpen.dev.re (Off.PRT_CFG 1)) ≠ [] ∧
      2 * (stRunOpen.dev.frameErr (serial 0).errNs).natAbs * stRunOpen.dev.fs ≤ 1000000000 ∧ (stRunOpen.dev.port 1).top ≤ 112) ∧
    (stRunOpen.Ready ∧ 1 < 8 ∧ stRunOpen.dev.bit (Off.AES_RX_CFG 1) 31 = true ∧
      subParityOk (AesSub.mk 2734196 false false false true true false) = true ∧
      subParityOk (AesSub.mk 4303614 false true true true true true) = true ∧ stRunOpen.dev.bit (Off.AES_RX_CFG 1) 0 = false ∧
      mwf (fun _ => []) stRunOpen.dev.samp = true ∧ (∀ (g : Nat), mwf (fun _ => 0) (mget (fun _ => []) stRunOpen.dev.samp g) = true)) ∧
    (stAesTx.dev.bit (Off.AES_TX_CFG 1) 31 = true ∧ (stAesTx.dev.aesTx 1).from_ = some 9 ∧ 7 < stAesTx.dev.L ∧ 9 ≤ 1 * stAesTx.dev.L + 7) := by
  and_intros <;> first
   
    | exact ready_of (by decide +kernel)
    | exact trusts_of (by decide +kernel)
    | exact open_of (by decide +kernel)
    | exact gate_of (by decide +kernel)
    | decide +kernel

theorem witness_MaskedEvents :
    (1 ≤ 2 ∧ 2 ≤ 16 ∧ 1 < 32) ∧
    (stEvMask.Ready ∧ stEvMask.dev.evt.raised = [EvRec.mk 771 1 10 5 3] ∧ stEvMask.dev.masked 771 = true) := by
  and_intros <;> first
   
    | exact ready_of (by decide +kernel)
    | exact trusts_of (by decide +kernel)
    | exact open_of (by decide +kernel)
    | decide +kernel

theorem witness_SpeakersAndStreets :
    (15 < 16) ∧
    (0 < 16 ∧ stLay.dev.snapSpk 0 0 (V3.mk fone 0 0) = some 0 ∧
      1 < stLay.dev.lSpk 0 ∧ stLay.dev.sNoPan 0 1 = false ∧ stLay.dev.excl 0 0 1 = false) ∧
    (mwf (fun _ => Str.init) stStreets.dev.geo.streets = true ∧
      (isZero (stStreets.dev.street 1).cur = false ∨ isZero (stStreets.dev.strGain 1) = false)) := by
  and_intros <;> first
   
    | exact ready_of (by decide +kernel)
    | exact trusts_of (by decide +kernel)
    | exact open_of (by decide +kernel)
    | decide +kernel

theorem witness_BoundaryEstablishes :
    (stPends.Ready ∧ stPends.dev.clk.valid = true ∧ stPends.dev.ptp.stepTo = none ∧ stPends.dev.sys.held = [] ∧
      stPends.dev.div.waiting = none ∧ stPends.dev.div.queue = [] ∧ stPends.dev.twn.ledger = [] ∧ stPends.dev.twn.epoch = none ∧
      stPends.dev.twn.putOff = none ∧ mwf regReset stPends.dev.est = true ∧ mwf (fun _ => 0) stPends.dev.tabE = true ∧
      mwf (fun _ => 0) stPends.dev.tabW = true ∧
      (∀ (p : Pend), p ∈ stPends.dev.pendW → (∃ off v, p = Pend.reg off v ∧ off / 65536 ∈ [11, 12, 18]) ∨ ∃ off bs, p = Pend.tab off bs ∧
        25165824 ≤ off ∧ off + bs.length ≤ 27262976)) := by
  and_intros <;> first | exact ready_of (by decide +kernel) | exact pends_of (by decide +kernel) | decide +kernel

end Sys2Proof.Tests
end

section
/-! SUPPORT. Rounding to nearest even, and the binary32 encoding it gives (R3, R178). -/

namespace Sys2Proof.Machine

/-! ### Rounding a quotient to nearest even -/

/-- The integer y is n / d rounded to the nearest integer, ties to even. -/
structure NearestEven (y n d : Int) : Prop where
  le   : 2 * (y * d - n) ≤ d
  ge   : 2 * (n - y * d) ≤ d
  even : 2 * (y * d - n) = d ∨ 2 * (n - y * d) = d → y % 2 = 0

/-- Quotient and remainder, and the comparison of the remainder with one half, as the model rounds. -/
theorem nearestEven_ite {q r h : Int} (h0 : 0 ≤ r) (h2 : r < 2 * h) :
    NearestEven (if h < r ∨ (r = h ∧ q % 2 = 1) then q + 1 else q) (q * (2 * h) + r) (2 * h) := by
  split
  · next hup => constructor <;> rw [Int.add_mul] <;> omega
  · next hdown => constructor <;> omega

/-- Multiples of d ≥ 0 of distinct integers lie d apart. -/
theorem mul_add_le_mul {a b d : Int} (hab : a < b) (hd : 0 ≤ d) : a * d + d ≤ b * d := by
  have := Int.mul_le_mul_of_nonneg_right (show a + 1 ≤ b from hab) hd
  rwa [Int.add_mul, Int.one_mul] at this

namespace NearestEven

variable {y n d : Int}

/-- A multiple of d that is not the rounded one lies no nearer, and as near only when the rounded one is even. -/
theorem natAbs_le (h : NearestEven y n d) {z : Int} (hz : z ≠ y) :
    (y * d - n).natAbs ≤ (z * d - n).natAbs ∧ ((y * d - n).natAbs = (z * d - n).natAbs → y % 2 = 0) := by
  obtain ⟨hle, hge, heven⟩ := h
  have hd : 0 ≤ d := by omega
  have hgap : z * d + d ≤ y * d ∨ y * d + d ≤ z * d := by
    rcases Int.lt_or_gt_of_ne hz with hlt | hgt
    · exact .inl (mul_add_le_mul hlt hd)
    · exact .inr (mul_add_le_mul hgt hd)
  constructor
  · omega
  · intro heq
    exact heven (by omega)

/-- Where n / d is at least the integer a, the same holds beside the multiples of d for every number below a · d. -/
theorem natAbs_le_of_gap (h : NearestEven y n d) {a z : Int} (ha : a * d ≤ n) (hz : (∃ c, z = c * d) ∨ z < a * d) (hne : z ≠ y * d) :
    (y * d - n).natAbs ≤ (z - n).natAbs ∧ ((y * d - n).natAbs = (z - n).natAbs → y % 2 = 0) := by
  rcases hz with ⟨c, rfl⟩ | hlt
  · exact h.natAbs_le (fun hc => hne (hc ▸ rfl))
  · have hay : (y * d - n).natAbs ≤ (a * d - n).natAbs := by
      by_cases hay : a = y
      · exact hay ▸ Nat.le_refl _
      · exact (h.natAbs_le hay).1
    omega

/-- An exact quotient is the rounded one. -/
theorem eq_of_mul (hd : 0 < d) {q : Int} (h : NearestEven y (q * d) d) : y = q := by
  obtain ⟨hle, hge, -⟩ := h
  rcases Int.lt_trichotomy y q with hlt | heq | hgt
  · have := mul_add_le_mul hlt (by omega : 0 ≤ d)
    omega
  · exact heq
  · have := mul_add_le_mul hgt (by omega : 0 ≤ d)
    omega

/-- A multiple of d is rounded to its own quotient. -/
theorem of_mul (hd : 0 < d) : NearestEven y (y * d) d := by constructor <;> omega

/-- A common factor changes nothing. -/
theorem scale (h : NearestEven y n d) {c : Int} (hc : 0 < c) : NearestEven y (n * c) (d * c) := by
  obtain ⟨hle, hge, heven⟩ := h
  have hover : 2 * (y * (d * c) - n * c) = 2 * (y * d - n) * c := by rw [Int.mul_assoc 2, Int.sub_mul, Int.mul_assoc y]
  have hunder : 2 * (n * c - y * (d * c)) = 2 * (n - y * d) * c := by rw [Int.mul_assoc 2, Int.sub_mul, Int.mul_assoc y]
  have hc' : c ≠ 0 := by omega
  constructor
  · rw [hover]; exact Int.mul_le_mul_of_nonneg_right hle (by omega)
  · rw [hunder]; exact Int.mul_le_mul_of_nonneg_right hge (by omega)
  · rw [hover, hunder]
    exact fun htie => heven (htie.imp (Int.eq_of_mul_eq_mul_right hc') (Int.eq_of_mul_eq_mul_right hc'))

/-- Rounding keeps integer bounds. -/
theorem bounds (h : NearestEven y n d) (hd : 0 < d) {a b : Int} (ha : a * d ≤ n) (hb : n ≤ b * d) : a ≤ y ∧ y ≤ b := by
  obtain ⟨hle, hge, -⟩ := h
  constructor
  · refine Int.not_lt.1 fun hlt => ?_
    have := mul_add_le_mul hlt (by omega : 0 ≤ d)
    omega
  · refine Int.not_lt.1 fun hlt => ?_
    have := mul_add_le_mul hlt (by omega : 0 ≤ d)
    omega

/-- The same distances for the rational n / d. -/
theorem rat (h : NearestEven y n d) (hd : 0 < d) :
    (y : Rat) - n / d ≤ 1 / 2 ∧ (n : Rat) / d - y ≤ 1 / 2 ∧
      ((y : Rat) - n / d = 1 / 2 ∨ (n : Rat) / d - y = 1 / 2 → y % 2 = 0) := by
  obtain ⟨hle, hge, heven⟩ := h
  have hdQ : (0 : Rat) < d := by exact_mod_cast hd
  have hleQ : 2 * ((y : Rat) * d - n) ≤ d := by exact_mod_cast hle
  have hgeQ : 2 * ((n : Rat) - y * d) ≤ d := by exact_mod_cast hge
  have hevenQ : 2 * ((y : Rat) * d - n) = d ∨ 2 * ((n : Rat) - y * d) = d → y % 2 = 0 := by exact_mod_cast heven
  have hquot : (n : Rat) / d * d = n := Rat.div_mul_cancel (by grind)
  generalize (n : Rat) / d = x at hquot ⊢
  refine ⟨?_, ?_, fun htie => hevenQ ?_⟩
  · exact Rat.le_of_mul_le_mul_right (c := d) (by grind) hdQ
  · exact Rat.le_of_mul_le_mul_right (c := d) (by grind) hdQ
  · grind

end NearestEven

/-! ### The encoding -/

/-- The low 31 bits b of a binary32 under a sign. -/
theorem toNat_sign_or (neg : Bool) {b : Nat} (hb : b < 2 ^ 31) :
    ((if neg then 0x80000000 else 0 : F32) ||| BitVec.ofNat 32 b).toNat = 2 ^ 31 * neg.toNat + b := by
  rw [Nat.two_pow_add_eq_or_of_lt hb, BitVec.toNat_or, BitVec.toNat_ofNat, Nat.mod_eq_of_lt (by omega)]
  cases neg <;> rfl

section
variable {a : F32} {neg : Bool} {b : Nat}

theorem fsign_of_toNat (h : a.toNat = 2 ^ 31 * neg.toNat + b) (hb : b < 2 ^ 31) : fsign a = neg := by
  rw [fsign, BitVec.msb_eq_decide, h]
  cases neg
  · simp; omega
  · simp

theorem fexp_of_toNat (h : a.toNat = 2 ^ 31 * neg.toNat + b) (hb : b < 2 ^ 31) : fexp a = b / 2 ^ 23 := by
  rw [fexp, h]; omega

theorem ffrac_of_toNat (h : a.toNat = 2 ^ 31 * neg.toNat + b) : ffrac a = b % 2 ^ 23 := by
  rw [ffrac, h]; omega

theorem getLsbD_zero_of_toNat (h : a.toNat = 2 ^ 31 * neg.toNat + b) : a.getLsbD 0 = decide (b % 2 = 1) := by
  rw [BitVec.getLsbD, Nat.testBit_zero, h]; congr 1; apply propext; omega

end

/-- A significand r of 24 bits (the next power of two included) at exponent k, encoded, is the normal number r · 2^k. -/
theorem isFin_fmag_of_toNat {a : F32} {neg : Bool} {r k : Nat} (hr : 2 ^ 23 ≤ r) (hr' : r ≤ 2 ^ 24) (hk : k < 253)
    (h : a.toNat = 2 ^ 31 * neg.toNat + (k * 2 ^ 23 + r)) : isFin a = true ∧ fmag a = r * 2 ^ k := by
  have he := fexp_of_toNat h (by omega)
  have hf := ffrac_of_toNat h
  rcases Nat.lt_or_eq_of_le hr' with hlt | rfl
  · rw [show (k * 2 ^ 23 + r) / 2 ^ 23 = k + 1 by omega] at he
    rw [show (k * 2 ^ 23 + r) % 2 ^ 23 = r - 2 ^ 23 by omega] at hf
    refine ⟨by simp [isFin, he]; omega, ?_⟩
    rw [fmag, he, hf, if_neg (by omega), if_neg (by omega), Nat.add_sub_cancel' hr, Nat.add_sub_cancel]
  · rw [show (k * 2 ^ 23 + 2 ^ 24) / 2 ^ 23 = k + 2 by omega] at he
    rw [show (k * 2 ^ 23 + 2 ^ 24) % 2 ^ 23 = 0 by omega] at hf
    refine ⟨by simp [isFin, he]; omega, ?_⟩
    rw [fmag, he, hf, if_neg (by omega), if_neg (by omega), show k + 2 - 1 = k + 1 by omega, Nat.pow_succ']
    omega

/-- A finite magnitude is a multiple of 2^k, or less than every normal number at exponent k. -/
theorem fmag_multiple_or_lt (x : F32) (hx : isFin x = true) (k : Nat) : (∃ c : Nat, fmag x = c * 2 ^ k) ∨ fmag x < 2 ^ 23 * 2 ^ k := by
  have hf : ffrac x < 2 ^ 23 := Nat.mod_lt _ (by decide)
  have hk : 0 < 2 ^ k := Nat.two_pow_pos k
  have h255 : fexp x ≠ 255 := by simpa [isFin] using hx
  by_cases h0 : fexp x = 0
  · right
    rw [fmag, if_pos h0]
    exact Nat.lt_of_lt_of_le hf (Nat.le_mul_of_pos_right _ hk)
  · rw [fmag, if_neg h0, if_neg h255]
    rcases Nat.lt_or_ge (fexp x - 1) k with hlt | hge
    · right
      have hle : 2 * 2 ^ (fexp x - 1) ≤ 2 ^ k := by rw [← Nat.pow_succ']; exact Nat.pow_le_pow_right (by decide) hlt
      calc (2 ^ 23 + ffrac x) * 2 ^ (fexp x - 1) < 2 ^ 24 * 2 ^ (fexp x - 1) :=
            Nat.mul_lt_mul_of_pos_right (by omega) (Nat.two_pow_pos _)
        _ = 2 ^ 23 * (2 * 2 ^ (fexp x - 1)) := by omega
        _ ≤ 2 ^ 23 * 2 ^ k := Nat.mul_le_mul_left _ hle
    · left
      exact ⟨(2 ^ 23 + ffrac x) * 2 ^ (fexp x - 1 - k), by rw [Nat.mul_assoc, ← Nat.pow_add, Nat.sub_add_cancel hge]⟩

/-! ### Powers of two -/

theorem natCast_two_pow (n : Nat) : ((2 ^ n : Nat) : Int) = 2 ^ n := Int.natCast_pow 2 n

theorem two_pow_eq_two_mul {w : Nat} (hw : 1 ≤ w) : 2 ^ w = 2 * 2 ^ (w - 1) := by
  cases w with
  | zero => omega
  | succ n => exact Nat.pow_succ'

/-! ### The two steps of `roundMag`: rounding to a significand, and encoding it -/

/-- m · 2^e in units of 2^q, rounded to nearest even where q > e. -/
def significand (m : Nat) (e q : Int) : Nat :=
  if q ≤ e then m * 2 ^ (e - q).toNat
  else
    let sh := (q - e).toNat
    let t := m / 2 ^ sh
    let rem := m % 2 ^ sh
    let half := 2 ^ (sh - 1)
    if half < rem ∨ (rem = half ∧ t % 2 = 1) then t + 1 else t

/-- The binary32 of a significand in units of 2^q. -/
def packMag (neg : Bool) (r : Nat) (q : Int) : F32 :=
  let bits : Int := if r < 2 ^ 23 then r else (q + 149) * 2 ^ 23 + r
  if 255 * 2 ^ 23 ≤ bits then finf neg else (if neg then 0x80000000 else 0) ||| BitVec.ofNat 32 bits.toNat

theorem roundMag_eq_packMag (neg : Bool) {m : Nat} (hm : m ≠ 0) {e q : Int} (hq : max ((m.log2 : Int) + 1 + e - 24) (-149) = q) :
    roundMag neg m e = packMag neg (significand m e q) q := by
  subst hq
  rw [roundMag]
  exact if_neg hm

theorem toNat_packMag (neg : Bool) {r k : Nat} {q : Int} (hr : 2 ^ 23 ≤ r) (hr' : r ≤ 2 ^ 24) (hk : k < 253) (hq : q + 149 = k) :
    (packMag neg r q).toNat = 2 ^ 31 * neg.toNat + (k * 2 ^ 23 + r) := by
  have hbits : (if r < 2 ^ 23 then (r : Int) else (q + 149) * 2 ^ 23 + r) = (k * 2 ^ 23 + r : Nat) := by
    rw [if_neg (Nat.not_lt.2 hr), hq]; omega
  rw [packMag]
  simp only [hbits, Int.toNat_natCast]
  rw [if_neg (by omega), toNat_sign_or neg (by omega)]

/-- Scaled up, a significand is exact. -/
theorem significand_of_le (m s : Nat) {e q : Int} (h : e - q = s) : significand m e q = m * 2 ^ s := by
  rw [significand, if_pos (by omega), h, Int.toNat_natCast]

/-- Scaled down, it is rounded to nearest even. -/
theorem nearestEven_significand (m s : Nat) {e q : Int} (h : q - e = (s + 1 : Nat)) : NearestEven (significand m e q) m (2 ^ (s + 1) : Nat) := by
  have hpow : 2 * ((2 ^ s : Nat) : Int) = (2 ^ (s + 1) : Nat) := by rw [Nat.pow_succ']; rfl
  have hrem : m % 2 ^ (s + 1) < 2 ^ (s + 1) := Nat.mod_lt _ (Nat.two_pow_pos _)
  have hdiv : ((m / 2 ^ (s + 1) : Nat) : Int) * (2 ^ (s + 1) : Nat) + (m % 2 ^ (s + 1) : Nat) = m := by
    exact_mod_cast Nat.div_add_mod' m (2 ^ (s + 1))
  have key := nearestEven_ite (q := (m / 2 ^ (s + 1) : Nat)) (r := (m % 2 ^ (s + 1) : Nat)) (h := (2 ^ s : Nat)) (by omega) (by omega)
  rw [hpow, hdiv] at key
  rw [significand, if_neg (by omega), h, Int.toNat_natCast]
  dsimp only
  rw [Nat.add_sub_cancel]
  have hcast : ((if 2 ^ s < m % 2 ^ (s + 1) ∨ m % 2 ^ (s + 1) = 2 ^ s ∧ m / 2 ^ (s + 1) % 2 = 1 then m / 2 ^ (s + 1) + 1
      else m / 2 ^ (s + 1) : Nat) : Int) = if ((2 ^ s : Nat) : Int) < (m % 2 ^ (s + 1) : Nat) ∨
        (((m % 2 ^ (s + 1) : Nat) : Int) = (2 ^ s : Nat) ∧ ((m / 2 ^ (s + 1) : Nat) : Int) % 2 = 1) then ((m / 2 ^ (s + 1) : Nat) : Int) + 1
      else (m / 2 ^ (s + 1) : Nat) := by
    split <;> split <;> omega
  rw [hcast]
  exact key

/-- For m ≠ 0 of at most 32 bits and j ≤ 31, m · 2^−j is rounded to a normal number, whose significand is m in units of 2^(log2 m − 23)
rounded to nearest even. -/
theorem roundMag_normal (neg : Bool) {m j : Nat} (hm : m ≠ 0) (hm32 : m < 2 ^ 32) (hj : j ≤ 31) :
    ∃ r : Nat, NearestEven r (m * 2 ^ 149) (2 ^ (m.log2 + 126)) ∧ isFin (roundMag neg m (-(j : Int))) = true ∧
      fsign (roundMag neg m (-(j : Int))) = neg ∧ fmag (roundMag neg m (-(j : Int))) = r * 2 ^ (m.log2 + 126 - j) ∧
      (roundMag neg m (-(j : Int))).getLsbD 0 = decide (r % 2 = 1) := by
  have hl : m.log2 < 32 := (Nat.log2_lt hm).2 hm32
  have hlo : 2 ^ m.log2 ≤ m := Nat.log2_self_le hm
  have hhi : m < 2 ^ (m.log2 + 1) := Nat.lt_log2_self
  rw [roundMag_eq_packMag neg hm (q := m.log2 - 23 - j) (by omega)]
  generalize m.log2 = l at *
  have hnear : NearestEven (significand m (-j) (l - 23 - j)) (m * 2 ^ 149) (2 ^ (l + 126)) := by
    rcases Nat.lt_or_ge 23 l with hlarge | hsmall
    · obtain ⟨s, rfl⟩ := Nat.exists_eq_add_of_lt hlarge
      have key := (nearestEven_significand m s (e := -j) (q := (23 + s + 1 : Nat) - 23 - j) (by omega)).scale (c := 2 ^ 149) (by decide)
      rwa [natCast_two_pow, ← Int.pow_add, show s + 1 + 149 = 23 + s + 1 + 126 by omega] at key
    · rw [significand_of_le m (23 - l) (by omega), show 149 = 23 - l + (l + 126) by omega, Int.pow_add, ← Int.mul_assoc]
      push_cast
      exact .of_mul (Int.pow_pos (by decide))
  have hlo' : ((2 ^ 23 : Nat) : Int) * 2 ^ (l + 126) ≤ m * 2 ^ 149 := by
    have : 2 ^ 23 * 2 ^ (l + 126) ≤ m * 2 ^ 149 := by
      calc 2 ^ 23 * 2 ^ (l + 126) = 2 ^ l * 2 ^ 149 := by rw [← Nat.pow_add, ← Nat.pow_add]; congr 1; omega
        _ ≤ m * 2 ^ 149 := Nat.mul_le_mul_right _ hlo
    exact_mod_cast this
  have hhi' : (m : Int) * 2 ^ 149 ≤ (2 ^ 24 : Nat) * 2 ^ (l + 126) := by
    have : m * 2 ^ 149 ≤ 2 ^ 24 * 2 ^ (l + 126) := by
      calc m * 2 ^ 149 ≤ 2 ^ (l + 1) * 2 ^ 149 := Nat.mul_le_mul_right _ (Nat.le_of_lt hhi)
        _ = 2 ^ 24 * 2 ^ (l + 126) := by rw [← Nat.pow_add, ← Nat.pow_add]; congr 1; omega
    exact_mod_cast this
  obtain ⟨hr, hr'⟩ := hnear.bounds (Int.pow_pos (by decide)) hlo' hhi'
  rw [Int.ofNat_le] at hr hr'
  have hbits := toNat_packMag neg (q := l - 23 - j) (k := l + 126 - j) hr hr' (by omega) (by omega)
  obtain ⟨hfin, hmag⟩ := isFin_fmag_of_toNat hr hr' (by omega) hbits
  refine ⟨_, hnear, hfin, fsign_of_toNat hbits (by omega), hmag, ?_⟩
  rw [getLsbD_zero_of_toNat hbits]
  congr 1
  apply propext
  omega

/-! ### Received words (R178) -/

theorem signedOf_natAbs_le (w v : Nat) (hw : 1 ≤ w) : (signedOf w v).natAbs ≤ 2 ^ (w - 1) := by
  have hpow : 2 ^ w = 2 * 2 ^ (w - 1) := two_pow_eq_two_mul hw
  have hlt : v % 2 ^ w < 2 ^ w := Nat.mod_lt _ (Nat.two_pow_pos w)
  simp only [signedOf]
  split <;> omega

theorem sampleOf_of_signedOf_eq_zero {w v : Nat} (h : signedOf w v = 0) : sampleOf w v = 0 := by
  rw [sampleOf, roundInt, if_pos h]; rfl

/-- A word other than 0 has a normal number of its sign as its sample, whose significand is the word's magnitude rounded to nearest even. -/
theorem sampleOf_normal {w v : Nat} (hw : 1 ≤ w) (hw32 : w ≤ 32) (hv : signedOf w v ≠ 0) :
    ∃ r : Nat, NearestEven r ((signedOf w v).natAbs * 2 ^ 149) (2 ^ ((signedOf w v).natAbs.log2 + 126)) ∧ isFin (sampleOf w v) = true ∧
      fval (sampleOf w v) = (signedOf w v).sign * (r * 2 ^ ((signedOf w v).natAbs.log2 + 126 - (w - 1))) ∧
      (sampleOf w v).getLsbD 0 = decide (r % 2 = 1) := by
  have hle : (signedOf w v).natAbs < 2 ^ 32 :=
    Nat.lt_of_le_of_lt (signedOf_natAbs_le w v hw) (Nat.pow_lt_pow_right (by decide) (by omega))
  obtain ⟨r, hnear, hfin, hsign, hmag, hlsb⟩ :=
    roundMag_normal (decide (signedOf w v < 0)) (Int.natAbs_ne_zero.2 hv) hle (by omega : w - 1 ≤ 31)
  rw [sampleOf, roundInt, if_neg hv]
  refine ⟨r, hnear, hfin, ?_, hlsb⟩
  rw [fval, hsign, hmag]
  rcases Int.lt_or_gt_of_ne hv with hneg | hpos
  · simp [hneg, Int.sign_eq_neg_one_of_neg hneg]
  · simp [Int.not_lt.2 (Int.le_of_lt hpos), Int.sign_eq_one_of_pos hpos]

theorem sampleOf_isFin {w : Nat} (hw : 1 ≤ w) (hw32 : w ≤ 32) (v : Nat) : isFin (sampleOf w v) = true := by
  by_cases hv : signedOf w v = 0
  · rw [sampleOf_of_signedOf_eq_zero hv]; rfl
  · obtain ⟨_, -, hfin, -⟩ := sampleOf_normal hw hw32 hv
    exact hfin

/-- R178: the sample of a word of at most 24 bits is the word · 2^−(w − 1) exactly. -/
theorem sampleOf_exact {w v : Nat} (hw : 1 ≤ w) (hw24 : w ≤ 24) :
    isFin (sampleOf w v) = true ∧ fval (sampleOf w v) * 2 ^ (w - 1) = signedOf w v * 2 ^ 149 := by
  by_cases hv : signedOf w v = 0
  · rw [sampleOf_of_signedOf_eq_zero hv, hv]
    exact ⟨rfl, by rw [show fval 0 = 0 from rfl]; simp⟩
  · obtain ⟨r, hnear, hfin, hval, -⟩ := sampleOf_normal hw (by omega) hv
    refine ⟨hfin, ?_⟩
    have hle : (signedOf w v).natAbs ≤ 2 ^ (w - 1) := signedOf_natAbs_le w v hw
    have hl : (signedOf w v).natAbs.log2 ≤ 23 := by
      have := (Nat.log2_lt (Int.natAbs_ne_zero.2 hv)).2 (Nat.lt_of_le_of_lt hle (Nat.pow_lt_pow_right (by decide) (by omega : w - 1 < 24)))
      omega
    rw [hval]
    have hsign : (signedOf w v).sign * (signedOf w v).natAbs = signedOf w v := Int.sign_mul_natAbs _
    generalize (signedOf w v).natAbs = m at *
    rw [show 149 = 23 - m.log2 + (m.log2 + 126) by omega, Int.pow_add, ← Int.mul_assoc] at hnear
    rw [hnear.eq_of_mul (Int.pow_pos (by decide))]
    calc (signedOf w v).sign * (m * 2 ^ (23 - m.log2) * 2 ^ (m.log2 + 126 - (w - 1))) * 2 ^ (w - 1)
        = (signedOf w v).sign * m * (2 ^ (23 - m.log2) * 2 ^ (m.log2 + 126 - (w - 1)) * 2 ^ (w - 1)) := by simp only [Int.mul_assoc]
      _ = signedOf w v * 2 ^ 149 := by rw [hsign, ← Int.pow_add, ← Int.pow_add]; congr 2; omega

/-- A finite value is a multiple of 2^k, or of a magnitude less than every normal number at exponent k. -/
theorem fval_multiple_or_lt (x : F32) (hx : isFin x = true) (k : Nat) :
    (∃ c : Int, fval x = c * 2 ^ k) ∨ (fval x).natAbs < 2 ^ 23 * 2 ^ k := by
  have habs : fval x = -fmag x ∨ fval x = fmag x := by rw [fval]; split <;> simp
  refine (fmag_multiple_or_lt x hx k).imp ?_ (fun h => by omega)
  rintro ⟨c, hc⟩
  rw [hc] at habs
  rcases habs with h | h
  · exact ⟨-c, by rw [h]; push_cast; rw [Int.neg_mul]⟩
  · exact ⟨c, by rw [h]; push_cast; rfl⟩

/-- The same of a value under a sign σ, scaled by 2^31. -/
theorem sign_fval_multiple_or_lt {σ : Int} (hσ : σ.natAbs = 1) (x : F32) (hx : isFin x = true) (l : Nat) :
    (∃ c, σ * fval x * 2 ^ 31 = c * 2 ^ (l + 126)) ∨ σ * fval x * 2 ^ 31 < 2 ^ 23 * 2 ^ (l + 126) := by
  have hpow : (2 : Int) ^ (l + 95) * 2 ^ 31 = 2 ^ (l + 126) := (Int.pow_add 2 (l + 95) 31).symm
  refine (fval_multiple_or_lt x hx (l + 95)).imp ?_ (fun h => ?_)
  · rintro ⟨c, hc⟩
    exact ⟨σ * c, by rw [hc, ← Int.mul_assoc σ, Int.mul_assoc, hpow]⟩
  · have habs : (σ * fval x).natAbs = (fval x).natAbs := by rw [Int.natAbs_mul, hσ, Nat.one_mul]
    have hlt : σ * fval x < (2 ^ 23 * 2 ^ (l + 95) : Nat) := by omega
    calc σ * fval x * 2 ^ 31 < (2 ^ 23 * 2 ^ (l + 95) : Nat) * 2 ^ 31 := Int.mul_lt_mul_of_pos_right hlt (by decide)
      _ = 2 ^ 23 * 2 ^ (l + 126) := by rw [Int.natCast_mul, natCast_two_pow, natCast_two_pow, Int.mul_assoc, hpow]

/-- No finite binary32 lies nearer to ±m · 2^−31, with 2^l ≤ m, than the normal number whose significand r is m rounded to nearest even; as
near only where r is even. -/
theorem natAbs_le_of_nearestEven {r m l : Nat} {σ : Int} (hσ : σ.natAbs = 1) (hlo : 2 ^ l ≤ m)
    (hnear : NearestEven r (m * 2 ^ 149) (2 ^ (l + 126))) (x : F32) (hx : isFin x = true) (hne : fval x ≠ σ * (r * 2 ^ (l + 95))) :
    (σ * (r * 2 ^ (l + 95)) * 2 ^ 31 - σ * m * 2 ^ 149).natAbs ≤ (fval x * 2 ^ 31 - σ * m * 2 ^ 149).natAbs ∧
      ((σ * (r * 2 ^ (l + 95)) * 2 ^ 31 - σ * m * 2 ^ 149).natAbs = (fval x * 2 ^ 31 - σ * m * 2 ^ 149).natAbs → (r : Int) % 2 = 0) := by
  have hsq : σ * σ = 1 := by rw [← Int.natAbs_mul_self, hσ]; rfl
  have hpow : (2 : Int) ^ (l + 95) * 2 ^ 31 = 2 ^ (l + 126) := (Int.pow_add 2 (l + 95) 31).symm
  have hleft : σ * (r * 2 ^ (l + 95)) * 2 ^ 31 - σ * m * 2 ^ 149 = σ * (r * 2 ^ (l + 126) - m * 2 ^ 149) := by
    rw [← hpow, Int.mul_sub]; simp only [Int.mul_assoc]
  have hright : fval x * 2 ^ 31 - σ * m * 2 ^ 149 = σ * (σ * fval x * 2 ^ 31 - m * 2 ^ 149) := by
    rw [Int.mul_sub, Int.mul_assoc σ (fval x), ← Int.mul_assoc σ σ, hsq, Int.one_mul, Int.mul_assoc]
  rw [hleft, hright, Int.natAbs_mul, Int.natAbs_mul, hσ, Nat.one_mul, Nat.one_mul]
  have ha : (2 ^ 23 : Int) * 2 ^ (l + 126) ≤ m * 2 ^ 149 := by
    calc (2 ^ 23 : Int) * 2 ^ (l + 126) = 2 ^ l * 2 ^ 149 := by rw [← Int.pow_add, ← Int.pow_add]; congr 1; omega
      _ ≤ m * 2 ^ 149 := Int.mul_le_mul_of_nonneg_right (by exact_mod_cast hlo) (by decide)
  refine hnear.natAbs_le_of_gap ha (sign_fval_multiple_or_lt hσ x hx l) fun h => hne ?_
  rw [← hpow, ← Int.mul_assoc] at h
  have h' : σ * fval x = r * 2 ^ (l + 95) := Int.eq_of_mul_eq_mul_right (by decide) h
  rw [← h', ← Int.mul_assoc, hsq, Int.one_mul]

/-- R178: the sample of a word of 32 bits is a binary32 nearest to the word · 2^−31, and the even one of two. -/
theorem sampleOf_nearest (v : Nat) (x : F32) (hx : isFin x = true) (hne : fval x ≠ fval (sampleOf 32 v)) :
    (fval (sampleOf 32 v) * 2 ^ 31 - signedOf 32 v * 2 ^ 149).natAbs ≤ (fval x * 2 ^ 31 - signedOf 32 v * 2 ^ 149).natAbs ∧
      ((fval (sampleOf 32 v) * 2 ^ 31 - signedOf 32 v * 2 ^ 149).natAbs = (fval x * 2 ^ 31 - signedOf 32 v * 2 ^ 149).natAbs →
        (sampleOf 32 v).getLsbD 0 = false) := by
  by_cases hv : signedOf 32 v = 0
  · rw [sampleOf_of_signedOf_eq_zero hv]
    exact ⟨by rw [hv, show fval 0 = 0 from rfl]; simp, fun _ => rfl⟩
  · obtain ⟨r, hnear, -, hval, hlsb⟩ := sampleOf_normal (by decide) (Nat.le_refl 32) hv
    obtain ⟨hle, htie⟩ := natAbs_le_of_nearestEven (Int.natAbs_sign_of_ne_zero hv) (Nat.log2_self_le (Int.natAbs_ne_zero.2 hv)) hnear x hx
      (hval ▸ hne)
    rw [Int.sign_mul_natAbs] at hle htie
    rw [hval, hlsb]
    refine ⟨hle, fun h => ?_⟩
    have := htie h
    simp only [decide_eq_false_iff_not]
    omega

/-! ### Sent words (R178) -/

/-- A number of the range is read back from its two's complement. -/
theorem signedOf_toSigned {w : Nat} (hw : 1 ≤ w) {v : Int} (hlo : -(2 ^ (w - 1)) ≤ v) (hhi : v ≤ 2 ^ (w - 1) - 1) :
    signedOf w (toSigned w v) = v := by
  have hpow : ((2 ^ w : Nat) : Int) = 2 * 2 ^ (w - 1) := by
    rw [two_pow_eq_two_mul hw, Int.natCast_mul, natCast_two_pow]; rfl
  have hmod : v % ((2 ^ w : Nat) : Int) = if v < 0 then v + (2 ^ w : Nat) else v := by
    split
    · rw [← Int.add_emod_right, Int.emod_eq_of_lt (by omega) (by omega)]
    · exact Int.emod_eq_of_lt (by omega) (by omega)
  have hhalf : ((2 ^ (w - 1) : Nat) : Int) = 2 ^ (w - 1) := natCast_two_pow (w - 1)
  simp only [signedOf, toSigned, hmod]
  split
  · rw [Nat.mod_eq_of_lt (by omega), if_neg (by omega)]
    omega
  · rw [Nat.mod_eq_of_lt (by omega), if_pos (by omega)]
    omega

theorem toSigned_lt (w : Nat) (v : Int) : toSigned w v < 2 ^ w := by
  have := Int.emod_lt_of_pos v (b := ((2 ^ w : Nat) : Int)) (Int.natCast_pos.2 (Nat.two_pow_pos w))
  rw [toSigned]
  omega

theorem wordOf_lt (w : Nat) (v : F32) : wordOf w v < 2 ^ w := by
  rw [wordOf]
  split
  · exact Nat.two_pow_pos w
  · dsimp only
    split <;> exact toSigned_lt w _

theorem wordOf_of_isNaN (w : Nat) {v : F32} (h : isNaN v = true) : wordOf w v = 0 := by rw [wordOf, if_pos h]

theorem signedOf_wordOf_of_isInf {w : Nat} (hw : 1 ≤ w) {v : F32} (h : isInf v = true) :
    signedOf w (wordOf w v) = if fsign v then -(2 ^ (w - 1)) else 2 ^ (w - 1) - 1 := by
  have hnan : isNaN v = false := by simp_all [isInf, isNaN]
  have hpos : (0 : Int) < 2 ^ (w - 1) := Int.pow_pos (by decide)
  simp only [wordOf, hnan, h, if_true, Bool.false_eq_true, if_false]
  split <;> exact signedOf_toSigned hw (by omega) (by omega)

/-- A finite sample is sent as the nearest integer to its value · 2^(w − 1), ties to even, saturated. -/
theorem signedOf_wordOf_of_isFin {w : Nat} (hw : 1 ≤ w) {v : F32} (h : isFin v = true) :
    ∃ q : Int, NearestEven q (fval v * 2 ^ (w - 1)) (2 ^ 149) ∧
      signedOf w (wordOf w v) = max (-(2 ^ (w - 1))) (min (2 ^ (w - 1) - 1) q) := by
  have hnan : isNaN v = false := by simp_all [isFin, isNaN]
  have hinf : isInf v = false := by simp_all [isFin, isInf]
  have hpos : (0 : Int) < 2 ^ (w - 1) := Int.pow_pos (by decide)
  have key := nearestEven_ite (q := fval v * 2 ^ (w - 1) / 2 ^ 149) (r := fval v * 2 ^ (w - 1) % 2 ^ 149) (h := 2 ^ 148)
    (by omega) (by omega)
  rw [show (2 : Int) * 2 ^ 148 = 2 ^ 149 by decide, Int.mul_comm (_ / _), Int.mul_ediv_add_emod] at key
  refine ⟨_, key, ?_⟩
  simp only [wordOf, hnan, hinf, Bool.false_eq_true, if_false]
  exact signedOf_toSigned hw (by omega) (by omega)

/-- The same as distances of rationals: the word lies within one half of the value unless it saturates, and a tie gives an even word. -/
theorem wordOf_rounded {w : Nat} (hw : 1 ≤ w) {v : F32} (h : isFin v = true) :
    let x : Rat := (fval v : Rat) * (2 ^ (w - 1) : Nat) / (2 ^ 149 : Nat)
    let y : Int := signedOf w (wordOf w v)
    (-(2 ^ (w - 1) : Int)) ≤ y ∧ y ≤ 2 ^ (w - 1) - 1 ∧
    ((y : Rat) - x ≤ 1 / 2 ∨ y = -(2 ^ (w - 1))) ∧ (x - (y : Rat) ≤ 1 / 2 ∨ y = 2 ^ (w - 1) - 1) ∧
    (((y : Rat) - x = 1 / 2 ∨ x - (y : Rat) = 1 / 2) → y ≠ -(2 ^ (w - 1)) → y ≠ 2 ^ (w - 1) - 1 → y % 2 = 0) := by
  obtain ⟨q, hq, hword⟩ := signedOf_wordOf_of_isFin hw h
  obtain ⟨hle, hge, heven⟩ := hq.rat (by decide)
  have hx : ((fval v * 2 ^ (w - 1) : Int) : Rat) / ((2 ^ 149 : Int) : Rat) = (fval v : Rat) * (2 ^ (w - 1) : Nat) / (2 ^ 149 : Nat) := by
    push_cast; rfl
  rw [hx] at hle hge heven
  have hpos : (0 : Int) < 2 ^ (w - 1) := Int.pow_pos (by decide)
  dsimp only
  generalize (fval v : Rat) * (2 ^ (w - 1) : Nat) / (2 ^ 149 : Nat) = x at *
  generalize signedOf w (wordOf w v) = y at *
  have hlow : y ≤ q ∨ y = -(2 ^ (w - 1)) := by omega
  have hhigh : q ≤ y ∨ y = 2 ^ (w - 1) - 1 := by omega
  refine ⟨by omega, by omega, hlow.imp_left fun h => ?_, hhigh.imp_left fun h => ?_, fun htie hne hne' => ?_⟩
  · have : (y : Rat) ≤ q := by exact_mod_cast h
    grind
  · have : (q : Rat) ≤ y := by exact_mod_cast h
    grind
  · obtain rfl : y = q := by omega
    exact heven htie

end Sys2Proof.Machine
end

section
/-! SUPPORT. The sample memory, the channel gates and what a frame of a port leaves as it was (R178, R180, R182, R183). -/

namespace Sys2Proof.Machine

/-! ### The sample memory -/

/-- The sample memory and each signal in it are in canonical form. -/
structure Dev.SampWf (d : Dev) : Prop where
  signals : mwf (fun _ => []) d.samp = true
  samples : ∀ g, mwf (fun _ => 0) (mget (fun _ => []) d.samp g) = true

theorem Dev.sget_congr {d e : Dev} (h : e.samp = d.samp) (g n : Nat) : e.sget g n = d.sget g n := by rw [Dev.sget, h]; rfl

theorem Dev.SampWf.congr {d e : Dev} (hd : d.SampWf) (h : e.samp = d.samp) : e.SampWf := ⟨h ▸ hd.signals, h ▸ hd.samples⟩

namespace Dev.SampWf

variable {d : Dev} (hd : d.SampWf)
include hd

theorem sput (g n : Nat) (v : F32) : (d.sput g n v).SampWf := by
  refine ⟨mwf_mset _ _ _ _ hd.signals, fun k => ?_⟩
  rw [Dev.sput, mget_mset _ _ _ _ _ hd.signals]
  split
  · exact mwf_mset _ _ _ _ (hd.samples g)
  · exact hd.samples k

/-- A sample read after one was written. -/
theorem sget_sput (g n : Nat) (v : F32) (g' n' : Nat) :
    (d.sput g n v).sget g' n' = if g' = g ∧ n' = n then v else d.sget g' n' := by
  rw [Dev.sget, Dev.sput, mget_mset _ _ _ _ _ hd.signals]
  by_cases hg : g' = g
  · subst hg
    simp only [if_true, true_and]
    exact mget_mset _ _ _ _ _ (hd.samples g')
  · simp only [hg, if_false, false_and]
    rfl

end Dev.SampWf

/-- Samples written in turn change the sample memory alone. -/
theorem Dev.forL_sput_eq (g : Nat → Nat) (n : Nat) (l : List (Nat × F32)) (d : Dev) :
    ∃ m, forL l (fun e d => d.sput (g e.1) n e.2) d = { d with samp := m } := by
  induction l generalizing d with
  | nil => exact ⟨d.samp, rfl⟩
  | cons e l ih =>
    obtain ⟨m, hm⟩ := ih (d.sput (g e.1) n e.2)
    exact ⟨m, hm⟩

/-- Samples of distinct signals, written in turn at one index, are read back. -/
theorem Dev.sget_forL_sput {g : Nat → Nat} (hg : Function.Injective g) (n : Nat) {k : Nat} {v : F32} (l : List (Nat × F32)) {d : Dev}
    (hd : d.SampWf) (hl : ∀ e ∈ l, e.1 = k → e.2 = v) (hk : k ∈ l.map Prod.fst ∨ d.sget (g k) n = v) :
    (forL l (fun e d => d.sput (g e.1) n e.2) d).sget (g k) n = v := by
  induction l generalizing d with
  | nil => simpa [forL] using hk
  | cons e l ih =>
    refine ih (hd.sput _ _ _) (fun e' he' => hl e' (List.mem_cons_of_mem e he')) ?_
    by_cases hek : e.1 = k
    · right
      rw [hd.sget_sput, if_pos ⟨by rw [hek], rfl⟩]
      exact hl e List.mem_cons_self hek
    · rw [hd.sget_sput, if_neg (fun h => hek (hg h.1).symm)]
      exact hk.imp_left fun h => (List.mem_cons.1 h).resolve_left (Ne.symm hek)

/-! ### The channel gates (R183) -/

theorem gatesAll_iff_opened (m : NMap ChGate) (mask : Word) (n : Nat) :
    gatesAll m mask n true = true ↔ ∀ k < n, mask.getLsbD k = true → (gateAt m k).opened = true := by
  simp [gatesAll, Decidable.or_iff_not_imp_left]

theorem ChGate.pass_of_opened {g : ChGate} (h : g.opened = true) (L : Nat) (v : F32) : g.pass true L v = ({ g with prev := v }, v) := by
  simp [ChGate.pass, h]

/-- One slot of `gateFrame`. -/
def gateStep (mask : Word) (opening : Bool) (L : Nat) (st : NMap ChGate × List F32) (e : Nat × F32) : NMap ChGate × List F32 :=
  if mask.getLsbD e.1 then
    let g := (gateAt st.1 e.1).pass opening L e.2
    (mset (fun _ => ChGate.init) st.1 e.1 g.1, g.2 :: st.2)
  else (mset (fun _ => ChGate.init) st.1 e.1 ChGate.init, 0 :: st.2)

theorem gateFrame_snd (m : NMap ChGate) (mask : Word) (opening : Bool) (L : Nat) (vs : List F32) :
    (gateFrame m mask opening L vs).2 = (((List.range vs.length).zip vs).foldl (gateStep mask opening L) (m, [])).2.reverse := rfl

/-- Through open gates the values of enabled slots pass unchanged; those of disabled slots are cut. -/
theorem foldl_gateStep_opened (mask : Word) (L : Nat) (es : List (Nat × F32)) (st : NMap ChGate × List F32)
    (hwf : mwf (fun _ => ChGate.init) st.1 = true) (hnd : (es.map Prod.fst).Nodup)
    (hop : ∀ e ∈ es, mask.getLsbD e.1 = true → (gateAt st.1 e.1).opened = true) :
    (es.foldl (gateStep mask true L) st).2 = (es.map (fun e => if mask.getLsbD e.1 then e.2 else 0)).reverse ++ st.2 := by
  induction es generalizing st with
  | nil => rfl
  | cons e es ih =>
    obtain ⟨hnot, hnd⟩ := List.nodup_cons.1 hnd
    have hwf' : mwf (fun _ => ChGate.init) (gateStep mask true L st e).1 = true := by
      rw [gateStep]; split <;> exact mwf_mset _ _ _ _ hwf
    have hother : ∀ e' ∈ es, gateAt (gateStep mask true L st e).1 e'.1 = gateAt st.1 e'.1 := by
      intro e' he'
      have hne : e'.1 ≠ e.1 := fun h => hnot (h ▸ List.mem_map_of_mem he')
      rw [gateStep]
      split <;> exact mget_mset_ne _ _ _ _ _ hwf hne
    have hout : (gateStep mask true L st e).2 = (if mask.getLsbD e.1 then e.2 else 0) :: st.2 := by
      rw [gateStep]
      split
      · next hmask => rw [ChGate.pass_of_opened (hop e List.mem_cons_self hmask)]
      · rfl
    rw [List.foldl_cons, ih _ hwf' hnd (fun e' he' hm => by rw [hother e' he']; exact hop e' (List.mem_cons_of_mem e he') hm), hout]
    simp

theorem zip_range_map {β : Type} (n : Nat) (f : Nat → β) :
    (List.range n).zip ((List.range n).map f) = (List.range n).map (fun k => (k, f k)) := by
  simpa using List.zip_map' (f := id) (g := f) (l := List.range n)

theorem gateFrame_opened {m : NMap ChGate} {mask : Word} {n : Nat} (L : Nat) (f : Nat → F32)
    (hwf : mwf (fun _ => ChGate.init) m = true) (hop : gatesAll m mask n true = true) :
    (gateFrame m mask true L ((List.range n).map f)).2 = (List.range n).map (fun k => if mask.getLsbD k then f k else 0) := by
  rw [gatesAll_iff_opened] at hop
  rw [gateFrame_snd, List.length_map, List.length_range, zip_range_map, foldl_gateStep_opened mask L _ _ hwf]
  · simp [Function.comp_def]
  · simpa [Function.comp_def] using List.nodup_range
  · simpa using hop

/-! ### Counting a frame (R180, R183) -/

/-- What counting a frame of port p leaves as it was: samples, output, established registers, and the port's state, mask and gates. -/
structure Dev.FrameKept (p : Nat) (d e : Dev) : Prop where
  samp  : e.samp = d.samp
  out   : e.out = d.out
  est   : e.est = d.est
  regs  : e.regsWf
  state : e.portSt p = d.portSt p
  ports : mwf (fun _ => Port.init) e.net.ports = true
  mask  : (e.port p).mask = (d.port p).mask
  ins   : (e.port p).ins = (d.port p).ins
  outs  : (e.port p).outs = (d.port p).outs

theorem Dev.port_setPort {d : Dev} (hd : mwf (fun _ => Port.init) d.net.ports = true) (p : Nat) (x : Port) : (d.setPort p x).port p = x :=
  mget_mset_self _ _ _ _ hd

namespace Dev.FrameKept

variable {p : Nat} {d e : Dev}

theorem refl (hr : d.regsWf) (hp : mwf (fun _ => Port.init) d.net.ports = true) : d.FrameKept p d :=
  ⟨rfl, rfl, rfl, hr, rfl, hp, rfl, rfl, rfl⟩

theorem re_eq (h : d.FrameKept p e) (off : Nat) : e.re off = d.re off := by rw [Dev.re, h.est]; rfl

/-- A field of PRT_STAT below the state code. -/
theorem setStat (h : d.FrameKept p e) (hi lo v : Nat) (hlo : lo ≤ hi) (hhi : hi < 29) : d.FrameKept p (e.setFld (Off.PRT_STAT p) hi lo v) :=
  { h with
    regs := Dev.regsWf_setFld _ _ _ _ _ h.regs
    state := (Dev.fld_setFld_other e _ hi lo v 31 29 h.regs (by omega) hlo (by decide) (Or.inr hhi)).trans h.state }

theorem wrSmaskAt (h : d.FrameKept p e) (v : Nat) : d.FrameKept p (e.wrN (Off.PRT_SMASK_AT p) v) :=
  { h with
    regs := Dev.regsWf_wrN _ _ _ h.regs
    state := by
      have hne : Off.PRT_STAT p ≠ Off.PRT_SMASK_AT p := by simp [Off.PRT_STAT, Off.PRT_SMASK_AT]
      rw [← h.state, Dev.portSt, Dev.fld, Dev.rd_wrN_ne _ _ _ _ h.regs hne]
      rfl }

theorem raise (h : d.FrameKept p e) (c i v : Nat) : d.FrameKept p (e.raise c i v) := ⟨h.1, h.2, h.3, h.4, h.5, h.6, h.7, h.8, h.9⟩

/-- The port's counters. -/
theorem setPort (h : d.FrameKept p e) (x : Port) (hmask : x.mask = (d.port p).mask) (hins : x.ins = (d.port p).ins)
    (houts : x.outs = (d.port p).outs) : d.FrameKept p (e.setPort p x) :=
  { h with
    ports := mwf_mset _ _ _ _ h.ports
    mask := by rw [Dev.port_setPort h.ports, hmask]
    ins := by rw [Dev.port_setPort h.ports, hins]
    outs := by rw [Dev.port_setPort h.ports, houts] }

theorem portAlign (h : d.FrameKept p e) (err : Int) : d.FrameKept p (e.portAlign p err) := by
  unfold Dev.portAlign
  extract_lets x win out err' e1 e2
  have h1 : d.FrameKept p e1 := (h.setStat 15 0 _ (by decide) (by decide)).setStat 27 27 _ (Nat.le_refl _) (by decide)
  have h2 : d.FrameKept p e2 := h1.setPort _ h.mask h.ins h.outs
  split
  · split
    · exact h2
    · exact h2.raise _ _ _
  · split
    · exact h1.setPort _ h.mask h.ins h.outs
    · exact h1

end Dev.FrameKept

theorem Dev.frameShift_eq_zero {d : Dev} {err : Int} (h : 2 * (d.frameErr err).natAbs * d.fs ≤ 1000000000) : d.frameShift err = 0 :=
  if_pos h

section
variable {d : Dev} {p n : Nat} {f : SerialFrame}

/-- A frame of a Locked port within half a period of its reference edge is no slip, and has the index due (R180, R181). -/
theorem Dev.frameSeen_snd (hf : cfgForeign (d.re (Off.PRT_CFG p)) = false) (hn : (d.port p).next = some n) (hs : d.frameShift f.errNs = 0) :
    (d.frameSeen p f).2 = (false, false, n) := by
  simp [Dev.frameSeen, hf, hn, hs]

theorem Dev.frameSeen_kept (hr : d.regsWf) (hp : mwf (fun _ => Port.init) d.net.ports = true) : d.FrameKept p (d.frameSeen p f).1 := by
  unfold Dev.frameSeen
  extract_lets cfg foreign x shift locked fast slow n correct d1 d2 x2 idx d3
  have h1 : d.FrameKept p d1 := by
    simp only [d1]
    split
    · exact .refl hr hp
    · exact (Dev.FrameKept.refl hr hp).portAlign _
  have h2 : d.FrameKept p d2 := h1.setStat 28 28 _ (Nat.le_refl _) (by decide)
  have h3 : d.FrameKept p d3 := by
    simp only [d3]
    split
    · exact h2.wrSmaskAt _
    · exact h2
  exact h3.setPort _ h2.mask h2.ins h2.outs

end

/-! ### The audio of a frame of a Locked port (R178, R182) -/

theorem Sig.serialRaw_injective (p : Nat) : Function.Injective (fun k => Sig.serialRaw (32 * p + k)) := by
  intro i j h
  simpa [Sig.serialRaw] using h

/-- The slots that a frame of a Locked port sends on SDO while the gates of its enabled slots are open. -/
def Dev.openSlots (d : Dev) (p n : Nat) : List (Option Nat) :=
  let cfg := d.re (Off.PRT_CFG p)
  (List.range (cfgFrameSlots cfg)).map (fun k =>
    if (d.port p).mask.getLsbD k then
      some (wordOf (cfgWlen cfg) (d.sget (Sig.gateOut (2 * 65536 + 32 * p + k)) n) * 2 ^ (cfgSlotW cfg - cfgWlen cfg))
    else if cfg.getLsbD 28 then none else some 0)

theorem Dev.getD_openSlots (d : Dev) (p n k : Nat) (hk : k < cfgFrameSlots (d.re (Off.PRT_CFG p))) (hm : (d.port p).mask.getLsbD k = true) :
    (d.openSlots p n).getD k none = some (wordOf (cfgWlen (d.re (Off.PRT_CFG p))) (d.sget (Sig.gateOut (2 * 65536 + 32 * p + k)) n) *
      2 ^ (cfgSlotW (d.re (Off.PRT_CFG p)) - cfgWlen (d.re (Off.PRT_CFG p)))) := by
  simp [Dev.openSlots, hk, hm]

/-- What a port's gates are while its channels pass unchanged: the enabled slots of both directions open (R183). -/
structure Dev.GatesOpen (d : Dev) (p : Nat) : Prop where
  ins     : gatesAll (d.port p).ins (d.port p).mask (cfgFrameSlots (d.re (Off.PRT_CFG p))) true = true
  outs    : gatesAll (d.port p).outs (d.port p).mask (cfgFrameSlots (d.re (Off.PRT_CFG p))) true = true
  insWf   : mwf (fun _ => ChGate.init) (d.port p).ins = true
  outsWf  : mwf (fun _ => ChGate.init) (d.port p).outs = true

/-- With its gates open, a frame of a Locked port that is not closing brings the samples of its words and sends the words of its samples;
the registers stay. -/
theorem Dev.audioFrame_open {d : Dev} {p n : Nat} {f : SerialFrame} (hg : d.GatesOpen p) (hf : cfgForeign (d.re (Off.PRT_CFG p)) = false)
    (hst : d.portSt p ≠ 4) (hs : d.SampWf) :
    (∀ k < cfgFrameSlots (d.re (Off.PRT_CFG p)), (d.port p).mask.getLsbD k = true →
      (d.audioFrame p n f).sget (Sig.serialRaw (32 * p + k)) n =
        sampleOf (cfgWlen (d.re (Off.PRT_CFG p))) (frameWord f (d.re (Off.PRT_CFG p)) k)) ∧
    (d.audioFrame p n f).out = d.out ++ [.serial p n (d.openSlots p n)] ∧ (d.audioFrame p n f).regs = d.regs := by
  have hin := gateFrame_opened d.L (fun k => sampleOf (cfgWlen (d.re (Off.PRT_CFG p))) (frameWord f (d.re (Off.PRT_CFG p)) k)) hg.insWf hg.ins
  have hout := gateFrame_opened d.L (fun k => d.sget (Sig.gateOut (2 * 65536 + 32 * p + k)) n) hg.outsWf hg.outs
  unfold Dev.audioFrame
  extract_lets x cfg slots opening vs gi outs go d1 d2 d3 words
  have hopening : opening = true := by simpa [opening] using hst
  have hgi : gi.2 = (List.range slots).map (fun k => if x.mask.getLsbD k then sampleOf (cfgWlen cfg) (frameWord f cfg k) else 0) := by
    simp only [gi, hopening]; exact hin
  have hgo : go.2 = (List.range slots).map (fun k => if x.mask.getLsbD k then d.sget (Sig.gateOut (2 * 65536 + 32 * p + k)) n else 0) := by
    simp only [go, cfg, hf, hopening]; exact hout
  have hd2 : d2 = d1 := by simp only [d2, cfg, hf]; rfl
  have hd3 : d3 = forL ((List.range slots).zip gi.2) (fun e d => d.sput (Sig.serialRaw (32 * p + e.1)) n e.2) d1 := by
    simp only [d3, cfg, hf, hd2]; rfl
  have hwords : words = d.openSlots p n := by
    simp only [words, hgo, zip_range_map, List.map_map, Dev.openSlots]
    refine List.map_congr_left fun k _ => ?_
    simp only [Function.comp_apply]
    split
    · rfl
    · rfl
  rw [if_neg (by rw [hf]; exact Bool.false_ne_true), hwords]
  obtain ⟨m, hm⟩ := Dev.forL_sput_eq (fun k => Sig.serialRaw (32 * p + k)) n ((List.range slots).zip gi.2) d1
  rw [← hd3] at hm
  have hframe : d3.out = d.out ∧ d3.regs = d.regs := by rw [hm]; exact ⟨rfl, rfl⟩
  refine ⟨fun k hk hmask => ?_, congrArg (· ++ [_]) hframe.1, hframe.2⟩
  have hread : d3.sget (Sig.serialRaw (32 * p + k)) n = sampleOf (cfgWlen cfg) (frameWord f cfg k) := by
    rw [hd3, hgi, zip_range_map]
    refine Dev.sget_forL_sput (Sig.serialRaw_injective p) n _ (hs.congr rfl : d1.SampWf) ?_ (.inl ?_)
    · intro e he hek
      obtain ⟨i, -, rfl⟩ := List.mem_map.1 he
      obtain rfl : i = k := hek
      exact if_pos hmask
    · simpa [Function.comp_def] using hk
  exact hread

theorem Dev.portSettle_running {d : Dev} {p : Nat} (h : d.portSt p = 3) : d.portSettle p = d := by
  simp [Dev.portSettle, h]

/-- A frame of a RUNNING Locked port, open and within half a period of its reference edge, is counted and its audio passes. -/
theorem Dev.serialFrameAt_running {d : Dev} {p n : Nat} {f : SerialFrame} (hst : d.portSt p = 3)
    (hf : cfgForeign (d.re (Off.PRT_CFG p)) = false) (hl : cfgLink (d.re (Off.PRT_CFG p)) = false) (hn : (d.port p).next = some n)
    (hstarts : frameStarts f (d.re (Off.PRT_CFG p)) ≠ []) (hs : d.frameShift f.errNs = 0) (htop : (d.port p).top ≤ n) :
    d.serialFrameAt p f = ((d.frameSeen p f).1.audioFrame p n f).portSettle p := by
  have hsnd := Dev.frameSeen_snd hf hn hs
  rw [Dev.serialFrameAt]
  dsimp only
  rw [if_neg (by simp [hst, hstarts]), hsnd]
  simp [hst, hl, Nat.not_lt.2 htop]

/-- Such a frame brings the samples of its words, and sends the words of the playout block's samples. -/
theorem Dev.serialFrameAt_audio {d : Dev} {p n : Nat} {f : SerialFrame} (hr : d.regsWf) (hp : mwf (fun _ => Port.init) d.net.ports = true)
    (hs : d.SampWf) (hg : d.GatesOpen p) (hst : d.portSt p = 3)
    (hf : cfgForeign (d.re (Off.PRT_CFG p)) = false) (hl : cfgLink (d.re (Off.PRT_CFG p)) = false) (hn : (d.port p).next = some n)
    (hstarts : frameStarts f (d.re (Off.PRT_CFG p)) ≠ []) (hshift : d.frameShift f.errNs = 0) (htop : (d.port p).top ≤ n) :
    (∀ k < cfgFrameSlots (d.re (Off.PRT_CFG p)), (d.port p).mask.getLsbD k = true →
      (d.serialFrameAt p f).sget (Sig.serialRaw (32 * p + k)) n =
        sampleOf (cfgWlen (d.re (Off.PRT_CFG p))) (frameWord f (d.re (Off.PRT_CFG p)) k)) ∧
    (d.serialFrameAt p f).out = d.out ++ [.serial p n (d.openSlots p n)] := by
  have hk := Dev.frameSeen_kept (p := p) (f := f) hr hp
  have hst' := hk.state.trans hst
  rw [Dev.serialFrameAt_running hst hf hl hn hstarts hshift htop]
  have hcfg := hk.re_eq (Off.PRT_CFG p)
  have hslots : (d.frameSeen p f).1.openSlots p n = d.openSlots p n := by
    simp only [Dev.openSlots, hcfg, hk.mask, Dev.sget_congr hk.samp]
  have hgates : (d.frameSeen p f).1.GatesOpen p :=
    ⟨by rw [hk.ins, hk.mask, hcfg]; exact hg.ins, by rw [hk.outs, hk.mask, hcfg]; exact hg.outs, hk.ins ▸ hg.insWf, hk.outs ▸ hg.outsWf⟩
  have haudio := Dev.audioFrame_open (n := n) (f := f) hgates (hcfg ▸ hf) (by rw [hst']; decide) (hs.congr hk.samp)
  rw [hcfg, hk.mask, hslots, hk.out] at haudio
  obtain ⟨hread, hout, hregs⟩ := haudio
  have hrun : ((d.frameSeen p f).1.audioFrame p n f).portSt p = 3 := by
    rw [← hst', Dev.portSt, Dev.fld, Dev.rd_congr _ _ _ hregs]; rfl
  rw [Dev.portSettle_running hrun]
  exact ⟨hread, hout⟩

/-! ### AES3 frames (R188, R191) -/

/-- Two sound subframes bring the samples of their audio words at the frame's index. -/
theorem Dev.aesFrame_sound {d : Dev} {r : Nat} (z : Bool) {a b : AesSub} (hs : d.SampWf) (hen : d.bit (Off.AES_RX_CFG r) 31 = true)
    (ha : subParityOk a = true) (hb : subParityOk b = true) (hv : d.bit (Off.AES_RX_CFG r) 0 = false) :
    (d.aesFrame r z a b).sget (Sig.aesIn (2 * r)) (d.aesRx r).frames = sampleOf 24 a.audio ∧
    (d.aesFrame r z a b).sget (Sig.aesIn (2 * r + 1)) (d.aesRx r).frames = sampleOf 24 b.audio := by
  have hsample : ∀ s, subParityOk s = true → (d.arrived r (d.aesRx r).frames).aesSample r s = sampleOf 24 s.audio := by
    intro s hs
    have hv' : (d.arrived r (d.aesRx r).frames).bit (Off.AES_RX_CFG r) 0 = false := hv
    simp [Dev.aesSample, hs, hv']
  have hsamp : (d.aesFrame r z a b).samp = (((d.arrived r (d.aesRx r).frames).sput (Sig.aesIn (2 * r)) (d.aesRx r).frames (sampleOf 24 a.audio)).sput
      (Sig.aesIn (2 * r + 1)) (d.aesRx r).frames (sampleOf 24 b.audio)).samp := by
    rw [← hsample a ha, ← hsample b hb, Dev.aesFrame, if_neg (by simp [hen])]
    rfl
  have hne : Sig.aesIn (2 * r) ≠ Sig.aesIn (2 * r + 1) := by simp [Sig.aesIn]
  have h0 : (d.arrived r (d.aesRx r).frames).SampWf := hs.congr rfl
  rw [Dev.sget_congr hsamp, Dev.sget_congr hsamp, (h0.sput _ _ _).sget_sput, (h0.sput _ _ _).sget_sput, h0.sget_sput]
  simp [hne]

theorem aesWord_mod {v : Nat} (hv : v < 2 ^ 24) (x c : Bool) : aesWord v x c % 2 ^ 24 = v := by
  simp only [aesWord]
  cases x <;> cases c <;> simp <;> omega

/-- Frame k of a transmitter's tick n: none before the first index. -/
def Dev.aesTxStep (t n first : Nat) (va vb : Bool) (k : Nat) (d : Dev) : Dev :=
  if n * d.L + k < first then d else d.emit (d.aesTxFrame t (n * d.L + k) va vb)

theorem Dev.aesTxTick_enabled {d : Dev} {t first : Nat} (n : Nat) (inv : Nat → Bool) (hen : d.bit (Off.AES_TX_CFG t) 31 = true)
    (hfrom : (d.aesTx t).from_ = some first) :
    d.aesTxTick t n inv = forN d.L (Dev.aesTxStep t n first (inv (3 * 65536 + 2 * t)) (inv (3 * 65536 + 2 * t + 1)))
      (d.setAesTx t { d.aesTx t with from_ := some first }) := by
  rw [Dev.aesTxTick, if_neg (by simp [hen])]
  simp only [hfrom]
  rfl

/-- The frames from the first on join the output in order; nothing else changes. -/
theorem Dev.forL_aesTxStep (t n first : Nat) (va vb : Bool) (l : List Nat) (d : Dev) :
    forL l (Dev.aesTxStep t n first va vb) d =
      { d with out := d.out ++ (l.filter (fun k => first ≤ n * d.L + k)).map (fun k => d.aesTxFrame t (n * d.L + k) va vb) } := by
  induction l generalizing d with
  | nil => simp [forL]
  | cons k l ih =>
    have hcons : forL (k :: l) (Dev.aesTxStep t n first va vb) d =
        forL l (Dev.aesTxStep t n first va vb) (Dev.aesTxStep t n first va vb k d) := rfl
    rw [hcons, ih, Dev.aesTxStep]
    by_cases hk : n * d.L + k < first
    · rw [if_pos hk, List.filter_cons_of_neg (by simpa using hk)]
    · rw [if_neg hk, List.filter_cons_of_pos (by simpa using hk), List.map_cons, List.append_cons]
      rfl

/-- Every index of the tick from the first on has its frame, whose subframes carry the words of the playout block's samples. -/
theorem Dev.aesTxTick_mem {d : Dev} {t n k first : Nat} (inv : Nat → Bool) (hen : d.bit (Off.AES_TX_CFG t) 31 = true)
    (hfrom : (d.aesTx t).from_ = some first) (hk : k < d.L) (hi : first ≤ n * d.L + k) :
    ∃ a b, Out.aes t (n * d.L + k) (n * d.L + k + 1) (decide ((n * d.L + k) % 192 = 0)) a b ∈ (d.aesTxTick t n inv).out ∧
      a % 2 ^ 24 = wordOf 24 (d.sget (Sig.gateOut (3 * 65536 + 2 * t)) (n * d.L + k)) ∧
      b % 2 ^ 24 = wordOf 24 (d.sget (Sig.gateOut (3 * 65536 + 2 * t + 1)) (n * d.L + k)) := by
  rw [Dev.aesTxTick_enabled n inv hen hfrom, forN, ← forL, Dev.forL_aesTxStep]
  refine ⟨_, _, List.mem_append_right _ (List.mem_map.2 ⟨k, ?_, rfl⟩), aesWord_mod (wordOf_lt 24 _) _ _, aesWord_mod (wordOf_lt 24 _) _ _⟩
  exact List.mem_filter.2 ⟨List.mem_range.2 hk, decide_eq_true hi⟩

/-! ### The statement -/

/-- Settles O56: `roundMag` and `wordOf` round to nearest even (`NearestEven`); a RUNNING port's open gates and an AES3 port pass the words
and samples unchanged. -/
theorem sampleWords : Obligations.SampleWords := by
  refine ⟨fun w v hw hw24 _ => sampleOf_exact hw hw24, fun v _ => ?_, fun w v hw _ => ?_, ?_, ?_, ?_⟩
  · exact ⟨sampleOf_isFin (by decide) (Nat.le_refl _) v, sampleOf_nearest v⟩
  · exact ⟨wordOf_of_isNaN w, signedOf_wordOf_of_isInf hw, wordOf_rounded hw⟩
  · intro p n f s hready hp hsignals hsamples hports x cfg hst hf hl hn hins houts hinsWf houtsWf hstarts herr htop
    obtain ⟨hread, hout⟩ := Dev.serialFrameAt_audio hready.regs hports ⟨hsignals, hsamples⟩ ⟨hins, houts, hinsWf, houtsWf⟩ hst hf hl hn
      hstarts (Dev.frameShift_eq_zero herr) htop
    exact Completes.onDev (fun d => d.serialFrameAt p f) (State.ofUnit_lt _ _ _ hp) hready.up
      ⟨⟨rfl, rfl, rfl⟩, hread, _, hout, s.dev.getD_openSlots p n⟩
  · intro r z a b s hready hr hen ha hb hv hsignals hsamples
    exact Completes.onDev (fun d => d.aesFrame r z a b) (State.ofUnit_lt _ _ _ hr) hready.up
      ⟨⟨rfl, rfl, rfl⟩, Dev.aesFrame_sound z ⟨hsignals, hsamples⟩ hen ha hb hv⟩
  · intro d t n k first inv hen hfrom hk i hi
    exact Dev.aesTxTick_mem inv hen hfrom hk hi

end Sys2Proof.Machine
end

section
/-! SUPPORT. The event masks and what recording a masked event leaves as it was (R342, R348). -/

namespace Sys2Proof.Machine

/-! ### Events -/

/-- With no event raised since, the queueing of events changes nothing. -/
theorem Dev.settle_of_fresh_nil {d : Dev} (h : d.evt.fresh = []) : d.settle = d := by
  have hevt : { d.evt with raised := d.evt.raised ++ evSort [], fresh := [] } = d.evt := by
    rw [show evSort [] = [] from rfl, List.append_nil, ← h]
  rw [Dev.settle, h, hevt]

/-- The word of an array by range that code 0xRRnn selects, and the bit in it. -/
theorem Dev.codeBit_of_range (d : Dev) (reg : Nat → Nat) {rr nn : Nat} (h1 : 1 ≤ rr) (h16 : rr ≤ 16) (hn : nn < 32) :
    d.codeBit reg (rr * 256 + nn) = d.bit (reg (rr - 1)) nn := by
  have hdiv : (rr * 256 + nn) / 256 = rr := by omega
  have hmod : (rr * 256 + nn) % 256 = nn := by omega
  simp [Dev.codeBit, hdiv, hmod, h1, h16, hn]

theorem Dev.recordOne_of_masked {d : Dev} {e : EvRec} (h : d.masked e.code = true) : d.recordOne e = d := by rw [Dev.recordOne, if_pos h]

/-- The registers alone say which codes are masked. -/
theorem Dev.masked_congr {d e : Dev} (h : d.regs = e.regs) (code : Nat) : d.masked code = e.masked code := by
  simp only [Dev.masked, Dev.codeBit, Dev.bit, Dev.rd_congr d e _ h]

/-- A masked event at the head of the queue leaves it, and nothing else changes. -/
theorem Dev.evtRecord_of_masked {d : Dev} {e : EvRec} {es : List EvRec} (hq : d.evt.raised = e :: es) (hm : d.masked e.code = true) :
    d.evtRecord = { d with evt := { d.evt with raised := es } } := by
  simp only [Dev.evtRecord, hq]
  exact Dev.recordOne_of_masked ((Dev.masked_congr rfl e.code).trans hm)

/-- What an event adds depends on no register, and a register write on no event: the two commute. -/
theorem Dev.raise_wr (d : Dev) (off : Nat) (v : Word) (code inst param : Nat) :
    (d.wr off v).raise code inst param = (d.raise code inst param).wr off v := rfl

/-! ### The statement -/

/-- Settles O58: `recordOne` answers a masked event with the device itself, and `raise` neither reads nor writes a register. -/
theorem maskedEvents : Obligations.MaskedEvents := by
  refine ⟨fun d rr nn h1 h16 hn => d.codeBit_of_range Off.EVT_MASK h1 h16 hn, fun e es s hready hq hm => ?_,
    fun d code inst param k v => d.raise_wr (Off.EVT_MASK k) v code inst param⟩
  have hfresh : s.dev.evtRecord.evt.fresh = [] := by rw [Dev.evtRecord_of_masked hq hm]; exact hready.fresh
  exact Completes.onDev Dev.evtRecord rfl hready.up
    ⟨⟨rfl, rfl, rfl⟩, (Dev.settle_of_fresh_nil hfresh).trans (Dev.evtRecord_of_masked hq hm)⟩

end Sys2Proof.Machine
end
